-- ==== Sys2Proof/Word.lean ====
section
/-! DEFINITION. The word types of the PRX4896 and the index types of its units (00_scope.md R4, 01_architecture.md R29). -/
namespace Sys2Proof

/-- One byte of a frame, packet, record or transaction. -/
abbrev Byte := BitVec 8

/-- One 32-bit register word (R277). -/
abbrev Word := BitVec 32

/-- An axis AX0–AX47 (R29). -/
abbrev AxisId := Fin 48

/-- A group G0–G11 (R29). -/
abbrev GroupId := Fin 12

/-- A leg HB0–HB191 (R29). -/
abbrev LegId := Fin 192

/-- A coil, 2n for coil A and 2n+1 for coil B of axis n (R153). -/
abbrev CoilId := Fin 96

/-- An AXIO pin AXIO0–AXIO95 (R109). -/
abbrev PinId := Fin 96

/-- A master source M0–M7 (R35). -/
abbrev MasterId := Fin 8

/-- An interpreter core (R13). -/
abbrev CoreId := Fin 4

/-- A submission queue Q0–Q15 (R287). -/
abbrev QueueId := Fin 16

/-- A current-sense converter: ADC-A of group g is 2g and ADC-B is 2g+1 (R29). -/
abbrev AdcId := Fin 24

end Sys2Proof
end

