-- ==== Sys2Proof/Syntax.lean ====
section
/-! DEFINITION. The commands of the block: one constructor of Instr per row of spec/opcode_table.json, with its operands. -/
namespace Sys2Proof

/-- The port an access comes through (R281). -/
inductive Port where
  | host
  | sideband
deriving DecidableEq, Repr

/-- One frame on the host port between the fall and the rise of HSS (R267, R268). -/
structure HostFrame where
  /-- The levels on the data lanes at each sampling edge clocked before HSS rose, bit i of an element the level of HDi; a lane
  that your host does not drive at an edge may have any level there (R268 to R270). -/
  levels : List (BitVec 8)
  /-- The PWM tick since the last boundary in which the last bit of each data word arrived (R194); 0 where the list ends. -/
  ticks : List Nat
deriving DecidableEq, Repr

/-- What the analogue world delivers in one frame (R59 step 6, R505): the two raw conversions of every coil taken during
the frame that ends at this boundary, the calibration conversion of every ADC, and each group's die readings. -/
structure FrameInputs where
  /-- Raw ADC output at the earlier-listed instant (pulse centre) of each coil (R152, R203). -/
  pulse : Vector (BitVec 12) 96
  /-- Raw ADC output at the gap-centre instant of each coil. -/
  gap : Vector (BitVec 12) 96
  /-- Raw result of the calibration conversion of each ADC, used when it had a slot (R205). -/
  cal : Vector (BitVec 12) 24
  /-- Die temperature of each group, signed 0.125 °C (R512). -/
  temp : Vector (BitVec 16) 12
  /-- VM monitor reading of each group in mV (R512). -/
  vm : Vector (BitVec 17) 12
deriving DecidableEq, Repr

/-- The verdict bits the steps of a DIAGNOSE measured (R246 bits 0–9), with the two coil resistances in mΩ and whether a
gang tie was found open (R245). -/
structure DiagReading where
  shortVmA : Bool
  shortGndA : Bool
  shortVmB : Bool
  shortGndB : Bool
  raMilliohm : Nat
  rbMilliohm : Nat
  coilToCoil : Bool
  outToOut : Bool
  tieOpen : Bool
deriving DecidableEq, Repr

/-- Where a detected error of live SRAM data lies (R408); `free` is a word that holds no live data (R406). -/
inductive SramRegion where
  | free
  | profileCache (n : AxisId)
  | codeCache
  | microstepTable (t : Fin 4) (entry : Fin 1024)
  | descriptor (n : AxisId) (cacheFailed : Bool)
  | packet (tag : BitVec 16)
  | completion (index : Nat)
  | firmwareData (bothFailed : Bool) (lostTag : Bool)
deriving DecidableEq, Repr

/-- A side-band transaction error (R347). -/
inductive SbError where
  | badCommand (code : BitVec 8)
  | short (code : BitVec 8) (bytes : Nat)
  | pecMismatch
  | byteAfterPec
  | missingPec
  | readPecNotRead
deriving DecidableEq, Repr

/-- A fast read of a flash device: its command and its dummy cycles (R364). -/
structure FastRead where
  command : BitVec 8
  dummy : Nat
deriving DecidableEq, Repr

/-- What a flash device's SFDP table says (R364): the fields that the port takes from it, and whether its signature is valid. -/
structure Sfdp where
  signature : Bool
  /-- Bytes of the device. -/
  density : Nat
  /-- The fast reads 1-1-1, 1-1-2, 1-2-2, 1-1-4 and 1-4-4, where the device has them. -/
  read111 : Option FastRead
  read112 : Option FastRead
  read122 : Option FastRead
  read114 : Option FastRead
  read144 : Option FastRead
  /-- The quad-enable method. -/
  quadEnable : BitVec 3
  /-- The mode bits that keep the device in continuous-read mode, where it has that mode. -/
  modeBits : Option (BitVec 8)
  /-- The 4-byte address method. -/
  address4 : BitVec 8
  /-- The erase commands of 4 KB and of 64 KB. -/
  erase4k : Option (BitVec 8)
  erase64k : Option (BitVec 8)
  pageSize : Nat
  /-- Suspend and resume of programs and erases. -/
  suspend : Bool
deriving DecidableEq, Repr

/-- What fails on a group link (R17). -/
inductive LinkFailure where
  /-- A transfer failed its check once and its repetition passed. -/
  | repeatedOk
  /-- The ADC result of a coil failed twice: the pulse-centre sample (`gapSample = false`) or the gap-centre one. -/
  | sample (coil : Fin 8) (gapSample : Bool)
  /-- A configuration write failed three times in succession. -/
  | configWrite
deriving DecidableEq, Repr

/-- Which NVM or eFuse programming sequence ends (R389, R395, R425). -/
inductive NvmJob where
  | options
  | fuse
  | shale
deriving DecidableEq, Repr

/-- The commands of the block, one constructor per row of spec/opcode_table.json. An operand with a default value stands for what
a row says where it leaves that operand out: the raw time 0, no PEC byte (R346), SAFEA as the input that is low, SRAM word 0. -/
inductive Instr where
  -- host port (10_host_port.md)
  | registerReadFrame (f : HostFrame)
  | registerWrite (f : HostFrame)
  | loReadLatch (port : Port) (page : BitVec 4) (word : BitVec 8)
  | hiWriteCommit (port : Port) (page : BitVec 4) (word : BitVec 8) (value : Word)
  | packetPush (f : HostFrame)
  | completionPull (f : HostFrame)
  | arbiterDispatch (core : CoreId)
  -- opcodes (12_opcodes.md): the core that commits the packet it holds
  | echo (core : CoreId)
  | identify (core : CoreId)
  | configAxis (core : CoreId)
  | configGroup (core : CoreId)
  | bindMaster (core : CoreId)
  | routeAxio (core : CoreId)
  | setPosition (core : CoreId)
  | moveAbs (core : CoreId)
  | moveRel (core : CoreId)
  | velocity (core : CoreId)
  | gear (core : CoreId)
  | dose (core : CoreId)
  | hold (core : CoreId)
  | home (core : CoreId)
  | setSpeed (core : CoreId)
  | setAccel (core : CoreId)
  | stop (core : CoreId)
  | quickstop (core : CoreId)
  | disable (core : CoreId)
  | enable (core : CoreId)
  | flush (core : CoreId)
  | batchDefine (core : CoreId)
  | batchClose (core : CoreId)
  | diagnose (core : CoreId)
  | identifyMotor (core : CoreId)
  | readAxis (core : CoreId)
  | readGroup (core : CoreId)
  | loadTable (core : CoreId)
  | loadLibrary (core : CoreId)
  | libraryStreamResume
  | clearFault (core : CoreId)
  | ownership (core : CoreId)
  | fwStage (core : CoreId)
  | fwSwitch (core : CoreId)
  | fwCodeLoadEnd
  | lifecycle (core : CoreId)
  | fuseProgram (core : CoreId)
  | deviceReset (core : CoreId)
  | blockReset (core : CoreId)
  | syncEpoch (core : CoreId)
  | epochLoad
  | stopAll (core : CoreId)
  -- the frame (02_master_time.md, 03_motion_segments.md)
  | frameBoundary (inp : FrameInputs)
  | missedCommit (g : GroupId)
  | segmentStart (n : AxisId)
  | segmentEnd (n : AxisId)
  | velocityReanchor (n : AxisId)
  | deadline (n : AxisId)
  | homeTimeout (n : AxisId)
  -- masters and synchronisation
  | m0EncoderEdge (a b : Bool) (t : Nat)
  | stpEdge (i : Fin 4) (dirHigh : Bool) (t : Nat)
  | mszIndexEdge (rising : Bool) (t : Nat)
  | masterStandstill (m : Fin 5) (t : Nat)
  | rateEpochApply (v : Fin 2)
  | flenApply
  | tsyncPulse
  | tsyncEdge (tick : Nat)
  | syncLost
  | syncConflict
  -- AXIO, plug sense, amplitude timers (04_axio_homing.md, 05_current_control.md)
  | axioTransition (pin : PinId) (level : Bool) (t : Nat)
  | axioQualify (pin : PinId) (t : Nat)
  | chatterEnd (pin : PinId) (t : Nat)
  | localReturn (n : AxisId)
  | axioOutputOverload (pin : PinId)
  | axioOutputRetry (pin : PinId)
  | brakeDelay (n : AxisId)
  | plugProbe (n : AxisId) (raMilliohm rbMilliohm : Nat)
  | boostExpiry (n : AxisId)
  | standstillTimeout (n : AxisId)
  | sampleLost (c : CoilId)
  | shareErr (n : AxisId)
  | encoderSettle (n : AxisId) (stood : Bool)
  | encErr (n : AxisId)
  -- calibration, observer, protection (07_quartz_calibration.md, 08_stall.md, 09_power_stage.md)
  | delayLineMeasure (g : GroupId) (counts : Vector Nat 16)
  | forcedSlot (adc : AdcId)
  | rcoilWindowEnd (n : AxisId)
  | injectionReferenceEnd (n : AxisId)
  | keLearned (n : AxisId)
  | stall (n : AxisId)
  | unplugDetect (n : AxisId)
  | legTrip (leg : LegId) (highSide : Bool) (hardShort : Bool) (t : Nat)
  | retryWaitEnd (n : AxisId)
  | retryCheckEnd (n : AxisId) (failA failB : Bool) (t : Nat := 0)
  | retryRunResume (n : AxisId)
  | retryCounterClear (n : AxisId)
  | gateSupplyLockout (g : GroupId) (vcp : Bool) (t : Nat := 0)
  | vmLockout (g : GroupId) (overVoltage : Bool) (t : Nat := 0)
  | lockoutRelease (g : GroupId)
  | groupLinkFailure (g : GroupId) (what : LinkFailure)
  | safeOff (aLow bLow : Bool) (t : Nat := 0)
  | safeActClear
  | safeDisc (aLow : Bool := true)
  | clkLost
  | thermalShutdown (g : GroupId) (temp : BitVec 16)
  | thermalShutdownClear (g : GroupId)
  | baseplateReading (value : BitVec 16)
  -- register words with a row of their own
  | keyUnlock (port : Port) (value : Word)
  | unlockLapse (port : Port)
  | groupBlockReset (port : Port) (g : GroupId)
  | mportBlockReset (port : Port)
  | quartzBlockReset (port : Port)
  | syncBlockReset (port : Port)
  | sbandBlockReset (port : Port)
  | optionsWrite (port : Port)
  | deviceKeyLoad (port : Port)
  | firmwareKeyLoad (port : Port)
  | shaleIdx (port : Port) (value : Word)
  | edgeWordWrite (port : Port) (g : GroupId) (leg : Fin 16) (off : Bool) (value : Word)
  | commit (port : Port) (g : GroupId) (value : Word) (tick : Nat)
  | hostedge (port : Port) (g : GroupId) (value : Word)
  | hbDirect (port : Port) (g : GroupId) (value : Word)
  | frameCfg (port : Port) (value : Word)
  | mposPreset (port : Port) (m : MasterId) (value : Word)
  | vmRate (port : Port) (v : Fin 2) (value : Word)
  | syncCfg (port : Port) (value : Word)
  -- reset, integrity (15_reset_lifecycle.md, 16_integrity.md)
  | powerOnReset
  | brownOutReset
  | nrstReset
  | fuseSensingEnd
  | nvmPulseEnd
  | optionsLoadEnd (trimsPass : Bool)
  | nrstRelease
  | ramWipeEnd (dev0 dev1 : Option Sfdp)
  | bootBankTry
  | watchdogFirstStage
  | watchdogSecondStage
  | dispatchResume
  | sramScrub (region : SramRegion) (word : Fin 98304 := 0)
  | tableReloadEnd (t : Fin 4)
  | parityScrub (page : BitVec 4) (word : BitVec 8) (copyFailed : Bool)
  | pohSave
  | hirqAgeTimeout
  -- side-band port (13_sideband.md); `pec` is the optional PEC byte of a write command
  | sbWake
  | sbAwakeTimeout
  | sbVddValid
  | sbVddLost
  | sbBusTimeout
  | sbTransactionError (e : SbError)
  | identity
  | lcQuery
  | wake (value : Byte) (pec : Option Byte := none)
  | status
  | shaleRead (index : BitVec 16)
  | regRead (page word : Byte)
  | regWrite (page word : Byte) (value : Word) (pec : Option Byte := none)
  | envRead (arg : Byte)
  | axisRead (axis : Byte)
  | sbStopAll (key : BitVec 16) (pec : Option Byte := none)
  | axisStop (axis mode : Byte) (pec : Option Byte := none)
  | axisEnable (axis : Byte) (pec : Option Byte := none)
  | sbJog (axis direction : Byte) (pec : Option Byte := none)
  | sbJogExpiry (n : AxisId)
  | take (axis : Byte) (pec : Option Byte := none)
  | handBack (axis : Byte) (pec : Option Byte := none)
  | serviceEnter (passcode : BitVec 64) (pec : Option Byte := none)
  | passcodeSet (old new : BitVec 64) (pec : Option Byte := none)
  | passcodeLockoutEnd
  | bankSelect (key : BitVec 16) (bank : Byte) (pec : Option Byte := none)
  | moduleReset (key : BitVec 16) (pec : Option Byte := none)
  | alertResponse (won : Bool)
  | hostSilent
  -- ends of operations
  | diagnoseEnd (n : AxisId) (r : DiagReading)
  | flashOperationEnd (ok : Bool)
  | nvmProgramEnd (job : NvmJob) (verifyFailed : Bool)
  | blockResetEnd (bit : Fin 20)
  | vsbPowerOn
deriving DecidableEq, Repr

end Sys2Proof
end

