-- ==== Sys2Proof/Decode.lean ====
section
/-! DEFINITION. The command a word of opcode_table.json spells: the table gives no row any bits, so no word spells one. -/
namespace Sys2Proof

/-- The command spelled by a word of `nbits` bits (the block form of a decoder). No row of the table has bits, so every word
is turned away. -/
def decodeTableWord (_nbits _w : Nat) : Option Instr := none

end Sys2Proof
end

