-- ==== Sys2Proof/Config.lean ====
section
/-! DEFINITION. What the PRX4896 spec leaves open: free values, each an opaque constant that no proof can see into. -/
namespace Sys2Proof.Config

/-- FREE VALUE (notes/assumptions/3.md): the offset, in units of 1/65,536 cycle, between the module's atan2 and the nearest
unit of the exact angle; R226 allows ±4, so users clamp it to that range. -/
opaque atan2Error : Int → Int → Int

/-- FREE VALUE (notes/assumptions/4.md): the CODE byte of a class 0x04 Shale entry that is no classification
(R424 names lock-out and interlock without a number), by the flag's bit number in GRP_FAULT. -/
opaque powerStageCode : Nat → BitVec 8

/-- FREE VALUE (notes/assumptions/5.md): the CODE byte of a class 0x06 Shale entry of a region that R408 gives no item code, by
the region's row. -/
opaque integrityCode : Nat → BitVec 8

/-- FREE VALUE (notes/assumptions/5.md): the 24-bit DATA of a Shale entry whose DATA the spec leaves "—" (R424), by class. -/
opaque shaleData : Nat → BitVec 24

/-- FREE VALUE (notes/assumptions/6.md): the inductance in µH that IDENTIFY_MOTOR takes "from the change of current" (R328),
from the applied voltage in mV, the change of current in Q16.8 mA and the frame length in ticks. -/
opaque identInductance : Int → Int → Nat → Nat

/-- FREE VALUE (notes/assumptions/7.md): the low bits a register shows where the spec gives a value that it derives from
supplies the model holds no reading of: VDD in mV (R351). -/
opaque vddMillivolt : Nat → BitVec 16

/-- FREE VALUE (notes/assumptions/7.md): VSB in mV (R351). -/
opaque vsbMillivolt : Nat → BitVec 16

/-- FREE VALUE (notes/assumptions/8.md): the result of a division that the spec writes with a divisor that is 0
(R206, R232, R218 with no current), from the dividend. -/
opaque divByZero : Int → Int

/-- FREE VALUE (notes/assumptions/9.md): a fresh value for each use, indexed by the model's own counter. -/
opaque freeValue : Nat → Int

/-- FREE VALUE (notes/assumptions/10.md): the patch level of the NVM patch area (R316 item 4). -/
opaque patchLevel : BitVec 8

/-- FREE VALUE (notes/assumptions/11.md): the 2-bit level an AXIO pin left open reads at a snapshot (R455), by pin. -/
opaque openPinLevel : Nat → Bool

/-- FREE VALUE (notes/assumptions/31.md): byte `i` of the device-unique AES key as the decryption of R375 reads it while no
key has been loaded (R402). -/
opaque absentKey : Nat → BitVec 8

/-- FREE VALUE (notes/assumptions/100.md): the delay that the completion of a head reports which the governor delayed and which then
never started, so that it has no MS (R106, R323), by m_prog. -/
opaque heldDelay : Int → Nat

end Sys2Proof.Config
end

