-- ==== Sys2Proof/Machine/State.lean ====
section
/-! DEFINITION. The state of the block, all of it plain data, with its value right after reset.
Each field's comment gives what it is; its width; the rule and file that names it; where its reset value comes from. -/
namespace Sys2Proof.Machine
open Sys2Proof

/-- The completion statuses of R311. -/
inductive Status where
  | ok | stopped | flushed
  | rejectOpcode | rejectLength | rejectParam | rejectAxis | rejectOwner | rejectState | rejectKey
  | timeout | driveFault | stall | limit | homeLimit | swChatter | unplugged | safeOff | thermal | supply
  | integrityLost | busy
deriving DecidableEq, Repr

/-- Who is answered when a command or segment completes. -/
inductive CmdRef where
  /-- A packet of your host: its tag and queue (R300). -/
  | host (tag : BitVec 16) (queue : BitVec 4)
  /-- A side-band write command (R350). -/
  | sideband
  /-- Nobody: an action the module takes on its own. -/
  | internal
deriving DecidableEq, Repr

/-- The owner of an axis (R133). -/
inductive Owner where
  | host | sideband | localJog
deriving DecidableEq, Repr

/-- The plug state of an axis (R137, R329 item 0x07). -/
inductive PlugState where
  | unknown | plugged | unplugged | plugFault
deriving DecidableEq, Repr

/-- The protection retry states (R252, READ_AXIS item 0x1A). -/
inductive RetryState where
  | none | wait | check | energise | run | latch
deriving DecidableEq, Repr

/-- The life-cycle states (R400), coded as the LC field of R273. -/
inductive LifeCycle where
  | manufacture | field | service | retired
deriving DecidableEq, Repr

/-- The side-band power states (R342). -/
inductive SbPower where
  | standby | awake | active
deriving DecidableEq, Repr

/-- Where the module stands in its reset sequence (R381). -/
inductive Stage where
  /-- Fuse sensing runs: every signal pin is high-impedance (R393). -/
  | fuseSensing
  /-- The options load waits for an NVM pulse to end (R385). -/
  | nvmDeferral
  | optionsLoad
  /-- NRST has been released by the module and is not yet seen high. -/
  | nrstWait
  /-- RAM wipe and interpreter boot. -/
  | ramWipe
  /-- The post-reset sequence has completed (READY, SAFE_HOLD or RETIRED). -/
  | running
deriving DecidableEq, Repr

/-- Which part of a segment a phase belongs to (R79). -/
inductive Part where
  | head | body | tail
deriving DecidableEq, Repr

/-- One phase of a plan (R84): its coefficients, stored integers of R83, and its length in whole mc. -/
structure Phase where
  p0 : Int
  v0 : Int
  a0 : Int
  j : Int
  len : Nat
  part : Part
deriving DecidableEq, Repr

/-- The planning inputs of a segment, by type (R79, R322); stored integers of R83. -/
inductive SegKind where
  | moveAbs (target vmax ah at' : Int) (lj : Nat)
  | moveRel (distance vmax ah at' : Int) (lj : Nat)
  | velocity (vc ah at' : Int) (lj : Nat)
  | gear (g : Int) (w lgh lgt : Nat) (bidir : Bool)
  | dose (t vb vd dl a : Int)
  | hold (w : Nat) (timed : Bool)
  | home (positive : Bool) (timeout : Nat) (vf vs hacc hdec backOff offset : Int)
deriving DecidableEq, Repr

/-- The completion FLAGS of R301 that a segment gathers while it waits and runs. -/
structure SegFlags where
  accelClamped : Bool := false
  blendDropped : Bool := false
  headDelayed : Bool := false
  calForced : Bool := false
deriving DecidableEq, Repr

/-- A segment descriptor in the segment store (R73). -/
structure Segment where
  ref : CmdRef
  kind : SegKind
  overlap : Bool
  /-- DEADLINE of R63; none when the packet gave 0. -/
  deadline : Option (BitVec 32)
  /-- Declared start of R63; none when the packet gave 0. -/
  start : Option (BitVec 32)
  /-- BATCH; 0 none (R103). -/
  batch : BitVec 16
  flags : SegFlags
  /-- A snapshot has passed since the descriptor was written, so that it takes part in evaluation (R34). -/
  seen : Bool
  /-- It stood behind its predecessor before the snapshot at which that one's tail started (R100). -/
  blendOk : Bool
  /-- The descriptor has failed its memory check (R411). -/
  lost : Bool := false
deriving DecidableEq, Repr

/-- The legs of a HOME (R126); a `…Rest` state waits for the rest of R74. -/
inductive HomeStage where
  | notHome
  | fast | fastStop
  | backOffRest | backOff | backOffMove
  | slowRest | slow | slowStop
deriving DecidableEq, Repr

/-- A running segment: the descriptor with its start values and plan (R73–R76). -/
structure Run where
  seg : Segment
  /-- MS, signed Q48.16, of the bound master, or of M7 when `onM7` (R75, R93). -/
  ms : Int
  ps : Int
  vs : Int
  phases : List Phase
  /-- PT: the position set when the last phase ends; none for GEAR and VELOCITY (R77, R88). -/
  target : Option Int
  /-- The cruise has no end (VELOCITY, R79). -/
  unbounded : Bool
  /-- Measured on M7 whatever the axis is bound to: a TIMED HOLD (R93). -/
  onM7 : Bool
  /-- The status decided while the segment still moves, with its WORD and MPOS (R238). -/
  decided : Option (Status × Option Word)
  /-- The delay of R106. -/
  delay : Nat
  home : HomeStage
  /-- p_cap of R126. -/
  pCap : Int
  /-- The bound master's position at the SLOW capture (R323). -/
  capM : Int
  /-- The HOME timeout as a master position (R63, R131). -/
  timeoutAt : Option (BitVec 32)
  /-- m_prog has reached the tail start T while the segment ran by its own phases (R100, R104). -/
  tailSeen : Bool
  /-- Its blended successor has ended before it, and its coefficients carry that one's travel (R100, R102). -/
  blended : Bool := false
deriving DecidableEq, Repr

/-- A stopping tail that ends every running segment of an axis, or its jog (R96, R97, R134). -/
structure StopMotion where
  ms : Int
  ps : Int
  phases : List Phase
  /-- A quick stop, measured on M7 (R97), or a jog's stop (R134), also on M7. -/
  onM7 : Bool
  quick : Bool
  /-- The tail was shortened (R96): ACCEL_CLAMPED. -/
  clamped : Bool
  /-- The command whose stop it is (R96), by its action number. -/
  byAct : Option Nat
  /-- The tick of the boundary at whose snapshot the stop was decided, so that later events of that frame find it (R132). -/
  tick : Nat := 0
deriving DecidableEq, Repr

/-- A running jog (R134); `phases` is its head, `cruise` its signed speed. -/
structure Jog where
  positive : Bool
  ms : Int
  ps : Int
  phases : List Phase
  cruise : Int
deriving DecidableEq, Repr

/-- How the last segment or jog of an axis ended, for R74 and R75. -/
structure LastEnd where
  /-- E in the bound master; none when it was measured on M7 (R77). -/
  e : Option Int
  /-- Direction of its last motion: −1, 0 or 1 (R81). -/
  dir : Int
  /-- Snapshots that have passed since the one at which it ended (R74). -/
  snaps : Nat
  /-- It was a segment measured on M7 while the axis was bound to another master (R75, R77). -/
  onM7 : Bool := false
  /-- Where its successor by R100 may start when the tail start passed within the frame of the end (R100, R102). -/
  blendAt : Option Int := none
deriving DecidableEq, Repr

/-- Settings of an axis written by CONFIG_AXIS and the axis block (R144, R159, R165, R223, R317). -/
structure AxisCfg where
  /-- MODE: SETPOINT when true; 1 bit; R317 (12); reset R317. -/
  setpoint : Bool := false
  /-- FSPR; u16; R165 (05); reset R317. -/
  fspr : Nat := 200
  /-- CPRM; u32; R165 (05); reset R317. -/
  cprm : Nat := 0
  /-- KPP; Q8.8; R167 (05); reset R317. -/
  kpp : Nat := 0x0400
  /-- KIP; Q8.8; R167 (05); reset R317. -/
  kip : Nat := 0
  /-- KDP; Q8.8; R167 (05); reset R317. -/
  kdp : Nat := 0x1000
  /-- TSEL; 2 bits; R139 (05); reset R139. -/
  tsel : Fin 4 := 0
  /-- LA_EN; 1 bit; R144 (05); reset R144. -/
  laEn : Bool := false
  /-- ISLEW, mA per frame; u8; R144 (05); reset R144. -/
  islew : Nat := 4
  /-- LA_DOWN, mA per frame; u8; R144 (05); reset R144. -/
  laDown : Nat := 1
  /-- IRUN SET, mA; u16; R144, R522 (05, 20); reset R522. -/
  irun : BitVec 16 := 1000
  /-- IHOLD SET, mA; u16; R144, R522; reset R522. -/
  ihold : BitVec 16 := 500
  /-- IBOOST SET, mA; u16; R144, R522; reset R522. -/
  iboost : BitVec 16 := 0
  /-- IMIN SET, mA; u16; R144, R522; reset R522. -/
  imin : BitVec 16 := 300
  /-- TBOOST, ms; u16; R144 (05); reset R144. -/
  tboost : Nat := 200
  /-- TSTAND, ms; u16; R144 (05); reset R144. -/
  tstand : Nat := 500
  /-- RLIVE; 1 bit; R218 (07); reset R218. -/
  rlive : Bool := true
  /-- KP, mΩ; u20; R159 (05); reset R159. -/
  kp : Nat := 20000
  /-- KI, mΩ per frame; u16; R159 (05); reset R159. -/
  ki : Nat := 200
  /-- RCOIL, mΩ; u17; R159, R218 (05, 07); reset R159. -/
  rcoil : Nat := 1000
  /-- LCOIL, µH; u17; R159 (05); reset R159. -/
  lcoil : Nat := 2000
  /-- OBS_K; 3 bits; R223, R523 (08, 20); reset R523. -/
  obsK : BitVec 3 := 2
  /-- FINJ, electrical Hz; 9 bits; R223, R523; reset R523. -/
  finj : BitVec 9 := 50
  /-- UINJ, mV; 12 bits; R223, R523; reset R523. -/
  uinj : BitVec 12 := 2000
  /-- KE, Q16.8 mV/Hz; u24; R223, R232 (08); reset R223. -/
  ke : Nat := 0
  /-- DMAX; 14 bits; R223, R523; reset R523. -/
  dmax : BitVec 14 := 15474
  /-- REACT; 2 bits; R223, R523; reset R523. -/
  react : BitVec 2 := 1
  /-- STALL_N, frames; 8 bits; R223, R523; reset R523. -/
  stallN : BitVec 8 := 4
  /-- EMINP, %; 7 bits; R223, R523; reset R523. -/
  eminp : BitVec 7 := 40
  /-- SL_EN; 1 bit; R223, R523; reset R523. -/
  slEn : Bool := true
  /-- DEV_WIN, µsteps; 20 bits; R223, R521; reset R521. -/
  devWin : BitVec 20 := 512
  /-- JOG_EN; 1 bit; R317 (12); reset R317. -/
  jogEn : Bool := false
  /-- PLUG_EN; 1 bit; R136, R317; reset R317. -/
  plugEn : Bool := false
  /-- QSDEC; s64 Q16.48; R317 (12); reset R317. -/
  qsdec : Int := 2 ^ 36
  /-- JOGV; s64 Q24.40 per µs; R317 (12); reset R317. -/
  jogv : Int := 2 ^ 33
  /-- JOGA; s64 Q16.48 per µs²; R317 (12); reset R317. -/
  joga : Int := 2 ^ 28
  /-- PC, compare point; s64 Q40.24; R122, R317; reset R317. -/
  pc : Int := 0
  /-- PCI, compare interval; 64 bits Q40.24; R122, R317; reset R317. -/
  pci : Int := 0
deriving DecidableEq, Repr

/-- Position, segments, stop and jog of an axis (03_motion_segments.md, 04_axio_homing.md). -/
structure AxisMotion where
  /-- Bound master; 3 bits; R36 (02); reset R36. -/
  master : MasterId := 7
  /-- m_prog; s64 Q48.16; R49 (02); reset R383 with the masters at 0. -/
  mProg : Int := 0
  /-- m_prog at the snapshot before; s64 Q48.16; R75 (03); reset R383 with the masters at 0. -/
  mProgPrev : Int := 0
  /-- Evaluated position p; s64 Q40.24; R83, R520 (03, 20); reset R520. -/
  pos : Int := 0
  /-- Evaluated velocity; s64 Q24.40; R83, R520; reset R520. -/
  vel : Int := 0
  /-- Output position; s64 Q40.24; R107 (03); reset R520. -/
  out : Int := 0
  /-- Output positions of the last four frames, newest first; R224 (08); reset DESIGN CHOICE log 1. -/
  outHist : List Int := []
  /-- POFF; s64 Q40.24; R142 (05); reset R142. -/
  poff : Int := 0
  /-- EOFF; s64 Q40.24; R165, R166 (05); reset DESIGN CHOICE log 1. -/
  eoff : Int := 0
  /-- Queued segment descriptors, at most 16 with the running ones; R71 (03); reset R383. -/
  queue : List Segment := []
  /-- Running segments, older first, at most two; R72 (03); reset R383. -/
  runs : List Run := []
  /-- The stop in progress; R96, R97 (03); reset R383. -/
  stop : Option StopMotion := none
  /-- The running jog; R134 (04); reset R383. -/
  jog : Option Jog := none
  /-- A held button must be released before a new jog; R134, R135 (04); reset R383. -/
  jogBlocked : Bool := false
  /-- The end of the last segment or jog; R74, R75 (03); reset R383. -/
  lastEnd : Option LastEnd := none
  /-- Direction of the last commanded motion: −1, 0 or 1; R114 (04); reset DESIGN CHOICE log 1. -/
  way : Int := 0
  /-- While a retry holds the axis: m_prog and the M7 position at the classifying snapshot; R253 (09); reset R383. -/
  held : Option (Int × Int) := none
  /-- OVERSPEED; 1 bit; R107 (03); reset R519. -/
  overspeed : Bool := false
  /-- MOVING in the last frame; 1 bit; R146 (05); reset R519. -/
  moving : Bool := false
  /-- POSITION_UNSURE; 1 bit; R239 (08); reset R519. -/
  unsure : Bool := false
deriving DecidableEq, Repr

/-- The amplitude selection of an axis (R147–R149); times in PWM ticks of M7. -/
structure AmpState where
  /-- Selected amplitude, mA; u16; R147 (05); reset R150. -/
  amp : Nat := 0
  /-- Its target, mA; u16; R147 (05); reset R150. -/
  target : Nat := 0
  /-- Load-adaptive value la, mA; u16; R149 (05); reset DESIGN CHOICE log 1. -/
  la : Nat := 0
  /-- Boost armed; 1 bit; R148 (05); reset DESIGN CHOICE log 1. -/
  armed : Bool := false
  /-- Boost time in ticks; Nat; R148 (05); reset DESIGN CHOICE log 1. -/
  boostT : Nat := 0
  /-- The running head began while boost was disarmed; 1 bit; R148 (05); reset DESIGN CHOICE log 1. -/
  headOff : Bool := false
  /-- Time without boost since it was disarmed, ticks; Nat; R148 (05); reset DESIGN CHOICE log 1. -/
  noBoostT : Nat := 0
  /-- Standstill time in ticks; Nat; R146 (05); reset DESIGN CHOICE log 1. -/
  idleT : Nat := 0
deriving DecidableEq, Repr

/-- What drives the coils of an axis (05_current_control.md, 09_power_stage.md). -/
structure AxisDrive where
  /-- ENABLED; 1 bit; R519 (20); reset R383. -/
  enabled : Bool := false
  /-- The legs of the axis are energised by Mica; 1 bit; R150 (05); reset R23. -/
  energised : Bool := false
  /-- ENABLE waits for its completion; R325 (12); reset R383. -/
  enabling : Bool := false
  /-- A DISABLE is in progress; R548 (12); reset R383. -/
  disabling : Bool := false
  /-- The brake output is active (released); 1 bit; R121 (04); reset R121. -/
  brake : Bool := false
  /-- The axis was turned off and its legs go high-impedance at the next boundary; R121, R237, R260 (04, 08, 09); reset R383. -/
  offPend : Bool := false
  /-- A brake delay runs; R121 (04); reset R383. -/
  brakeWait : Bool := false
  /-- PWM ticks for which ENABLE has held the axis while its brake delay runs; R121 (04); reset DESIGN CHOICE log 1. -/
  brakeT : Nat := 0
  /-- Frames since ENABLE; Nat; R231 (08); reset DESIGN CHOICE log 1. -/
  framesOn : Nat := 0
  /-- Amplitude state after the last selection; R147 (05). -/
  sel : AmpState := {}
  /-- Amplitude state before the last selection, so that a segment starting at the same snapshot selects again; model's own. -/
  selPrev : AmpState := {}
  /-- A head starts at the present snapshot; 1 bit; R149 (05); reset R383. -/
  headNew : Bool := false
  /-- The axis was in a head in the last frame; R146 (05); reset DESIGN CHOICE log 1. -/
  inHead : Bool := false
  /-- Table angle th of the last frame; u16; R142 (05); reset DESIGN CHOICE log 1. -/
  th : Nat := 0
  /-- ra and rb of the last frame; s18; R142 (05); reset DESIGN CHOICE log 1. -/
  ra : Int := 0
  rb : Int := 0
  /-- Set-points ia and ib of the last frame's step 5; s32 Q16.8 mA; R143 (05); reset DESIGN CHOICE log 1. -/
  ia : Int := 0
  ib : Int := 0
  /-- Set-points that the loops of the last frame used; s32 Q16.8 mA; R156 (05); reset DESIGN CHOICE log 1. -/
  iaUsed : Int := 0
  ibUsed : Int := 0
  /-- A STOP_ALL mark: the loops use this frame's set-point; R306 (11); reset R383. -/
  sameFrame : Bool := false
  /-- VOLTAGE_LIMITED of the last frame; 1 bit; R158 (05); reset R519. -/
  limited : Bool := false
  /-- SENSE_SAT of the last frame; 1 bit; R153 (05); reset R519. -/
  senseSat : Bool := false
  /-- gboost and ghold of the governor, mA; u16; R443 (17); reset DESIGN CHOICE log 1. -/
  gboost : Nat := 0
  ghold : Nat := 0
deriving DecidableEq, Repr

/-- What the position loop carries from frame to frame (R167). -/
structure LoopState where
  /-- Integral term ip; s64; R167 (05); reset DESIGN CHOICE log 1. -/
  ip : Int := 0
  /-- ep of the previous frame; s32 Q24.8; R167 (05); reset DESIGN CHOICE log 1. -/
  ep : Int := 0
  /-- Torque current τ; mA; R167 (05); reset DESIGN CHOICE log 1. -/
  tau : Int := 0
  /-- τ was limited in the last frame; R167 (05); reset DESIGN CHOICE log 1. -/
  limited : Bool := false
deriving DecidableEq, Repr

/-- The encoder of an axis and its position loop (R114, R165–R169). -/
structure AxisEnc where
  /-- Encoder count; s48; R114, R165 (04, 05); reset R520. -/
  count : Int := 0
  /-- The count latched at the last snapshot; s48; R59, R505, R520 (02, 20); reset R520. -/
  snap : Int := 0
  /-- Level of quadrature A and B as filtered; R114 (04); reset DESIGN CHOICE log 1. -/
  a : Bool := false
  b : Bool := false
  /-- The position loop is closed; R166 (05); reset R383. -/
  closed : Bool := false
  /-- After ENC_ERR the axis runs as in MICROSTEP mode; R169 (05); reset R383. -/
  fallback : Bool := false
  /-- The encoder criterion is armed; R234 (08); reset R383. -/
  armed : Bool := false
  /-- ENC_ERR has disarmed the encoder criterion until the next ENABLE; R234 (08); reset R383. -/
  disarmed : Bool := false
  /-- The position loop after the last frame; R167 (05). -/
  loop : LoopState := {}
  /-- The position loop before the last frame, so that a change at the same snapshot runs it again; model's own. -/
  loopPrev : LoopState := {}
  /-- ENC_ERR; W1C; R169, R519 (05, 20); reset R519. -/
  err : Bool := false
deriving DecidableEq, Repr

/-- A stall capture (R235). -/
structure StallCapture where
  mpos : Int := 0
  frame : BitVec 64 := 0
  pout : Int := 0
  delta : Int := 0
  efMag : Nat := 0
  critA : Bool := false
  critB : Bool := false
  critEnc : Bool := false
deriving DecidableEq, Repr

/-- The injection that one frame's loops add to the coil voltages (R228, R229). -/
structure InjFrame where
  /-- The sign s; R228 (08). -/
  sign : Int
  /-- Place of the frame in its injection period of four; R228, R230 (08). -/
  phase : Nat
  /-- ra and rb of R142 for the frame; R228 (08). -/
  ra : Int
  rb : Int
  /-- The period of the injection reference it belongs to, 0 to 63; R229 (08). -/
  ref : Option Nat
deriving DecidableEq, Repr

/-- The load-angle observer of an axis (08_stall.md). -/
structure AxisObs where
  /-- fel; s32 Q24.8 Hz; R224 (08); reset DESIGN CHOICE log 1. -/
  fel : Int := 0
  /-- Sign of the last non-zero fel since ENABLE; R224 (08); reset R224. -/
  sdir : Int := 1
  /-- Load angle δ; s16; R226, R230 (08); reset DESIGN CHOICE log 1. -/
  delta : Int := 0
  /-- |ef|, mV; R225 (08); reset R225. -/
  efMag : Nat := 0
  /-- obs_valid; 1 bit; R231 (08); reset R519. -/
  valid : Bool := false
  /-- The axis is in the injection regime; R227 (08); reset DESIGN CHOICE log 1. -/
  injRegime : Bool := false
  /-- The injection in the voltage of the frame to come, of the running frame (INJ_ON while there is one), and of the frame that ended;
  R227, R228 (08); reset R519. -/
  injNext : Option InjFrame := none
  inj : Option InjFrame := none
  injDone : Option InjFrame := none
  /-- Frames since the regime changed; R227, R233 (08); reset DESIGN CHOICE log 1. -/
  regimeFrames : Nat := 0
  /-- Injection periods demodulated since entry; R227 (08); reset DESIGN CHOICE log 1. -/
  periods : Nat := 0
  /-- Consecutive frames with a usable sample of both coils, to 4; R231 (08); reset DESIGN CHOICE log 1. -/
  usableRun : Nat := 0
  /-- Frames of the current injection period summed so far; R230 (08); reset DESIGN CHOICE log 1. -/
  periodLen : Nat := 0
  /-- Sums da and db of the current period; s32; R230 (08); reset DESIGN CHOICE log 1. -/
  da : Int := 0
  db : Int := 0
  /-- ra and rb of the period's first frame; R230 (08); reset DESIGN CHOICE log 1. -/
  ra0 : Int := 0
  rb0 : Int := 0
  /-- The last draw of R230 and whether a wrap was seen; R230 (08); reset DESIGN CHOICE log 1. -/
  draw : Int := 0
  wrapped : Bool := false
  /-- An injection reference runs or waits for its end; R229 (08); reset DESIGN CHOICE log 1. -/
  refRun : Bool := false
  /-- Frames of the injection reference still to inject, and still to demodulate; R229 (08); reset DESIGN CHOICE log 1. -/
  refOut : Nat := 0
  refLeft : Nat := 0
  /-- Sums of dpar and dperp over the two halves of the reference; R229 (08); reset DESIGN CHOICE log 1. -/
  refPar : Int := 0
  refPerp : Int := 0
  /-- The reference is complete; R229, R231 (08); reset R229. -/
  refDone : Bool := false
  /-- ym and dy; R229 (08); reset DESIGN CHOICE log 1. -/
  ym : Int := 0
  dy : Int := 0
  /-- INJ_WEAK; 1 bit; R229, R519; reset R519. -/
  injWeak : Bool := false
  /-- KE learning runs, with its sums and frame count; R232 (08); reset R223 (KE 0 learns). -/
  keLearning : Bool := true
  keSumE : Nat := 0
  keSumF : Nat := 0
  keCount : Nat := 0
  /-- Consecutive frames meeting a stall criterion; R235 (08); reset DESIGN CHOICE log 1. -/
  stallRun : Nat := 0
  /-- The run has already declared a stall; R235 (08); reset R235. -/
  stallDone : Bool := false
  /-- The criteria the last frame met; R233, R234 (08); reset DESIGN CHOICE log 1. -/
  critA : Bool := false
  critB : Bool := false
  critEnc : Bool := false
  /-- STALL flag; W1C; R235, R519; reset R519. -/
  stall : Bool := false
  /-- The stall capture; R235 (08); reset R329 (reads 0). -/
  capture : StallCapture := {}
  /-- Boundary count of the last STALL Shale entry; R235 (08); reset R235. -/
  shaleFrame : Option Nat := none
deriving DecidableEq, Repr

/-- RCOIL window sums of an axis (R218). -/
structure RWindow where
  frames : Nat := 0
  valid : Bool := true
  su : Int := 0
  si : Nat := 0
deriving DecidableEq, Repr

/-- A running IDENTIFY_MOTOR (R328). -/
structure IdentState where
  ref : CmdRef
  itest : Nat
  wgain : Bool
  /-- Frames run so far, of 300. -/
  frame : Nat
  suA : Int
  siA : Nat
  suB : Int
  siB : Nat
  /-- Currents at the start of each inductance step. -/
  i0A : Int
  i0B : Int
  diA : Int
  diB : Int
  /-- Amplitude to restore. -/
  amp : Nat
deriving DecidableEq, Repr

/-- Protection, diagnosis, plug sense, ownership and latched read-out of an axis. -/
structure AxisProt where
  /-- Retry state; 3 bits; R252, R329 item 0x1A (09, 12); reset R383. -/
  retry : RetryState := .none
  /-- Try counter; u8; R252 (09); reset R383. -/
  tries : Nat := 0
  /-- Retry waits together with this axis (an OUT_SHORT of two axes); R252 (09); reset R383. -/
  partner : Option AxisId := none
  /-- The axis's own WAIT has ended, while that of its partner goes on; R251 (09); reset R383. -/
  waitDone : Bool := false
  /-- The last classification code, its first tripped leg and whether a hard short tripped; R254 (09); reset R383. -/
  cls : Nat := 0
  firstLeg : Nat := 0
  hard : Bool := false
  /-- DRIVE_FAULT latch; 1 bit; R254, R519; reset R519. -/
  latched : Bool := false
  /-- DIAG_FAIL; 1 bit; R247, R519; reset R519. -/
  diagFail : Bool := false
  /-- Gang lead awaits an OK DIAGNOSE before ENABLE; R33 (01); reset R383. -/
  gangUntested : Bool := false
  /-- Verdict mask of the last DIAGNOSE; 16 bits; R246 (09); reset R329 (0). -/
  verdict : BitVec 16 := 0
  /-- Coil resistances of the last probe or DIAGNOSE, mΩ; R329 (12); reset DESIGN CHOICE log 1. -/
  ra : Nat := 0
  rb : Nat := 0
  /-- Consecutive checked frames of unequal sharing, coil A and B; R164 (05); reset R383. -/
  shareA : Nat := 0
  shareB : Nat := 0
  /-- SHARE_ERR; 1 bit; R164, R519; reset R519. -/
  shareErr : Bool := false
  /-- RES_SUSPECT; 1 bit; R219, R519; reset R519. -/
  resSuspect : Bool := false
  /-- Plug state; 2 bits; R137, R524; reset R524. -/
  plug : PlugState := .unknown
  /-- Verdict of the last probe, for two in succession; R137 (04); reset DESIGN CHOICE log 1. -/
  probe : PlugState := .unknown
  /-- PLUG_CHG; W1C; R137, R519; reset R519. -/
  plugChg : Bool := false
  /-- OWN_CHG; W1C; R133, R519; reset R519. -/
  ownChg : Bool := false
  /-- Owner; 2 bits; R133, R524; reset R133. -/
  owner : Owner := .host
  /-- RCOIL window; R218 (07); reset DESIGN CHOICE log 1. -/
  rwin : RWindow := {}
  /-- A running IDENTIFY_MOTOR; R328 (12); reset R383. -/
  ident : Option IdentState := none
  /-- The set latched by READ_AXIS, items 0x00–0x1B; 28 words; R329 (12); reset R329. -/
  latchSet : Vector Word 28 := Vector.replicate 28 0
  /-- OR-ed parity fault of an axis-scope word; R414 (16); reset DESIGN CHOICE log 1. -/
  parity : Bool := false
deriving DecidableEq, Repr

/-- One axis. -/
structure Axis where
  cfg : AxisCfg := {}
  mot : AxisMotion := {}
  drv : AxisDrive := {}
  enc : AxisEnc := {}
  obs : AxisObs := {}
  prot : AxisProt := {}
deriving DecidableEq, Repr

/-- One coil's regulator (R154–R160) and placement (R188). -/
structure Coil where
  /-- imeas of the frame, and of the frame before; s32 Q16.8 mA; R154 (05); reset DESIGN CHOICE log 1. -/
  imeas : Int := 0
  imeasPrev : Int := 0
  /-- Combined samples x of the last four frames, newest first; R154, R230 (05, 08); reset DESIGN CHOICE log 1. -/
  xs : List Int := []
  /-- The frame had a usable sample, and the frame before; R231 (08); reset DESIGN CHOICE log 1. -/
  usable : Bool := false
  usablePrev : Bool := false
  /-- The plan leaves the pulse-centre and the gap-centre instant usable by rules 1 and 3; R153, R186 (05, 06); reset DESIGN CHOICE log 1. -/
  winP : Bool := false
  winG : Bool := false
  /-- Integrator; s32 in 1/256 mV; R157 (05); reset R150. -/
  integ : Int := 0
  /-- clipped_prev and clip_dir_prev; R157 (05); reset DESIGN CHOICE log 1. -/
  clipped : Bool := false
  clipDir : Int := 0
  /-- Coil voltage u computed last and the one before; mV; R157, R259 (05, 09); reset DESIGN CHOICE log 1. -/
  u : Int := 0
  uPrev : Int := 0
  /-- Applied voltage of the frame and the one before; mV; R161 (05); reset DESIGN CHOICE log 1. -/
  ua : Int := 0
  uaPrev : Int := 0
  /-- Injection voltage in u for the next frame, of the frame, and of the one before; mV; R228 (08); reset DESIGN CHOICE log 1. -/
  uinjNext : Int := 0
  uinj : Int := 0
  uinjPrev : Int := 0
  /-- Back-EMF estimate ef; s32 mV; R225 (08); reset R225. -/
  ef : Int := 0
  /-- Consecutive frames without a usable sample; R155 (05); reset DESIGN CHOICE log 1. -/
  lost : Nat := 0
  /-- SAMPLE_LOST of the coil; R155 (05); reset R519. -/
  sampleLost : Bool := false
  /-- Consecutive frames meeting the open condition; R259 (09); reset DESIGN CHOICE log 1. -/
  openRun : Nat := 0
  /-- Consecutive frames with a zero set-point, both legs at 0 % and no injection; R209 (07); reset DESIGN CHOICE log 1. -/
  zeroRun : Nat := 0
  /-- The modulated leg of the plan, and of the current frame, is the minus leg; R160, R182 (05, 06); reset DESIGN CHOICE log 1. -/
  minus : Bool := false
  minusCur : Bool := false
  /-- Grid position of the plan, and of the current frame, none when the coil is not placed; 5 bits; R184, R188 (06); reset DESIGN CHOICE log 1. -/
  k : Option Nat := none
  kCur : Option Nat := none
deriving DecidableEq, Repr

/-- One leg: edge words, carry and calibration (06_pwm_mica.md, 07_quartz_calibration.md). -/
structure Leg where
  /-- Active pair ON, OFF; 20 bits each; R170, R171 (06); reset R171. -/
  on : BitVec 20 := 0
  off : BitVec 20 := 0
  /-- HEN of the active pair; 1 bit; R171 (06); reset R171. -/
  hen : Bool := false
  /-- Shadow pair; R171 (06); reset R171. -/
  onS : BitVec 20 := 0
  offS : BitVec 20 := 0
  henS : Bool := false
  /-- The shadow pair is committed for the next boundary; R176 (06); reset R383. -/
  committed : Bool := false
  /-- COMMIT bit of a host-driven leg, and whether its transfer waits one boundary more; R194 (06); reset R514. -/
  commitBit : Bool := false
  commitLate : Bool := false
  /-- Tail inherited from the previous frame, in sixteenths; R173 (06); reset R178. -/
  tail : Nat := 0
  /-- Carry accumulator cy in effect, and the one committed with the shadow pair; s32 sixteenths; R181 (06); reset DESIGN CHOICE log 1. -/
  carry : Int := 0
  carryS : Int := 0
  /-- Applied high time of the frame, sixteenths; R175 (06); reset DESIGN CHOICE log 1. -/
  high : Nat := 0
  /-- Time from the leg's last edge to the boundary that began the running frame, sixteenths; R185 (06); reset DESIGN CHOICE log 1. -/
  e0 : Nat := 128000
  /-- PULSE is high at the end of the running frame; R174 (06); reset R178. -/
  endHigh : Bool := false
  /-- Edges of PULSE in the running frame, rising first or not as the level demands; R174 (06); reset R178. -/
  edges : List Nat := []
  /-- A postponed edge of a host-driven leg that falls in the next frame, from its boundary; R196 (06); reset R178. -/
  owed : Option Nat := none
  /-- EN line; 1 bit; R14, R23 (01); reset R23. -/
  en : Bool := false
  /-- The leg is held off by the interlock (HB_INTLK); R258 (09); reset R509. -/
  intlk : Bool := false
  /-- Both HB_DIRECT bits of the leg were 1 and have not yet been written 0; R258 (09); reset R513. -/
  intlkHold : Bool := false
  /-- The leg was turned off by a comparator trip; R250 (09); reset R383. -/
  tripped : Bool := false
  /-- Missed-commit counter; 16 bits; R60, R516; reset R516. -/
  miss : BitVec 16 := 0
  /-- Sense offset os, 1/16 LSB; s16; R197 (07); reset log 12. -/
  os : Int := 0
  /-- Sense gain gs, Q2.14; u15; R197 (07); reset log 12. -/
  gs : Nat := 16384
  /-- Targets of os and gs; R208, R210 (07); reset DESIGN CHOICE log 1. -/
  osTarget : Option Int := none
  gsTarget : Option Nat := none
  /-- Latest high-impedance reference z_hiz; R208 (07); reset R209 (none since reset). -/
  zhiz : Option Int := none
  /-- Ring of live zero samples; R209 (07); reset R209. -/
  zring : List Int := []
  /-- PWM ticks since EN went low, saturating at 1 ms; R208 (07); reset DESIGN CHOICE log 1. -/
  offTicks : Nat := 0
  /-- PWM ticks since its test current source was last on, saturating at 1 ms; R208 (07); reset DESIGN CHOICE log 1. -/
  testTicks : Nat := 0
  /-- EN rose in the running frame, so that the dead time runs from there; R14 (01); reset DESIGN CHOICE log 1. -/
  enNew : Bool := false
deriving DecidableEq, Repr

/-- One current-sense converter's calibration (R205–R217). -/
structure Adc where
  /-- oa, 1/16 LSB; s16; R197 (07); reset log 12. -/
  oa : Int := 0
  /-- ga, Q2.14; u15; R197 (07); reset log 12. -/
  ga : Nat := 16384
  oaTarget : Option Int := none
  gaTarget : Option Nat := none
  /-- Cycle counter u; R205 (07); reset DESIGN CHOICE log 1. -/
  cycle : Nat := 0
  /-- Rings of the zero, positive and negative references, newest first; R205 (07); reset R207. -/
  zero : List Int := []
  plus : List Int := []
  neg : List Int := []
  /-- The calibration slot of the running frame, and of the plan: grid position, or none; R192 (06); reset DESIGN CHOICE log 1. -/
  slot : Option Nat := none
  slotPlan : Option Nat := none
  /-- A forced slot of the running frame, and of the plan: the coil that gives its later instant; R215 (07); reset DESIGN CHOICE log 1. -/
  forced : Option CoilId := none
  forcedPlan : Option CoilId := none
  /-- Frames without a slot, 4,097 once it stood at 4,096 before the last placement; R215 (07); reset DESIGN CHOICE log 1. -/
  noSlot : Nat := 0
  /-- The next leg of the sense-offset scan; R208 (07); reset DESIGN CHOICE log 1. -/
  nextLeg : Nat := 0
  /-- CAL_FORCED, CAL_STARVED, CAL_RANGE; R221, R511; reset R511. -/
  calForced : Bool := false
  calStarved : Bool := false
  calRange : Bool := false
  /-- A leg of the ADC had its gs_target clipped; R210 (07); reset R511. -/
  gsRange : Bool := false
  /-- Boundary count of the last CAL_FORCED Shale entry; R216 (07); reset R216. -/
  shaleFrame : Option Nat := none
deriving DecidableEq, Repr

/-- A comparator trip waiting for its classification (R250, R251). -/
structure Trip where
  leg : LegId
  highSide : Bool
  hardShort : Bool
  t : Nat
deriving DecidableEq, Repr

/-- One group die and its sequencer (20_registers_group.md). -/
structure Group where
  /-- Gang mode of pair (4g, 4g+1): LEAD01; R33, R507; reset R507. -/
  gang01 : Bool := false
  /-- Gang mode of pair (4g+2, 4g+3): LEAD23; R33, R507; reset R507. -/
  gang23 : Bool := false
  /-- HOSTEDGE as written, and in force; R193, R507; reset R507. -/
  hostedge : Bool := false
  hostDriven : Bool := false
  /-- QUIET_LOST; 8 bits W1C; R190, R508; reset R508. -/
  quietLost : BitVec 8 := 0
  /-- TSEP_VIOL; W1C; R190, R508; reset R508. -/
  tsepViol : Bool := false
  /-- EDGE_GUARD; W1C; R196, R508; reset R508. -/
  edgeGuard : Bool := false
  /-- Active lock-outs VGD, VCP, VM under, VM over; R241 (09); reset log 13. -/
  lockout : BitVec 4 := 0
  /-- SUPPLY_HOLD; R242, R508; reset log 13. -/
  supplyHold : Bool := false
  /-- TLEVEL, and the WARN and HEAD_HOLD states; R442, R508; reset R508. -/
  tlevel : Nat := 0
  warn : Bool := false
  headHold : Bool := false
  /-- THERM_SD; R445, R508; reset R508. -/
  thermSd : Bool := false
  /-- Sticky lock-out and classification flags, GRP_FAULT bits 16–23; W1C; R509; reset R509. -/
  faults : BitVec 8 := 0
  /-- LINK; R17, R509; reset R509. -/
  link : Bool := false
  /-- THERM_SD sticky copy; W1C; R445, R509; reset R509. -/
  thermSticky : Bool := false
  /-- PAR; R414, R509; reset R509. -/
  par : Bool := false
  /-- DT as written and in force; 6 bits; R179, R510; reset R510. -/
  dt : BitVec 6 := 5
  dtEff : BitVec 6 := 5
  /-- TBL as written and in force; 5 bits; R249, R510; reset R510. -/
  tbl : BitVec 5 := 4
  tblEff : BitVec 5 := 4
  /-- OCT as written and in force; 6 bits; R249, R510; reset R510. -/
  oct : BitVec 6 := 24
  octEff : BitVec 6 := 24
  /-- TRW as written and in force, ms; 8 bits; R249, R510; reset R510. -/
  trw : BitVec 8 := 10
  trwEff : BitVec 8 := 10
  /-- TRN as written and in force; 4 bits; R249, R510; reset R510. -/
  trn : BitVec 4 := 3
  trnEff : BitVec 4 := 3
  /-- TEMP, signed 0.125 °C; s16; R512; reset R512. -/
  temp : BitVec 16 := 0
  /-- VM_MON, mV; 17 bits; R512; reset R512. -/
  vm : BitVec 17 := 0
  /-- HB_DIRECT; 32 bits; R257, R513; reset R513. -/
  hbDirect : Word := 0
  /-- Trips of the running frame; R250 (09); reset R383. -/
  trips : List Trip := []
  /-- DIAGNOSE running and waiting, axis and action; R244 (09); reset R383. -/
  diag : Option (AxisId × Nat) := none
  diagQueue : List (AxisId × Nat) := []
  /-- Code table tap[0..15]; u7 each; R200 (07); reset log 12. -/
  taps : List Nat := [0, 3, 6, 9, 12, 15, 18, 21, 24, 27, 30, 33, 36, 39, 42, 45]
  /-- A table computed in this frame, in force from the next boundary; R198 (07); reset DESIGN CHOICE log 1. -/
  tapsNext : Option (List Nat) := none
  /-- FINE_LOST; R202, R499; reset R499. -/
  fineLost : Bool := false
  /-- Consecutive valid measurements while FINE_LOST; R202 (07); reset DESIGN CHOICE log 1. -/
  fineGood : Nat := 0
  /-- Last replica sum S; R199 (07); reset DESIGN CHOICE log 1. -/
  lastS : Nat := 0
  /-- Samples the group link lost in this frame: local coil and which instant; R17 (01); reset R383. -/
  linkLost : List (Fin 8 × Bool) := []
  /-- Filtered loss pf, units of 2^-32 mW; s128; R441 (17); reset R441. -/
  pf : Int := 0
  /-- Loss pg of the frame, mW; R440 (17); reset DESIGN CHOICE log 1. -/
  pg : Int := 0
  /-- Group temperature tg, 0.125 °C; R441 (17); reset DESIGN CHOICE log 1. -/
  tg : Int := 0
  /-- A group reset runs: BLK_RST bit g; R398, R478; reset R478. -/
  resetting : Bool := false
  /-- The set latched by READ_GROUP; R329 (12); reset R329. -/
  latchSet : List Word := []
deriving DecidableEq, Repr

/-- An edge-counting master M0–M4 (R44). -/
structure EdgeMaster where
  /-- Integer count c; s48; R44 (02); reset R501. -/
  c : Int := 0
  /-- t_last; u64 timestamp ticks; R44 (02); reset DESIGN CHOICE log 1. -/
  tLast : Nat := 0
  /-- dir: forward when true; R44 (02); reset DESIGN CHOICE log 1. -/
  fwd : Bool := true
  /-- d; u32 timestamp ticks; R44 (02); reset DESIGN CHOICE log 1. -/
  d : Nat := 0
  /-- dvalid; R44 (02); reset DESIGN CHOICE log 1. -/
  dvalid : Bool := false
  /-- MSTILLn; R47, R473; reset R473. -/
  still : Bool := false
  /-- An edge has been accepted since the reset, so that t_last is one; 1 bit; R44 (02); reset R383. -/
  edged : Bool := false
deriving DecidableEq, Repr

/-- A computed master M5, M6 or M7 (R52–R54). -/
structure VirtMaster where
  /-- vbase; s64 Q48.16; R52 (02); reset R54. -/
  vbase : Int := 0
  /-- fbase; u64; R52 (02); reset R54. -/
  fbase : Nat := 0
  /-- r in force; s32 Q24.8; R52 (02); reset R496. -/
  rate : Int := 0
  /-- VMn_RATE as last written; 32 bits; R496; reset R496. -/
  reg : Word := 0
  /-- A written rate waits: RATE_PENDn; R53, R473; reset R473. -/
  pend : Bool := false
deriving DecidableEq, Repr

/-- A pending SYNC_EPOCH (R69). -/
structure Epoch where
  ref : CmdRef
  n : BitVec 64
  mask : BitVec 7
  /-- Frames waited so far. -/
  waited : Nat
deriving DecidableEq, Repr

/-- Frame timer, masters and synchronisation (02_master_time.md). -/
structure TimeBase where
  /-- Absolute PWM tick of the last boundary on the model's timeline; timestamp timer = tick / 2; R44 (02); reset DESIGN CHOICE log 1. -/
  tick : Nat := 0
  /-- Frame counter; 64 bits; R58; reset R58. -/
  frame : BitVec 64 := 0
  /-- Boundaries since the reset, which no epoch changes, for the limits of one Shale entry per 1,000 frames; Nat; R42, R216, R235,
  R417 (02, 07, 08, 16); reset R383. -/
  count : Nat := 0
  /-- FLEN as written, and in force; 3 bits; R56, R493; reset R493. -/
  flen : BitVec 3 := 3
  flenEff : BitVec 3 := 3
  /-- M0–M4; R44 (02). -/
  edge : Vector EdgeMaster 5 := Vector.replicate 5 {}
  /-- M5 and M6; R52 (02). -/
  virt : Vector VirtMaster 2 := Vector.replicate 2 {}
  /-- M7; R54 (02); reset R54. -/
  m7 : VirtMaster := { rate := 256000000 }
  /-- Snapshot positions of M0–M7; s64 Q48.16; R39, R501; reset R501. -/
  snap : Vector Int 8 := Vector.replicate 8 0
  /-- Presets waiting for the next boundary, integer counts; R40 (02); reset R383. -/
  preset : Vector (Option Int) 8 := Vector.replicate 8 none
  /-- MSA and MSB as filtered; R42 (02); reset log 14. -/
  msa : Bool := false
  msb : Bool := false
  /-- The recorded index count, none before the first; R43 (02); reset R43. -/
  index : Option Int := none
  /-- Boundary count of the last QUAD_ERR Shale entry; R42 (02); reset R42. -/
  quadFrame : Option Nat := none
  /-- Capture records of MSZ and AXIO capture pins: source pin (96 = MSZ), raw time, frame, position; R55 (02); reset DESIGN CHOICE log 1. -/
  captures : List (Nat × Nat × Nat × Int) := []
  /-- TB_CFG word 0 as written and in force; 32 bits; R495; reset R495. -/
  tbCfg : Word := 0x00002014
  tbCfgEff : Word := 0x00002014
  /-- CPR as written and in force; 25 bits; R495; reset R495. -/
  cpr : BitVec 25 := 0
  cprEff : BitVec 25 := 0
  /-- TSEP as written and in force; 6 bits; R187, R498; reset R498. -/
  tsep : BitVec 6 := 8
  tsepEff : BitVec 6 := 8
  /-- ROLE as written and in force; 2 bits; R497; reset R497. -/
  role : BitVec 2 := 0
  roleEff : BitVec 2 := 0
  /-- TRIM, used at the next pulse; 8 bits; R497; reset R497. -/
  trim : BitVec 8 := 0
  /-- Phase error e still to be slewed, ticks; R65 (02); reset R383. -/
  slew : Int := 0
  /-- PHERR; s8; R497; reset R497. -/
  pherr : Int := 0
  /-- Consecutive pulses within the window; R66 (02); reset R383. -/
  lockRun : Nat := 0
  /-- Frames since the last pulse; R66 (02); reset R383. -/
  sincePulse : Nat := 0
  /-- SYNC_LOCK; R66, R473; reset R473. -/
  syncLock : Bool := false
  /-- TSYNC driven low by the module in this frame; R64 (02); reset R64. -/
  tsyncLow : Bool := false
  /-- The pulse boundary of this frame is open for EPOCH_LOAD; R69 (02); reset R383. -/
  pulseNow : Bool := false
  /-- A pulse fell nearest the boundary to come, which is then the pulse boundary; R65, R69 (02); reset R383. -/
  pulseNext : Bool := false
  /-- Pending SYNC_EPOCH; R69 (02); reset R497. -/
  epoch : Option Epoch := none
deriving DecidableEq, Repr

/-- One AXIO pin (04_axio_homing.md). -/
structure Pin where
  /-- Routing entry; 32 bits; R112 (04); reset R112. -/
  entry : Word := 0x0000007F
  /-- ROUTE_AXIO has routed the pin since the last device reset, which took it over from its fuse state; 1 bit; R111, R394 (04, 15);
  reset R111. -/
  routed : Bool := false
  /-- Raw level after the glitch filter; R115 (04); reset log 14. -/
  raw : Bool := false
  /-- Qualified level; R116 (04); reset log 14. -/
  qual : Bool := false
  /-- The qualified level that step 3 has last acted on; R59, R117 (02, 04); reset log 14. -/
  acted : Bool := false
  /-- t_first of a pending change; R116 (04); reset R383. -/
  tFirst : Option Nat := none
  /-- Position of the master of the pin's axis at t_first; s64 Q48.16; R55, R127 (02, 04); reset DESIGN CHOICE log 1. -/
  posFirst : Int := 0
  /-- Last raw transition; R116 (04); reset DESIGN CHOICE log 1. -/
  tLast : Nat := 0
  /-- Times of the last qualified edges, newest first, at most nine; R118 (04); reset R383. -/
  edges : List Nat := []
  /-- The chattering condition lasts; R118 (04); reset R383. -/
  chatter : Bool := false
  /-- Level latched at the last snapshot; R59, R111; reset log 14. -/
  snap : Bool := false
  /-- The output function is active (before INV), and the pin sinks; R119, R120 (04); reset R111. -/
  active : Bool := false
  sink : Bool := false
  /-- Frames a position-compare pulse still lasts; R112 (04); reset R383. -/
  pulse : Nat := 0
  /-- Output turned off by an overload; R110 (04); reset R383. -/
  overloaded : Bool := false
  /-- PWM ticks for which the condition of a lamp has stood; R112 (04); reset DESIGN CHOICE log 1. -/
  blink : Nat := 0
  /-- A position compare evaluated in the frame before, which changes the pin one boundary later; R120 (04); reset R383. -/
  next : Bool := false
  /-- p + POFF of the axis when the compare was evaluated last; s64 Q40.24; R122 (04); reset DESIGN CHOICE log 1. -/
  lastEl : Int := 0
deriving DecidableEq, Repr

/-- One batch of the batch table (R103–R105). -/
structure Batch where
  id : BitVec 16
  pred : BitVec 16
  master : MasterId
  start : Option (BitVec 32)
  ovlMax : BitVec 32
  mask : BitVec 48
  contributed : BitVec 48
  closed : Bool
  /-- Known tail-start positions T, ends E, integer mc, by axis. -/
  tails : List (AxisId × Int)
  ends : List (AxisId × Int)
  /-- T = E of a closed batch without members. -/
  emptyAt : Option Int
deriving DecidableEq, Repr

/-- One packet in a submission ring, until its command starts (R288). -/
structure Packet where
  bytes : List Byte
  queue : QueueId
  /-- Acceptance number (R298). -/
  seq : Nat
  /-- The core that has taken it; none while untaken. -/
  core : Option CoreId
  /-- A rejection decided by R293 that waits for R297, with its WORD. -/
  verdict : Option (Status × Word)
  /-- The packet failed the memory check in its ring (R408). -/
  bad : Bool
deriving DecidableEq, Repr

/-- One completion entry (R300). -/
structure Completion where
  tag : BitVec 16
  status : Status
  flags : Byte
  axis : Byte
  queue : BitVec 4
  mpos : Word
  word : Word
  /-- The entry fails its memory check (R412). -/
  bad : Bool := false
deriving DecidableEq, Repr

/-- The outcome of one axis of a broadcast or action (R304). -/
structure AxisOutcome where
  axis : AxisId
  status : Status
  word : Word
  mpos : Option Word
deriving DecidableEq, Repr

/-- What a command in flight waits for. -/
inductive ActKind where
  | bind | setPosition | setSpeed | setAccel
  | stop | quickstop | disable | enable | diagnose | stopAll
  | take | handBack | sbJog
deriving DecidableEq, Repr

/-- A command whose completion waits for one or more axes (R304). -/
structure Action where
  id : Nat
  ref : CmdRef
  axisByte : Byte
  kind : ActKind
  wait : List AxisId
  outs : List AxisOutcome
  /-- Axes stopped, or segments that completed STOPPED (R304). -/
  count : Nat
  /-- FLAGS of the completion (R301). -/
  flags : Byte
deriving DecidableEq, Repr

/-- An effect that waits for the next snapshot (R37, R94, R96–R98, R105, R319, R355). -/
inductive SnapOp where
  | bind (n : AxisId) (m : MasterId) (act : Nat)
  | setPosition (n : AxisId) (p : Int) (act : Nat)
  | setSpeed (n : AxisId) (v : Int) (act : Nat)
  | setAccel (n : AxisId) (acc dec : Int) (act : Nat)
  | stop (n : AxisId) (quick flush : Bool) (act : Nat)
  | disable (n : AxisId) (act : Nat)
  | stopAll (act : Nat)
  | closeBatch (id : BitVec 16)
  | take (n : AxisId) (act : Nat)
  | handBack (n : AxisId) (act : Nat)
  | readAxis (n : AxisId) (item : Fin 28) (ref : CmdRef)
  | readGroup (g : GroupId) (index : Nat) (ref : CmdRef)
  | installTable (t : Fin 4) (entries : List Word) (faddr : Option Word) (ref : CmdRef)
  | energise (n : AxisId)
  /-- The quick stop of a stall under STOP_HOLD (R237). -/
  | stallStop (n : AxisId)
deriving DecidableEq, Repr

/-- One microstep table (R139–R141): `custom = none` holds the generated entries of R140. -/
structure MicroTable where
  custom : Option (List Word) := none
  /-- Flash address it is stored at, for recovery; R330 (12); reset R383. -/
  faddr : Option Word := none
  /-- The staging copy when open; R330 (12); reset R330. -/
  staging : Option (List Word) := none
  /-- TBL_INV bit; R410, R483; reset R483. -/
  invalid : Bool := false
  /-- A reload from flash runs; R410 (16); reset R383. -/
  reloading : Bool := false
  /-- Entries whose check failed; R410 (16); reset R383. -/
  badEntries : List Nat := []
deriving DecidableEq, Repr

/-- Queues, cores, tags and completions (11_queues_packets.md). -/
structure Queues where
  /-- Packets in the rings, in acceptance order; 16 × 64 slots × 32 B; R24, R288; reset R383. -/
  packets : List Packet := []
  /-- Number of the next acceptance; R298 (11); reset DESIGN CHOICE log 1. -/
  nextSeq : Nat := 0
  /-- Live tags with queue and axis; at most 512; R294, R412; reset R380. -/
  live : List (BitVec 16 × BitVec 4 × Byte) := []
  /-- Completion ring, oldest first, at most 1,024 entries; R300; reset R383. -/
  ring : List Completion := []
  /-- Staging buffer while dispatch is suspended; 512 entries; R420 (16); reset R383. -/
  staged : List Completion := []
  /-- Weights Q_CFGn.WEIGHT; 4 bits each; R287, R492; reset R492. -/
  weight : Vector (BitVec 4) 16 := (Vector.replicate 16 1).set 0 0
  /-- Arbiter's current queue p; 1–15; R295 (11); reset R295. -/
  p : QueueId := 1
  /-- Arbiter's credit cr; R295 (11); reset R295. -/
  cr : Nat := 1
  /-- THR; 8 bits; R305, R489; reset R489. -/
  thr : BitVec 8 := 1
  /-- TMO; 8 bits; R305, R489; reset R489. -/
  tmo : BitVec 8 := 0
  /-- FIE; 1 bit; R305, R489; reset R489. -/
  fie : Bool := true
  /-- The completion request of HIRQ stands; R305 (11); reset R383. -/
  cplReq : Bool := false
  /-- Commands that wait for axes; R304 (11); reset R380. -/
  actions : List Action := []
  nextAct : Nat := 0
  /-- Effects that wait for the next snapshot; R37 (02); reset R380. -/
  snapOps : List SnapOp := []
  /-- Live batches, at most 64; R103 (03); reset R380. -/
  batches : List Batch := []
deriving DecidableEq, Repr

/-- The host port (10_host_port.md). -/
structure HostPort where
  /-- TA; 4 bits; R271, R486; reset R486. -/
  ta : BitVec 4 := 2
  /-- REGERR; 8 bits; R274, R487; reset R487. -/
  regErr : BitVec 8 := 0
  /-- FCAUSE; 4 bits; R286, R487; reset R487. -/
  fcause : BitVec 4 := 0
  /-- FRAME_ERR, PUSH_REJ and FRAME_LONG sticky copies; W1C; R487; reset R487. -/
  frameErrS : Bool := false
  pushRejS : Bool := false
  frameLong : Bool := false
  /-- FRAME_ERR and PUSH_REJ of the frame before, for the next status word; R273 (10); reset R383. -/
  frameErr : Bool := false
  pushRej : Bool := false
  /-- PUSH_ERR CODE, QUEUE, TAG; R488; reset R488. -/
  pushCode : BitVec 3 := 0
  pushQueue : BitVec 4 := 0
  pushTag : BitVec 16 := 0
  /-- _HI shadow words and _LO holding words by page and _LO word; R280 (10); reset R280. -/
  shadow : List (Nat × Word) := []
  holding : List (Nat × Word) := []
  /-- Unlocked by KEY_UNLOCK; R416, R475; reset R475. -/
  unlocked : Bool := false
  /-- Boundary count of the last KEY_VIOL Shale entry of the port; R417 (16); reset R417. -/
  keyFrame : Option Nat := none
  /-- Status word the module drove in the last frame, none when it drove none; R273 (10); model's record of the lanes; reset R276. -/
  statusOut : Option (BitVec 16) := none
  /-- Levels the module drove on HD7–HD0 at the sampling edges of the last frame, from the status phase on; R268, R269, R270 (10);
  model's record of the lanes; reset R276. -/
  lanesOut : List (BitVec 8) := []
  /-- Bytes the module drove in the data phase of the last frame; R268 (10); model's record of the lanes; reset R276. -/
  dataOut : List Byte := []
deriving DecidableEq, Repr

/-- The side-band port on the VSB domain (13_sideband.md). -/
structure SideBand where
  /-- Power state; R342 (13); reset R342 (ACTIVE with VDD). -/
  power : SbPower := .active
  /-- VDD is valid; R349 (13); reset log 13. -/
  vdd : Bool := true
  /-- PEC_REQ; R362, R490; reset R490. -/
  pecReq : Bool := false
  /-- AMASK; 6 bits; R353, R490; reset R490. -/
  amask : BitVec 6 := 0x1F
  /-- HSIL; 8 bits; R353, R490; reset R490. -/
  hsil : BitVec 8 := 0
  /-- PEC_REQ, AMASK and HSIL in effect since the last transaction began; R362 (13); reset R490. -/
  pecUse : Bool := false
  amaskUse : BitVec 6 := 0x1F
  hsilUse : BitVec 8 := 0
  /-- ADDR the port answers; 7 bits; R340, R490; reset R490. -/
  addr : BitVec 7 := 0x50
  /-- Command code and result of the last executed write command; R349 (13); reset log 1. -/
  lastCmd : Byte := 0
  result : Byte := 0
  /-- The actions of the last command, while PENDING; R350 (13); reset R383. -/
  pendAct : Option Nat := none
  /-- A SERVICE_ENTER or MODULE_RESET whose result reads OK after READY; R360, R361 (13); reset R361. -/
  pendReset : Bool := false
  /-- A BANK_SELECT whose option write runs; R361 (13); reset R383. -/
  pendBank : Bool := false
  /-- Side-band commands that wait in the arbiter, each with its place in the order of acceptance, and whether the last one's result is
  the one that reads PENDING; R350, R359, R420 (13, 16); reset R380. -/
  waiting : List (Nat × Instr) := []
  pendWait : Bool := false
  /-- Register error code of the port; R349 (13); reset log 1. -/
  regErr : BitVec 8 := 0
  /-- Latched alert causes, and those announced; 6 bits; R353, R354; reset R490 (VSB power-on). -/
  causes : BitVec 6 := 0
  announced : BitVec 6 := 0
  /-- The FAULT bit as last seen, for its rising edge; R353 (13); reset DESIGN CHOICE log 1. -/
  faultSeen : Bool := false
  /-- Shadow and holding words of the port; R352 (13); reset R280. -/
  shadow : List (Nat × Word) := []
  holding : List (Nat × Word) := []
  /-- Unlocked by KEY_UNLOCK; R352, R416; reset R475. -/
  unlocked : Bool := false
  keyFrame : Option Nat := none
  /-- Ticks of the wrong passcodes of the last 10 minutes; R360 (13); reset R360. -/
  wrongPass : List Nat := []
  /-- LOCKED_OUT; R360 (13); reset R360. -/
  lockedOut : Bool := false
  /-- Axes with a running side-band jog; R357 (13); reset R383. -/
  jogs : List AxisId := []
  /-- Jogs that wait for the rest of the axis, with their direction; R357 (13); reset R383. -/
  jogWait : List (AxisId × Bool) := []
  /-- Bytes the port returned to the last read command: byte count, data and PEC; R346 (13); model's record of SBD; reset log 1. -/
  dataOut : List Byte := []
deriving DecidableEq, Repr

/-- One Shale entry (R424); the CRC is a function of the rest. -/
structure ShaleEntry where
  cls : Byte
  code : Byte
  seq : BitVec 16
  poh : BitVec 24
  src : Byte
  frame : BitVec 32
  data : BitVec 24
  /-- The entry's second pulse was never issued: it fails its CRC and reads as empty (R425). -/
  broken : Bool := false
deriving DecidableEq, Repr

/-- The code table of a delay line that no trim has reached: tap[f] = 3·f (R197). -/
def siliconTaps : List Nat := [0, 3, 6, 9, 12, 15, 18, 21, 24, 27, 30, 33, 36, 39, 42, 45]

/-- Factory trim of a leg's sense path; the defaults are those of the silicon (R197, R210). -/
structure LegTrim where
  /-- os, 1/16 LSB; s16; R197 (07); reset log 12. -/
  os : Int := 0
  /-- gs0, Q2.14, with its temperature terms k1 and k2; u15, s16; R210 (07); reset log 12. -/
  gs0 : Nat := 16384
  k1 : Int := 0
  k2 : Int := 0
deriving DecidableEq, Repr

/-- Factory trim of a current-sense ADC; the defaults are those of the silicon (R197, R206). -/
structure AdcTrim where
  /-- oa, 1/16 LSB; s16; R197 (07); reset log 12. -/
  oa : Int := 0
  /-- ga, Q2.14; u15; R197 (07); reset log 12. -/
  ga : Nat := 16384
  /-- p_trim and n_trim, 1/16 LSB, nominal +1,800 and −1,800 LSB; R205, R206 (07); reset log 12. -/
  p : Int := 28800
  n : Int := -28800
deriving DecidableEq, Repr

/-- The internal NVM and the eFuse array (R25, R26): what survives every reset. -/
structure Nvm where
  /-- Option record copies A and B, 64 words each; none when the CRC fails; R386; reset log 15 (default record). -/
  copyA : Option (Vector Word 64) := none
  copyB : Option (Vector Word 64) := none
  /-- Life-cycle state in force; R400; reset R400 (MANUFACTURE is the initial state). -/
  lc : LifeCycle := .manufacture
  /-- Life-cycle state word as it stands in NVM, code and complement; R401; reset R400, its layout log 116. -/
  lcWord : BitVec 64 := 0xFFFFFFFF00000000
  /-- Device-unique AES key; 128 bits; R402; reset R402 (absent). -/
  devKey : Option (List Byte) := none
  /-- Firmware public key x, y; 512 bits; R402; reset R402 (absent). -/
  fwKey : Option (List Byte) := none
  /-- Passcode; 64 bits; R360; reset R360. -/
  passcode : BitVec 64 := 0
  /-- Verified marks of banks A and B: digest and version; R370; reset DESIGN CHOICE log 15. -/
  markA : Option (List Byte × BitVec 32) := none
  markB : Option (List Byte × BitVec 32) := none
  /-- Rollback floor; u32; R370; reset R370. -/
  floor : BitVec 32 := 0
  /-- Factory trims of Quartz per leg, per ADC and per delay line; R197, R206, R210 (07); reset log 12. -/
  legTrim : Vector LegTrim 192 := Vector.replicate 192 {}
  adcTrim : Vector AdcTrim 24 := Vector.replicate 24 {}
  tapTrim : Vector (List Nat) 12 := Vector.replicate 12 siliconTaps
  /-- Power-on hours saved; 24 bits; R425; reset log 15. -/
  pohSaved : BitVec 24 := 0
  /-- Shale entries, newest first, at most 4,096; R424; reset log 15. -/
  shale : List ShaleEntry := []
  /-- Ring position of the next entry; 12 bits; R425; reset log 15. -/
  shalePos : Nat := 0
  /-- SEQ of the next entry; 16 bits; R424; reset log 15. -/
  shaleSeq : BitVec 16 := 0
  /-- An NVM or eFuse pulse is running; R384 (15); reset R384. -/
  pulse : Bool := false
  /-- Erasure of keys and log still to finish in RETIRED; R404 (15); reset R404. -/
  erasing : Bool := false
  /-- eFuse codes, 2 bits per signal pin; 288 bits; R26, R391; reset R391 (unprogrammed). -/
  fuses : Vector (BitVec 2) 144 := Vector.replicate 144 0
deriving DecidableEq, Repr

/-- A memory-port job (R368). -/
inductive FlashJob where
  | table (ref : CmdRef) (t : Fin 4) (faddr : Word)
  | library (ref : CmdRef) (faddr : Word) (recipe tagBase maxSeg rsv : Nat)
  | erase (ref : CmdRef) (block : Nat)
  | program (ref : CmdRef) (offset : Nat) (data : List Byte)
  | verify (ref : CmdRef)
deriving DecidableEq, Repr

/-- A recipe record (R374): a packet without its header; `master` is MASTERPOS or BATCH as the record gives them. -/
structure Record where
  opc : Byte
  flags : Byte
  axis : Byte
  deadline : BitVec 32
  batch : BitVec 16
  params : List Byte
deriving DecidableEq, Repr

/-- A streaming recipe (R331, R374): the records still to write. -/
structure Stream where
  ref : CmdRef
  tagBase : Nat
  maxSeg : Nat
  records : List Record
  written : Nat
  axes : List AxisId
deriving DecidableEq, Repr

/-- A live firmware switch in progress (R422). -/
inductive SwitchStep where
  | waitQuiescent (ref : CmdRef)
  | loading (ref : CmdRef) (bankB : Bool)
  | waitBoundary (ref : CmdRef) (bankB : Bool)
deriving DecidableEq, Repr

/-- Memory port, flash and firmware (14_memory_port.md). -/
structure MemPort where
  /-- Contents of the flash devices: address (bit 31 the device) and byte; R363, R365; reset log 16. -/
  flash : List Host.Cell := []
  /-- What discovery reads from the SFDP table of the device on each select, none where no device answers; R364; reset log 16. -/
  chip0 : Option Sfdp := none
  chip1 : Option Sfdp := none
  /-- DEV0_OK and DEV1_OK; R364, R491; reset log 16. -/
  dev0 : Bool := false
  dev1 : Bool := false
  /-- The 64-byte lines of the prefetch buffer by their number, most recently used first; R367; reset R396. -/
  lines : List Nat := []
  /-- Each device is kept in continuous-read mode; R367; reset R367 (no fast read yet). -/
  cont0 : Bool := false
  cont1 : Bool := false
  /-- The erase or program that has begun in its device; R368; reset R380. -/
  running : Option FlashJob := none
  /-- CFG_ERR; R366, R491; reset by R366 with the devices of log 16 (none, so bank A lies on an absent device). -/
  cfgErr : Bool := true
  /-- FL_ERR; W1C; R491; reset R491. -/
  flErr : Bool := false
  /-- RUN_BANK: B when true; R491; reset R491. -/
  runBank : Bool := false
  /-- ROM_ONLY; R371, R491; reset R491. -/
  romOnly : Bool := true
  /-- Version of the running image; R316 item 3; reset R371. -/
  version : BitVec 32 := 0
  /-- Flash jobs waiting and running; R368 (14); reset R380. -/
  jobs : List FlashJob := []
  /-- A FW_STAGE runs; R334 (12); reset R380. -/
  staging : Bool := false
  /-- Streaming recipe; R331 (12); reset R380. -/
  stream : Option Stream := none
  /-- Firmware switch; R422 (16); reset R380. -/
  switch : Option SwitchStep := none
  /-- Banks still to try after READY; R371 (14); reset R371. -/
  boot : List Bool := []
  /-- BLK_RST bits 16–19 that read 1; R478; reset R478. -/
  blkRst : BitVec 4 := 0
deriving DecidableEq, Repr

/-- An event that acts in step 3 of the next boundary (R59, R61, R256). -/
inductive Step3 where
  /-- A safe-off: SAFEA low, SAFEB low (R262). -/
  | safe (aLow bLow : Bool)
  /-- A lock-out of a group, by its number 0 VGD, 1 VCP, 2 VM under, 3 VM over (R242). -/
  | supply (g : GroupId) (k : Fin 4)
  /-- The trips of a group, at the first of them (R251). -/
  | trips (g : GroupId)
  /-- What the trips of its group mean to an axis, at the first of its own (R251, R256). -/
  | tripAxis (n : AxisId)
  /-- A failed CHECK of an axis, with the lowest leg of the failing coil (R252, R256). -/
  | checkFail (n : AxisId) (leg : LegId)
  /-- A qualified change of an AXIO pin to a level, with the position of its axis's master at its raw time (R117); `nine`: it is the
  ninth edge within 50 ms (R118). -/
  | edge (pin : PinId) (level : Bool) (pos : Int) (nine : Bool)
deriving DecidableEq, Repr

/-- Global status, faults, options, integrity and reset (15_reset_lifecycle.md, 16_integrity.md). -/
structure Device where
  /-- Stage of the reset sequence; R381 (15); reset R381. -/
  stage : Stage := .running
  /-- READY; R276 (10); reset R381. -/
  ready : Bool := true
  /-- SAFE_HOLD; R390, R473; reset R473. -/
  safeHold : Bool := false
  /-- NRST driven low by the module, and an external low; R378 (15); reset R381. -/
  nrstDrive : Bool := false
  /-- Sources recorded since the previous READY; 7 bits; R379 (15); reset R379. -/
  sources : BitVec 7 := 0
  /-- RST_CAUSE SRC, and IRESTART; R379, R477; reset R379 (POR). -/
  rstSrc : BitVec 7 := 1
  restarts : BitVec 8 := 0
  /-- GFAULT; 8 bits; R474; reset R474. -/
  gfault : BitVec 8 := 0
  /-- SAFE_ACT; R262, R473; reset R473. -/
  safeAct : Bool := true
  /-- Filtered levels of SAFEA and SAFEB; R473; reset log 13. -/
  safeA : Bool := true
  safeB : Bool := true
  /-- Events that wait for step 3 of the next boundary, each with its rank, in the order in which they take effect; R61, R117, R256
  (02, 04, 09); reset R383. -/
  step3 : List (Nat × Step3) := []
  /-- The discrepancy of R264 has not yet been cleared by both inputs low together; R264 (09); reset R383. -/
  safeDisc : Bool := false
  /-- Both inputs have been low together since SAFE_DISC; R264 (09); reset R383. -/
  bothLow : Bool := false
  /-- SAFEA and SAFEB have disagreed without a break since SAFE_DISC was set; R264, R474 (09, 19); reset R383. -/
  discNow : Bool := false
  /-- BLK_RST_REFUSED REASON and BIT; R399, R479; reset R479. -/
  refReason : BitVec 8 := 0
  refBit : BitVec 5 := 0
  /-- BLOCK_RESET commands waiting, with their bit; R338 (12); reset R380. -/
  blkCmds : List (CmdRef × Nat) := []
  /-- OPT_STAT A_BAD, FIELD_DEF, DEFAULTS, COPY, BUSY, WR_FAIL; R480; reset R480. -/
  aBad : Bool := false
  fieldDef : Bool := false
  defaults : Bool := false
  copyB : Bool := false
  optBusy : Bool := false
  wrFail : Bool := false
  /-- The option record in force, 64 words; R386, R387; reset log 15. -/
  opts : Vector Word 64 := Vector.replicate 64 0
  /-- OPT_STG0–OPT_STG63; R485; reset R485. -/
  staging : Vector Word 64 := Vector.replicate 64 0
  /-- The record an OPT_CTL CMD 1 or a BOOT_BANK change is writing; R389 (15); reset R380. -/
  optWrite : Option (Vector Word 64) := none
  /-- A FUSE_PROGRAM sequence: command, pulses still to run, programmed, skipped; R395 (15); reset R380. -/
  fuseSeq : Option (CmdRef × List (Fin 144 × BitVec 2) × Nat × Nat) := none
  /-- Latched fuse states; R393 (15); reset R391. -/
  fuseState : Vector (BitVec 2) 144 := Vector.replicate 144 0
  /-- The governed non-AXIO pins have been taken over; R394 (15); reset R394. -/
  pinsTaken : Bool := true
  /-- SRAM_ERR; 16 bits; R407, R483; reset R483. -/
  sramErr : BitVec 16 := 0
  /-- SRAM words found in error since the last boundary, which count once; R407 (16); reset R383. -/
  sramSeen : List (Fin 98304) := []
  /-- TAG_LOST, GPAR_FIX, GPAR_FAIL; R483; reset R483. -/
  tagLost : Bool := false
  gparFix : Bool := false
  gparFail : Bool := false
  /-- DISPATCH_SUSP; R420, R483; reset R483. -/
  suspended : Bool := false
  /-- The watchdog is suspended; R422 (16); reset R380. -/
  wdSuspended : Bool := false
  /-- PAR_PAGE, PAR_WORD, PAR_VALID; R483; reset R483. -/
  parPage : BitVec 4 := 0
  parWord : BitVec 8 := 0
  parValid : Bool := false
  /-- Register words whose parity mismatches: page and word; R414 (16); reset R383. -/
  parityBad : List (Nat × Nat) := []
  /-- Parity reactions that wait for the next boundary: page, word, and whether the word's copy has failed too; R414, R415 (16); reset
  R383. -/
  parityPend : List (Nat × Nat × Bool) := []
  /-- SHALE_IDX INDEX, and the selected entry's bytes SHALE_D0–D3; R484; reset R484. -/
  shaleIdx : BitVec 12 := 0
  shaleD : Vector Word 4 := Vector.replicate 4 0
  /-- Pending Shale entries, oldest first, at most 64, and the count dropped; R425 (16); reset R380. -/
  shalePend : List ShaleEntry := []
  shaleDropped : Nat := 0
  /-- tbase, signed 0.125 °C, BP_ERR and MOD_LIMIT; R441, R500; reset R500. -/
  tbase : BitVec 16 := 0
  bpErr : Bool := false
  modLimit : Bool := false
  /-- Module loss Σpg and the positive dp of heads admitted in this frame, by group and in all; R444 (17); reset DESIGN CHOICE log 1. -/
  sumPg : Int := 0
  addM : Int := 0
  addG : List (GroupId × Int) := []
  /-- AXIO_OVL0–2; W1C; R476; reset R476. -/
  axioOvl : Vector Word 3 := Vector.replicate 3 0
  /-- SW_CHAT0–2; W1C; R476; reset R476. -/
  swChat : Vector Word 3 := Vector.replicate 3 0
  /-- Banks set to HV; 6 bits; R109 (04); reset DESIGN CHOICE log 17. -/
  bankHv : BitVec 6 := 0
  /-- Controller die step: 0 C0, 1 C1; R471; reset log 18. -/
  step : BitVec 8 := 0
  /-- The model's counter of free values; model's own; reset DESIGN CHOICE log 9. -/
  free : Nat := 0
deriving DecidableEq, Repr

/-- The state of the block. -/
structure State where
  /-- The commands that wait, first in, first out (the model's own). -/
  pending : List Instr := []
  dev : Device := {}
  nvm : Nvm := {}
  tb : TimeBase := {}
  axes : Vector Axis 48 := Vector.replicate 48 {}
  coils : Vector Coil 96 := Vector.replicate 96 {}
  legs : Vector Leg 192 := Vector.replicate 192 {}
  adcs : Vector Adc 24 := Vector.replicate 24 {}
  groups : Vector Group 12 := Vector.replicate 12 {}
  pins : Vector Pin 96 := Vector.replicate 96 {}
  tables : Vector MicroTable 4 := Vector.replicate 4 {}
  q : Queues := {}
  hp : HostPort := {}
  sb : SideBand := {}
  mp : MemPort := {}
deriving DecidableEq, Repr

/-- Why the block stops with a fault. No meaning raises one: every command of the table has an effect in every state. -/
inductive Fault where
  /-- Raised by nobody: kept so that the type is inhabited; safe. -/
  | unused
deriving DecidableEq, Repr

/-- Why the model refuses a command. -/
inductive Refusal where
  /-- Raised by an arm of exec whose command has no meaning yet; safe. -/
  | notModelled (mnemonic : String)
deriving DecidableEq, Repr

/-- The option record of factory defaults (R386): MAGIC, FORMAT and every field's default. -/
def defaultOptions : Vector Word 64 :=
  ((((Vector.replicate 64 0).set 0 0x4F505431).set 1 0x00000001).set 2 0x04500000 |>.set 3 0x00000001).set 5 0x00040000

/-- The machine right after reset: READY has risen after a power-on reset, with every queue empty (R381, R383). -/
def State.reset : State :=
  { nvm := { copyA := some defaultOptions, copyB := some defaultOptions }
    dev := { opts := defaultOptions, staging := defaultOptions } }

end Sys2Proof.Machine
end

