-- ==== Sys2Proof/Machine/Bits.lean ====
section
/-! DEFINITION. Numbers, bytes and bit fields: the arithmetic of R5 to R7 that the meanings share. -/
namespace Sys2Proof.Machine
open Sys2Proof

/-- Division rounded toward +∞ (R87); `b` is positive. -/
def ceilDiv (a b : Int) : Int := -((-a) / b)

/-- The value of `x` held between `lo` and `hi`. -/
def clampI (lo hi x : Int) : Int := max lo (min hi x)

/-- `x` held within ±`m`. -/
def limitMag (m x : Int) : Int := clampI (-m) m x

/-- The sign of an integer as −1, 0 or 1. -/
def sgn (x : Int) : Int := if x > 0 then 1 else if x < 0 then -1 else 0

/-- The value of a Bool as a bit. -/
def bit (b : Bool) : Nat := if b then 1 else 0

/-- Two's complement reading of the low `k` bits of `x` (R5). -/
def wrapS (k : Nat) (x : Int) : Int := Int.bmod x (2 ^ k)

/-- Bits `hi` to `lo` of a word as a number (R7). -/
def bits (w : Word) (hi lo : Nat) : Nat := (w.toNat / 2 ^ lo) % 2 ^ (hi + 1 - lo)

/-- Bit `i` of a word. -/
def bitOf (w : Word) (i : Nat) : Bool := w.getLsbD i

/-- The low 32 bits of an integer. -/
def loWord (x : Int) : Word := BitVec.ofInt 32 x

/-- Bits 63 to 32 of an integer. -/
def hiWord (x : Int) : Word := BitVec.ofInt 32 (x / 2 ^ 32)

/-- The signed 64-bit value of a _LO and a _HI word. -/
def ofWords (lo hi : Word) : Int := wrapS 64 (lo.toNat + hi.toNat * 2 ^ 32)

/-- The number an ascending list of bytes holds, least significant first (R7). -/
def leNat : List Byte → Nat
  | [] => 0
  | b :: bs => b.toNat + 256 * leNat bs

/-- The low `k` bytes of a number, least significant first. -/
def leBytes (k : Nat) (x : Nat) : List Byte :=
  match k with
  | 0 => []
  | k + 1 => BitVec.ofNat 8 x :: leBytes k (x / 256)

/-- The byte at offset `i`; beyond the end 0. -/
def byteAt (l : List Byte) (i : Nat) : Byte := l.getD i 0

/-- The unsigned field of `k` bytes at offset `i`. -/
def uAt (l : List Byte) (i k : Nat) : Nat := leNat ((List.range k).map fun j => byteAt l (i + j))

/-- The signed field of `k` bytes at offset `i`. -/
def sAt (l : List Byte) (i k : Nat) : Int := wrapS (8 * k) (uAt l i k)

/-- The four bytes of a word, least significant first. -/
def wordBytes (w : Word) : List Byte := leBytes 4 w.toNat

/-- The word in the bytes at offset `i`. -/
def wordAt (l : List Byte) (i : Nat) : Word := BitVec.ofNat 32 (uAt l i 4)

/-- A number with the bits listed set. -/
def maskOf (l : List Bool) : Nat :=
  match l with
  | [] => 0
  | b :: bs => bit b + 2 * maskOf bs

/-- The element `i` of a vector replaced by its image. -/
def upd {α : Type} {k : Nat} (v : Vector α k) (i : Fin k) (f : α → α) : Vector α k := v.set i.val (f (v[i.val])) i.isLt

/-- The integer part of a Q48.16 position as its low 32 bits (R63, R302). -/
def mpos32 (m : Int) : Word := BitVec.ofInt 32 (m / 65536)

/-- The signed 32-bit value of `a − b` (R63). -/
def diff32 (a b : Word) : Int := (a - b).toInt

/-- The position `p` is reached at the Q48.16 position `m` (R63). -/
def reached32 (m : Int) (p : Word) : Bool := 0 ≤ diff32 (mpos32 m) p

/-- The whole master count that a 32-bit position names near `m` (R63). -/
def near32 (m : Int) (p : Word) : Int := m / 65536 - diff32 (mpos32 m) p

end Sys2Proof.Machine
end

