-- ==== Sys2Proof/Machine/Profile.lean ====
section
/-! DEFINITION. Exact phase arithmetic, planning, admission and stopping tails (03_motion_segments.md R83 to R97). -/
namespace Sys2Proof.Machine
open Sys2Proof

/-- Position of a phase at offset `x` (R84). -/
def phaseP (ph : Phase) (x : Int) : Int :=
  (6 * ph.p0 * 2 ^ 80 + 6 * ph.v0 * x * 2 ^ 48 + 3 * ph.a0 * (x * x) * 2 ^ 24 + ph.j * (x * x * x)) / (6 * 2 ^ 80)

/-- Velocity of a phase at offset `x` (R84). -/
def phaseV (ph : Phase) (x : Int) : Int := (ph.v0 * 2 ^ 49 + ph.a0 * x * 2 ^ 25 + ph.j * x * x) / 2 ^ 49

/-- Acceleration of a phase at offset `x` (R84). -/
def phaseA (ph : Phase) (x : Int) : Int := (ph.a0 * 2 ^ 24 + ph.j * x) / 2 ^ 24

/-- The full length of a phase as an offset (R83). -/
def Phase.full (ph : Phase) : Int := (ph.len : Int) * 65536

/-- Position at which a phase ends (R85). -/
def Phase.endP (ph : Phase) : Int := phaseP ph ph.full

/-- Velocity at which a phase ends. -/
def Phase.endV (ph : Phase) : Int := phaseV ph ph.full

/-- Sum of the lengths of phases, in mc (R77). -/
def totalLen (l : List Phase) : Nat := (l.map (·.len)).sum

/-- Sum of the lengths of the phases before the tail: the tail start less MS (R104). -/
def tailOffset (l : List Phase) : Nat := totalLen (l.filter fun ph => ph.part ≠ .tail)

/-- The phase that holds the offset `x` from MS, with the offset inside it; none when no phase is left (R85). -/
def findPhase : List Phase → Int → Option (Phase × Int)
  | [], _ => none
  | ph :: rest, x => if x < ph.full then some (ph, x) else findPhase rest (x - ph.full)

/-- Position at which a list of phases ends; `ps` when there is none. -/
def endPos (ps : Int) (l : List Phase) : Int :=
  match l.getLast? with
  | some ph => ph.endP
  | none => ps

/-- A phase chained to the position `p`. -/
def mkPhase (p v a j : Int) (len : Nat) (part : Part) : Phase := ⟨p, v, a, j, len, part⟩

/-- Drops the phases of length 0, which R88 and R90 omit. -/
def keepPhases (l : List Phase) : List Phase := l.filter fun ph => ph.len ≠ 0

/-- The three phases of an S-curve ramp of length `len` from `p` and `v` with peak acceleration `a`, jerk length `lj` (R88). -/
def sRamp (p v a : Int) (lj len : Nat) (s : Int) (part : Part) : List Phase :=
  let j := s * (a * 256 / (lj : Int))
  let p1 := mkPhase p v 0 j lj part
  let x1 := p1.full
  let p2 := mkPhase (phaseP p1 x1) (phaseV p1 x1) (phaseA p1 x1) 0 (len - 2 * lj) part
  let x2 := p2.full
  let p3 := mkPhase (phaseP p2 x2) (phaseV p2 x2) (phaseA p2 x2) (-j) lj part
  keepPhases [p1, p2, p3]

/-- The head from speed `v0` toward `vc` over `len` (R88); `lim` limits the acceleration (AH, or AT when it decelerates). -/
def headPhases (s ps v0 vc : Int) (len lj : Nat) (lim : Int) : List Phase :=
  if len = 0 then []
  else
    let a := limitMag lim ((vc - v0) * 256 / ((len : Int) - lj))
    if lj = 0 then [mkPhase ps (s * v0) (s * a) 0 len .head] else sRamp ps (s * v0) a lj len s .head

/-- The tail from speed `vc` to rest over `len` (R88); `lim` is AT, or none for a clamped plan (R87). -/
def tailPhases (s p vc : Int) (len lj : Nat) (lim : Option Int) : List Phase :=
  if len = 0 then []
  else
    let raw := vc * 256 / ((len : Int) - lj)
    let a := match lim with
      | some m => limitMag m raw
      | none => raw
    if lj = 0 then [mkPhase p (s * vc) (-(s * a)) 0 len .tail] else sRamp p (s * vc) a lj len (-s) .tail

/-- A plan of a segment or leg. -/
structure Plan where
  phases : List Phase
  target : Option Int
  clamped : Bool
  unbounded : Bool
deriving DecidableEq, Repr

/-- The largest code in `lo … hi` that passes, by bisection (R87). -/
def bisect (ok : Int → Bool) : Nat → Int → Int → Int
  | 0, lo, _ => lo
  | f + 1, lo, hi =>
    if lo < hi then
      let mid := (lo + hi + 1) / 2
      if ok mid then bisect ok f mid hi else bisect ok f lo (mid - 1)
    else lo

/-- Length of a ramp of jerk length `lj` through a speed difference `dv` at `a` (R87). -/
def rampLen (dv a : Int) (lj : Nat) : Int := max (2 * (lj : Int)) (lj + ceilDiv (dv * 256) a)

/-- lh of R87. -/
def moveLh (v0 vp ah at' : Int) (lj : Nat) : Int :=
  if vp = v0 ∧ lj = 0 then 0 else rampLen |vp - v0| (if v0 ≤ vp then ah else at') lj

/-- rest of R87. -/
def moveRest (dd v0 ah at' : Int) (lj : Nat) (vp : Int) : Int :=
  dd - (v0 + vp) * moveLh v0 vp ah at' lj - vp * rampLen vp at' lj

/-- The lengths and the coupling speed of a move: lh, lc, lt, vc and whether it is clamped (R87). -/
def moveLengths (dd v0 vmax ah at' : Int) (lj : Nat) : Nat × Nat × Nat × Int × Bool :=
  let clampTail : Nat × Nat × Nat × Int × Bool :=
    let lt := max 1 (dd / v0)
    (0, 0, lt.toNat, dd / lt, true)
  if 0 < v0 ∧ dd < v0 * ceilDiv (v0 * 256) at' then clampTail
  else
    let lo := bisect (fun vp => 0 ≤ moveRest dd v0 ah at' lj vp) 64 0 vmax
    if lo = 0 ∧ 0 < v0 then clampTail
    else if lo = 0 then (0, 1, 0, dd / 2, true)
    else
      let lh := moveLh v0 lo ah at' lj
      let lt := rampLen lo at' lj
      let lc := max 1 (ceilDiv (moveRest dd v0 ah at' lj lo) (2 * lo))
      (lh.toNat, lc.toNat, lt.toNat, (dd - v0 * lh) / (lh + 2 * lc + lt), false)

/-- The plan of a move from `ps` with velocity `vs` to `pt` (R87, R88). -/
def planMove (ps pt vs vmax ah at' : Int) (lj : Nat) : Plan :=
  if pt = ps then ⟨[], some pt, vs ≠ 0, false⟩
  else
    let s := sgn (pt - ps)
    let v0 := s * vs
    let (lh, lc, lt, vc, clamped) := moveLengths (|pt - ps| * 2 ^ 17) v0 vmax ah at' lj
    let head := headPhases s ps v0 vc lh lj (if v0 ≤ vc then ah else at')
    let tl := fun (p : Int) => tailPhases s p vc lt (if clamped then 0 else lj) (if clamped then none else some at')
    let dh := s * (endPos ps head - ps)
    let dt := s * endPos 0 (tl 0)
    let p1 := endPos ps head
    let cruise := if lc = 0 then [] else [mkPhase p1 (s * ((|pt - ps| - dh - dt) * 65536 / (lc : Int))) 0 0 lc .body]
    ⟨head ++ cruise ++ tl (endPos p1 cruise), some pt, clamped, false⟩

/-- The span after which an unbounded cruise or a long HOLD is re-anchored, in mc (R93). -/
def anchorSpan : Nat := 2 ^ 30

/-- The plan of a VELOCITY at `vc` from `ps` with velocity `vs` (R87); its cruise is held one re-anchoring span at a time. -/
def planVelocity (ps vs vc ah at' : Int) (lj : Nat) : Plan :=
  let s := sgn vc
  let v0 := s * vs
  let vp := |vc|
  let lh := moveLh v0 vp ah at' lj
  let head := headPhases s ps v0 vp lh.toNat lj (if v0 ≤ vp then ah else at')
  ⟨head ++ [mkPhase (endPos ps head) vc 0 0 anchorSpan .body], none, false, true⟩

/-- The fixed lengths of a dose: ltr for `vb`, ls and ld (R90). -/
def doseLengths (vb vd dl a : Int) : Int × Int × Int :=
  let ls := ceilDiv (vd * 256) a
  (ceilDiv ((vb - vd) * 256) a, ls, max 1 (ceilDiv (2 * dl * 65536 - vd * ls) (2 * vd)))

/-- lh of R90. -/
def doseLh (v0 vb a : Int) : Int := if vb = v0 then 0 else ceilDiv (|vb - v0| * 256) a

/-- restB of R90. -/
def doseRest (tt v0 vd dl a vb : Int) : Int :=
  let (ltr, ls, ld) := doseLengths vb vd dl a
  2 * tt * 65536 - (v0 + vb) * doseLh v0 vb a - (vb + vd) * ltr - 2 * vd * ld - vd * ls

/-- The plan of a DOSE of `t` from `ps` with velocity `vs` (R90). -/
def planDose (ps vs t vb vd dl a : Int) : Plan :=
  let s := sgn t
  let v0 := s * vs
  let tt := |t|
  if doseRest tt v0 vd dl a vb < 0 ∧ doseRest tt v0 vd dl a vd < 0 then planMove ps (ps + t) vs vd a a 0
  else
    let b := if 0 ≤ doseRest tt v0 vd dl a vb then vb
      else bisect (fun c => 0 ≤ doseRest tt v0 vd dl a c) 64 vd vb
    let lh := doseLh v0 b a
    let (ltr, ls, ld) := doseLengths b vd dl a
    let lb := max 1 (ceilDiv (doseRest tt v0 vd dl a b) (2 * b))
    let vbc := (2 * tt * 65536 - v0 * lh - vd * ltr - 2 * vd * ld - vd * ls) / (lh + 2 * lb + ltr)
    let head := headPhases s ps v0 vbc lh.toNat 0 a
    let p1 := endPos ps head
    let tl := fun (p : Int) =>
      let tr := if ltr = 0 then []
        else [mkPhase p (s * vbc) (s * limitMag a ((vd - vbc) * 256 / ltr)) 0 ltr.toNat .tail]
      let p2 := endPos p tr
      let dr := mkPhase p2 (s * vd) 0 0 ld.toNat .tail
      let st := if ls = 0 then []
        else [mkPhase dr.endP (s * vd) (s * limitMag a (-vd * 256 / ls)) 0 ls.toNat .tail]
      tr ++ [dr] ++ st
    let dh := s * (p1 - ps)
    let dt := s * endPos 0 (tl 0)
    let bulk := mkPhase p1 (s * ((tt - dh - dt) * 65536 / lb)) 0 0 lb.toNat .body
    ⟨head ++ [bulk] ++ tl bulk.endP, some (ps + t), false, false⟩

/-- The plan of a GEAR from `ps` (R91). The magnitude of a ramp's acceleration is rounded, then takes the sign of G
(DEDUCED, notes/assumptions/24.md). -/
def planGear (ps g : Int) (w lgh lgt : Nat) : Plan :=
  let s := sgn g
  let head := if lgh = 0 then [] else [mkPhase ps 0 (s * (|g| * 256 / (lgh : Int))) 0 lgh .head]
  let win := mkPhase (endPos ps head) g 0 0 w .body
  let tl := if lgt = 0 then [] else [mkPhase win.endP g (-(s * (|g| * 256 / (lgt : Int)))) 0 lgt .tail]
  ⟨head ++ [win] ++ tl, none, false, false⟩

/-- The plan of a HOLD at `ps` (R79). -/
def planHold (ps : Int) (w : Nat) : Plan := ⟨[mkPhase ps 0 0 0 w .tail], some ps, false, false⟩

/-- The plan of a segment that starts at `ps` with velocity `vs` (R79, R87 to R91); a HOME plans leg by leg (R82). -/
def planSeg (k : SegKind) (ps vs : Int) : Plan :=
  match k with
  | .moveAbs pt vmax ah at' lj => planMove ps pt vs vmax ah at' lj
  | .moveRel d vmax ah at' lj => planMove ps (ps + d) vs vmax ah at' lj
  | .velocity vc ah at' lj => planVelocity ps vs vc ah at' lj
  | .gear g w lgh lgt _ => planGear ps g w lgh lgt
  | .dose t vb vd dl a => planDose ps vs t vb vd dl a
  | .hold w _ => planHold ps w
  | .home _ _ _ _ _ _ _ _ => ⟨[], none, false, false⟩

/-- Whether a stored integer lies in the Q40.24 range (R86). -/
def inRange (p : Int) : Bool := -2 ^ 63 ≤ p ∧ p < 2 ^ 63

/-- Numerator of the velocity at `x` (R84), whose sign is the velocity's. -/
def velNum (ph : Phase) (x : Int) : Int := ph.v0 * 2 ^ 49 + ph.a0 * x * 2 ^ 25 + ph.j * x * x

/-- In `lo … hi`, where the velocity is monotonic, the grid offsets that bracket its change of sign (R86). -/
def signChange (ph : Phase) (lo hi : Int) : List Int :=
  if sgn (velNum ph lo) * sgn (velNum ph hi) < 0 then
    let x := bisect (fun x => sgn (velNum ph x) = sgn (velNum ph lo)) 64 lo hi
    [x, x + 1]
  else []

/-- The offsets at which R86 tests the position of a phase. -/
def testOffsets (ph : Phase) : List Int :=
  let top := ph.full
  let m := if ph.j = 0 then 0 else clampI 0 top (-(ph.a0 * 2 ^ 24) / ph.j)
  [0, top] ++ signChange ph 0 m ++ signChange ph m (min top (m + 1)) ++ signChange ph (min top (m + 1)) top

/-- The admission of one phase (R86). -/
def admitPhase (ph : Phase) : Bool :=
  let x := ph.full
  |6 * ph.p0 * 2 ^ 80| ≤ 2 ^ 150 && |6 * ph.v0 * x * 2 ^ 48| ≤ 2 ^ 150 && |3 * ph.a0 * (x * x) * 2 ^ 24| ≤ 2 ^ 150
    && |ph.j * (x * x * x)| ≤ 2 ^ 150 && (testOffsets ph).all fun y => inRange (phaseP ph y)

/-- The longest tail of `lt` mc or less whose end lies in range, for a shortened stop (R96). -/
def shortTail (s p v : Int) (lt : Int) : Int :=
  bisect (fun l => (tailPhases s p v l.toNat 0 none).all fun ph => (testOffsets ph).all fun y => inRange (phaseP ph y)) 64 1 (min lt (2 ^ 31 - 1))

/-- A stopping tail from position `p` and velocity `v` with deceleration `at'` and jerk length `lj`, and whether it had to
be shortened (R96). -/
def stopTail (p v at' : Int) (lj : Nat) : List Phase × Bool :=
  let s := sgn v
  let vc := |v|
  let lt := rampLen vc at' lj
  let full := tailPhases s p vc lt.toNat lj (some at')
  if lt ≤ 2 ^ 31 - 1 ∧ full.all (fun ph => (testOffsets ph).all fun y => inRange (phaseP ph y)) then (full, false)
  else (tailPhases s p vc (shortTail s p vc lt).toNat 0 none, true)

/-- AT and LJ with which a segment stops by R96; none where the quick-stop deceleration serves. -/
def SegKind.stopRate : SegKind → Option (Int × Nat)
  | .moveAbs _ _ _ at' lj => some (at', lj)
  | .moveRel _ _ _ at' lj => some (at', lj)
  | .velocity _ _ at' lj => some (at', lj)
  | .dose _ _ _ _ a => some (a, 0)
  | .gear .. => none
  | .hold .. => none
  | .home .. => none

/-- The admission of a plan (R86): every phase, and for an unbounded cruise its stopping tail as well. -/
def admitPlan (k : SegKind) (pl : Plan) : Bool :=
  pl.phases.all admitPhase &&
    (if pl.unbounded then
      match k.stopRate, pl.phases.getLast? with
      | some (at', lj), some ph => let (tl, cut) := stopTail ph.endP ph.endV at' lj; !cut && tl.all admitPhase
      | _, _ => true
    else true)

/-- Direction of a segment that starts at `ps` (R81); 0 where it has none. -/
def segDir (k : SegKind) (ps : Int) : Int :=
  match k with
  | .moveAbs pt _ _ _ _ => sgn (pt - ps)
  | .moveRel d _ _ _ _ => sgn d
  | .velocity vc _ _ _ => sgn vc
  | .gear g _ _ _ _ => sgn g
  | .dose t _ _ _ _ => sgn t
  | .hold _ _ => 0
  | .home _ _ _ _ _ _ _ _ => 0

end Sys2Proof.Machine
end

