-- ==== Sys2Proof/Machine/Ops.lean ====
section
/-! DEFINITION. The operations the meanings share: indices and updates of the units, flags, Shale entries, completions and
the actions that wait for axes. -/
namespace Sys2Proof.Machine
open Sys2Proof

/-! ### Mapping of axes, coils, legs, converters and groups (R29) -/

/-- Group of an axis. -/
def groupOf (n : AxisId) : GroupId := ⟨n.val / 4, by omega⟩
/-- Axis of local index `k` of a group. -/
def axisAt (g : GroupId) (k : Fin 4) : AxisId := ⟨4 * g.val + k.val, by omega⟩
/-- Leg `k` of an axis: A+, A−, B+, B−. -/
def legOf (n : AxisId) (k : Fin 4) : LegId := ⟨4 * n.val + k.val, by omega⟩
/-- Leg `m` of a group. -/
def legAt (g : GroupId) (m : Fin 16) : LegId := ⟨16 * g.val + m.val, by omega⟩
/-- Coil A of an axis. -/
def coilA (n : AxisId) : CoilId := ⟨2 * n.val, by omega⟩
/-- Coil B of an axis. -/
def coilB (n : AxisId) : CoilId := ⟨2 * n.val + 1, by omega⟩
/-- Axis of a coil. -/
def axisOfCoil (c : CoilId) : AxisId := ⟨c.val / 2, by omega⟩
/-- Axis of a leg. -/
def axisOfLeg (m : LegId) : AxisId := ⟨m.val / 4, by omega⟩
/-- Coil of a leg. -/
def coilOfLeg (m : LegId) : CoilId := ⟨m.val / 2, by omega⟩
/-- Plus leg of a coil. -/
def legPlus (c : CoilId) : LegId := ⟨2 * c.val, by omega⟩
/-- Minus leg of a coil. -/
def legMinus (c : CoilId) : LegId := ⟨2 * c.val + 1, by omega⟩
/-- Group of a leg. -/
def groupOfLeg (m : LegId) : GroupId := ⟨m.val / 16, by omega⟩
/-- Converter of a coil: ADC-A for the local axes 0 and 1, ADC-B for 2 and 3. -/
def adcOf (c : CoilId) : AdcId := ⟨c.val / 4, by omega⟩
/-- Group of a converter. -/
def groupOfAdc (a : AdcId) : GroupId := ⟨a.val / 2, by omega⟩
/-- The four coils of a converter. -/
def adcCoil (a : AdcId) (k : Fin 4) : CoilId := ⟨4 * a.val + k.val, by omega⟩
/-- Coil `q` of a group. -/
def coilAt (g : GroupId) (q : Fin 8) : CoilId := ⟨8 * g.val + q.val, by omega⟩
/-- Every axis in ascending order. -/
def allAxes : List AxisId := List.finRange 48
/-- Every group in ascending order. -/
def allGroups : List GroupId := List.finRange 12
/-- The four axes of a group. -/
def groupAxes (g : GroupId) : List AxisId := (List.finRange 4).map (axisAt g)
/-- The four legs of an axis. -/
def axisLegs (n : AxisId) : List LegId := (List.finRange 4).map (legOf n)
/-- The odd axis of the pair of an axis. -/
def partnerOf (n : AxisId) : AxisId := ⟨2 * (n.val / 2) + 1, by omega⟩
/-- The even axis of the pair of an axis. -/
def leadOf (n : AxisId) : AxisId := ⟨2 * (n.val / 2), by omega⟩

/-! ### Updates of one unit -/

def State.modAxis (s : State) (n : AxisId) (f : Axis → Axis) : State := { s with axes := upd s.axes n f }
def State.modCfg (s : State) (n : AxisId) (f : AxisCfg → AxisCfg) : State := s.modAxis n fun a => { a with cfg := f a.cfg }
def State.modMot (s : State) (n : AxisId) (f : AxisMotion → AxisMotion) : State :=
  s.modAxis n fun a => { a with mot := f a.mot }
def State.modDrv (s : State) (n : AxisId) (f : AxisDrive → AxisDrive) : State := s.modAxis n fun a => { a with drv := f a.drv }
def State.modEnc (s : State) (n : AxisId) (f : AxisEnc → AxisEnc) : State := s.modAxis n fun a => { a with enc := f a.enc }
def State.modObs (s : State) (n : AxisId) (f : AxisObs → AxisObs) : State := s.modAxis n fun a => { a with obs := f a.obs }
def State.modProt (s : State) (n : AxisId) (f : AxisProt → AxisProt) : State :=
  s.modAxis n fun a => { a with prot := f a.prot }
def State.modCoil (s : State) (c : CoilId) (f : Coil → Coil) : State := { s with coils := upd s.coils c f }
def State.modLeg (s : State) (m : LegId) (f : Leg → Leg) : State := { s with legs := upd s.legs m f }
def State.modAdc (s : State) (a : AdcId) (f : Adc → Adc) : State := { s with adcs := upd s.adcs a f }
def State.modGroup (s : State) (g : GroupId) (f : Group → Group) : State := { s with groups := upd s.groups g f }
def State.modPin (s : State) (p : PinId) (f : Pin → Pin) : State := { s with pins := upd s.pins p f }
def State.modTable (s : State) (t : Fin 4) (f : MicroTable → MicroTable) : State := { s with tables := upd s.tables t f }

/-- The axis `n`. -/
def State.ax (s : State) (n : AxisId) : Axis := s.axes[n.val]
/-- The group `g`. -/
def State.grp (s : State) (g : GroupId) : Group := s.groups[g.val]
/-- The coil `c`. -/
def State.coil (s : State) (c : CoilId) : Coil := s.coils[c.val]
/-- The leg `m`. -/
def State.leg (s : State) (m : LegId) : Leg := s.legs[m.val]
/-- The converter `a`. -/
def State.adc (s : State) (a : AdcId) : Adc := s.adcs[a.val]
/-- The pin `p`. -/
def State.pin (s : State) (p : PinId) : Pin := s.pins[p.val]

/-- A unit-by-unit effect on every element of a list, in its order. -/
def State.forAll {α : Type} (s : State) (l : List α) (f : State → α → State) : State := l.foldl f s

/-! ### Time (R44, R56) -/

/-- Frame length in PWM ticks by FLEN code (R56); the reserved codes are never in force. -/
def frameTicks (c : BitVec 3) : Nat :=
  match c.toNat with
  | 0 => 4000
  | 1 => 5333
  | 2 => 6400
  | 4 => 10667
  | 5 => 16000
  | _ => 8000

/-- L in force. -/
def State.len (s : State) : Nat := frameTicks s.tb.flenEff
/-- PWM ticks of `x` milliseconds (R27). -/
def msTicks (x : Nat) : Nat := x * 320000
/-- Timestamp of the last boundary in 6.25 ns ticks (R44). -/
def State.stamp (s : State) : Nat := s.tb.tick / 2
/-- The frame number. -/
def State.frameNat (s : State) : Nat := s.tb.frame.toNat
/-- The M7 position at the last snapshot. -/
def State.m7 (s : State) : Int := s.tb.snap[7]

/-- The standstill time of M0 to M4 in timestamp ticks: TSTILL ms (R40, R44). -/
def State.tstillTicks (s : State) : Nat := bits s.tb.tbCfgEff 9 0 * 160000

/-- The last interval of an edge-counting master may be used: it is valid, and no longer than TSTILL (R44, R47). -/
def EdgeMaster.timed (e : EdgeMaster) (tstill : Nat) : Bool := e.dvalid && e.d ≠ 0 && e.d ≤ tstill

/-! ### Gang mode (R31, R32) -/

/-- The pair of axis `n` is ganged. -/
def State.ganged (s : State) (n : AxisId) : Bool :=
  let g := s.grp (groupOf n)
  if n.val % 4 < 2 then g.gang01 else g.gang23

/-- Axis `n` is a gang partner. -/
def State.isPartner (s : State) (n : AxisId) : Bool := n.val % 2 = 1 && s.ganged n

/-- The axis that commands the legs of `n`: the lead of a ganged pair, else `n`. -/
def State.driver (s : State) (n : AxisId) : AxisId := if s.ganged n then leadOf n else n

/-- The axes whose legs follow axis `n`. -/
def State.driven (s : State) (n : AxisId) : List AxisId := if s.ganged n then [leadOf n, partnerOf n] else [n]

/-! ### Shale entries and latched faults (R424, R425, R474, R509) -/

/-- A Shale entry joins the pending queue of 64; a further one is dropped and counted (R425). SEQ is given when it is
written. -/
def State.shale (s : State) (cls code src : Nat) (data : BitVec 24) : State :=
  if s.dev.shalePend.length < 64 then
    { s with dev := { s.dev with shalePend := s.dev.shalePend ++
      [{ cls := BitVec.ofNat 8 cls, code := BitVec.ofNat 8 code, seq := 0, poh := s.nvm.pohSaved,
         src := BitVec.ofNat 8 src, frame := s.tb.frame.setWidth 32, data := data }] } }
  else { s with dev := { s.dev with shaleDropped := s.dev.shaleDropped + 1 } }

/-- DATA of a Shale entry that names a page and a word; which bits hold which is a DESIGN CHOICE
(notes/assumptions/25.md). -/
def pageWord (page word : Nat) : BitVec 24 := BitVec.ofNat 24 (page * 256 + word)

/-- The Shale entry of an AXk_STAT flag (R424). -/
def State.shaleAxis (s : State) (n : AxisId) (flag : Nat) : State :=
  s.shale 5 flag n.val (BitVec.ofInt 24 ((s.ax n).mot.mProg / 65536))

/-- GRP_FAULT of a group (R509). -/
def State.grpFault (s : State) (g : GroupId) : Word :=
  let x := s.grp g
  let intlk := maskOf ((List.finRange 16).map fun m => (s.leg (legAt g m)).intlk)
  BitVec.ofNat 32 (intlk + x.faults.toNat * 2 ^ 16 + bit x.link * 2 ^ 24 + bit x.thermSticky * 2 ^ 25 + bit x.par * 2 ^ 26)

/-- The FAULT bit of the status word (R273). -/
def State.faultBit (s : State) : Bool := s.dev.gfault ≠ 0 || allGroups.any fun g => s.grpFault g ≠ 0

/-- The alert cause of a rising FAULT bit is latched, and pulls SBALRT low again where it was announced (R353, R354). -/
def State.noteFault (s : State) : State :=
  let f := s.faultBit
  let rise := f && !s.sb.faultSeen
  { s with sb := { s.sb with faultSeen := f, causes := if rise then s.sb.causes ||| 1 else s.sb.causes
                             announced := if rise then s.sb.announced &&& ~~~1 else s.sb.announced } }

/-- An alert cause is latched (R353). -/
def State.alert (s : State) (i : Nat) : State :=
  { s with sb := { s.sb with causes := s.sb.causes ||| BitVec.ofNat 6 (2 ^ i)
                             announced := s.sb.announced &&& ~~~ BitVec.ofNat 6 (2 ^ i) } }

/-- A GFAULT bit is set, with its Shale entry of class 0x07 (R424, R474). -/
def State.gfaultSet (s : State) (i : Nat) : State :=
  (State.noteFault { s with dev := { s.dev with gfault := s.dev.gfault ||| BitVec.ofNat 8 (2 ^ i) } }).shale 7 i 255
    (Config.shaleData 7)

/-- GRP_FAULT bits 16 to 23 are set, with a Shale entry of class 0x04 and the CODE given (R424, R509). -/
def State.grpFaultSet (s : State) (g : GroupId) (b : Nat) (code : Byte) : State :=
  (State.noteFault (s.modGroup g fun x => { x with faults := x.faults ||| BitVec.ofNat 8 (2 ^ b) })).shale 4 code.toNat g.val
    (pageWord (4 + g.val) 2)

/-- A programming or erase pulse may start: VDD is above the NVM write margin (R384, R545), which the model takes to hold while VDD is
valid (DEDUCED, notes/assumptions/96.md). -/
def State.marginOk (s : State) : Bool := s.sb.vdd

/-- A free value of the model's own counter (notes/assumptions/9.md). -/
def State.freeVal (s : State) : Int × State :=
  (Config.freeValue s.dev.free, { s with dev := { s.dev with free := s.dev.free + 1 } })

/-! ### Completions (R300 to R304, R311) -/

/-- The code of a status (R311). -/
def Status.code : Status → Byte
  | .ok => 0x00 | .stopped => 0x01 | .flushed => 0x02
  | .rejectOpcode => 0x10 | .rejectLength => 0x11 | .rejectParam => 0x12 | .rejectAxis => 0x13
  | .rejectOwner => 0x14 | .rejectState => 0x15 | .rejectKey => 0x16
  | .timeout => 0x20 | .driveFault => 0x21 | .stall => 0x22 | .limit => 0x23 | .homeLimit => 0x24
  | .swChatter => 0x25 | .unplugged => 0x26 | .safeOff => 0x27 | .thermal => 0x28 | .supply => 0x29
  | .integrityLost => 0x30 | .busy => 0x31

/-- The word that names no field (R302). -/
def noField : Word := 0xFFFFFFFF

/-- The completion request of HIRQ after a change of the ring (R305). -/
def Queues.request (q : Queues) : Queues :=
  { q with cplReq := !q.ring.isEmpty && (q.cplReq || q.thr.toNat ≤ q.ring.length) }

/-- Commands start: the module runs, dispatch is not suspended, and the module is not in SAFE_HOLD (R28, R276, R381, R390, R418). -/
def State.dispatching (s : State) : Bool := s.dev.stage = .running && !s.dev.suspended && !s.dev.safeHold

/-- An entry enters the ring, or the staging buffer while dispatch is suspended (R303, R420); in SAFE_HOLD the commands in flight do
not complete on the host port (R28, R276). -/
def State.pushEntry (s : State) (c : Completion) : State :=
  if s.dev.safeHold then s
  else if s.dev.suspended then { s with q := { s.q with staged := s.q.staged ++ [c] } }
  else { s with q := ({ s.q with ring := s.q.ring ++ [c] }).request }

/-- The result of a side-band command that acted at once (R350). -/
def State.sbResult (s : State) (r : Byte) : State :=
  { s with sb := { s.sb with result := r, pendAct := none, pendBank := false, pendWait := false } }

/-- A command completes: in your host's ring, as the side-band result, or unseen. -/
def State.complete (s : State) (ref : CmdRef) (st : Status) (flags axis : Byte) (mpos word : Word) : State :=
  match ref with
  | .host tag q => s.pushEntry ⟨tag, st, flags, axis, q, mpos, word, false⟩
  | .sideband => s.sbResult st.code
  | .internal => s

/-- Low 32 bits of the integer part of an axis's m_prog (R302). -/
def State.axMpos (s : State) (n : AxisId) : Word := mpos32 (s.ax n).mot.mProg

/-- MPOS of a group broadcast or a module command (R302). -/
def State.m7pos (s : State) : Word := mpos32 s.m7

/-- The byte an axis has in a completion entry. -/
def axByte (n : AxisId) : Byte := BitVec.ofNat 8 n.val

/-- FLAGS of a segment (R301), with POSITION_UNSURE by R239. -/
def segFlagByte (f : SegFlags) (unsure : Bool) : Byte :=
  BitVec.ofNat 8 (bit f.accelClamped + 2 * bit f.blendDropped + 4 * bit f.headDelayed + 8 * bit unsure + 16 * bit f.calForced)

/-! ### Actions: commands whose completion waits for axes (R304) -/

/-- A new action; its number is the counter before. -/
def State.addAction (s : State) (ref : CmdRef) (axisByte : Byte) (kind : ActKind) (wait : List AxisId) : State :=
  { s with q := { s.q with
      actions := s.q.actions ++ [⟨s.q.nextAct, ref, axisByte, kind, wait, [], 0, 0⟩]
      nextAct := s.q.nextAct + 1 } }

/-- An action completes with the status and word of R304, and leaves the list. -/
def State.finishAction (s : State) (a : Action) : State :=
  let s1 := { s with q := { s.q with actions := s.q.actions.filter fun b => b.id ≠ a.id } }
  let bad := a.outs.filter fun o => o.status ≠ .ok
  let worst := bad.foldl (fun (w : Option AxisOutcome) o => match w with
    | none => some o
    | some p => if o.axis < p.axis then some o else some p) none
  let word := match a.kind with
    | .stop | .quickstop | .disable | .stopAll => BitVec.ofNat 32 a.count
    | .diagnose => a.outs.foldl (fun w o => w ||| o.word) 0
    | _ => (0 : Word)
  let single : Option AxisOutcome := if a.axisByte.toNat < 48 then a.outs.head? else none
  let mp := match single with
    | some o => o.mpos.getD (s.axMpos o.axis)
    | none => s.m7pos
  let (st, ab, w) := match worst with
    | some o => (o.status, axByte o.axis, o.word)
    | none => (Status.ok, a.axisByte, word)
  match a.ref with
  | .sideband =>
    if s1.sb.pendAct = some a.id then (s1.sbResult st.code).alert 5 else s1
  | r => s1.complete r st a.flags ab mp w

/-- One axis of an action has ended with the outcome given; the action completes with its last axis (R304). -/
def State.actionAxis (s : State) (id : Nat) (o : AxisOutcome) (count : Nat) (clamped : Bool) : State :=
  match s.q.actions.find? fun a => a.id = id with
  | none => s
  | some a =>
    if a.wait.contains o.axis then
      let a' := { a with wait := a.wait.erase o.axis, outs := a.outs ++ [o], count := a.count + count,
                         flags := if clamped then a.flags ||| 1 else a.flags }
      let s1 := { s with q := { s.q with actions := s.q.actions.map fun b => if b.id = id then a' else b } }
      if a'.wait.isEmpty then s1.finishAction a' else s1
    else s

/-- The actions of the kinds given that wait for an axis, in their order. -/
def State.waitingActs (s : State) (n : AxisId) (kinds : List ActKind) : List Action :=
  s.q.actions.filter fun a => kinds.contains a.kind && a.wait.contains n

/-- The axis leaves every action of the kinds given with the same outcome. -/
def State.endActs (s : State) (n : AxisId) (kinds : List ActKind) (st : Status) (word : Word) (count : Nat) : State :=
  s.forAll (s.waitingActs n kinds) fun s a => s.actionAxis a.id ⟨n, st, word, none⟩ count false

end Sys2Proof.Machine
end

