-- ==== Sys2Proof/Machine/Operands.lean ====
section
/-! DEFINITION. Operand forms: the bytes that a host-port frame carries (R268, R269, R272), packet headers (R289, R290), routing
entries (R112) and the forms in which an axis or a register is named. -/
namespace Sys2Proof.Machine
open Sys2Proof

/-! ### Lanes and bytes of the host port (R269, R272) -/

/-- The levels of `n` lanes at the sampling edges of one byte: bit 7 first, the highest lane with the highest bit (R269). -/
def lanesOfByte (n : Nat) (b : Byte) : List (BitVec 8) :=
  (List.range (8 / n)).map fun e => BitVec.ofNat 8 (b.toNat / 2 ^ (8 - n * (e + 1)) % 2 ^ n)

/-- The byte that `n` lanes carry from the first of some edges on; lanes outside the width are ignored (R269, R270). -/
def byteOfLanes (n : Nat) (l : List (BitVec 8)) : Byte :=
  BitVec.ofNat 8 ((List.range (8 / n)).foldl (fun a e => a * 2 ^ n + (l.getD e 0).toNat % 2 ^ n) 0)

/-- The `k` bytes that `n` lanes carry in succession (R269). -/
def bytesOfLanes (n k : Nat) (l : List (BitVec 8)) : List Byte :=
  (List.range k).map fun i => byteOfLanes n (l.drop (8 / n * i))

/-- The operation of a frame (R272). -/
inductive FrameOp where
  | read | write | push | pull
deriving DecidableEq, Repr

/-- OP of a command byte, bits [7:6] (R272). -/
def opOfCommand (c : Byte) : FrameOp :=
  match c.toNat / 64 with
  | 0 => .read
  | 1 => .write
  | 2 => .push
  | _ => .pull

end Sys2Proof.Machine

namespace Sys2Proof
open Sys2Proof.Machine

/-- The sampling edges clocked in a frame, all phases counted (R268). -/
def HostFrame.edges (f : HostFrame) : Nat := f.levels.length

/-- The command byte, on HD1 and HD0 at edges 1 to 4 (R268, R272). -/
def HostFrame.command (f : HostFrame) : Byte := byteOfLanes 2 f.levels

/-- The address byte, on HD1 and HD0 at edges 5 to 8 (R268, R272). -/
def HostFrame.addr (f : HostFrame) : Byte := byteOfLanes 2 (f.levels.drop 4)

/-- OP (R272). -/
def HostFrame.op (f : HostFrame) : FrameOp := opOfCommand f.command

/-- LANES, bits [5:4] of the command byte: 0, 1, 2 for 2, 4, 8 lanes; 3 is reserved (R272). -/
def HostFrame.lanes (f : HostFrame) : BitVec 2 := (f.command >>> 4).setWidth 2

/-- PQ, bits [3:0] of the command byte (R272). -/
def HostFrame.pq (f : HostFrame) : BitVec 4 := f.command.setWidth 4

end Sys2Proof

namespace Sys2Proof.Machine
open Sys2Proof

/-! ### Packet header (R289, R290) -/

/-- OPC. -/
def Packet.opc (p : Packet) : Nat := (byteAt p.bytes 0).toNat
/-- FLAGS. -/
def Packet.flags (p : Packet) : Byte := byteAt p.bytes 1
/-- TAG. -/
def Packet.tag (p : Packet) : BitVec 16 := BitVec.ofNat 16 (uAt p.bytes 2 2)
/-- AXIS. -/
def Packet.axis (p : Packet) : Byte := byteAt p.bytes 4
/-- SLOTS. -/
def Packet.slots (p : Packet) : Nat := (byteAt p.bytes 5).toNat
/-- PLEN. -/
def Packet.plen (p : Packet) : Nat := (byteAt p.bytes 6).toNat
/-- DEADLINE. -/
def Packet.deadline (p : Packet) : Word := wordAt p.bytes 8
/-- BATCH. -/
def Packet.batch (p : Packet) : BitVec 16 := BitVec.ofNat 16 (uAt p.bytes 12 2)
/-- GROUP of FLAGS. -/
def Packet.group (p : Packet) : Nat := p.flags.toNat % 16
/-- FLUSH of FLAGS. -/
def Packet.flush (p : Packet) : Bool := p.flags.getLsbD 5
/-- OVERLAP of FLAGS. -/
def Packet.overlap (p : Packet) : Bool := p.flags.getLsbD 6
/-- BARRIER of FLAGS; ignored on Q0 (R298). -/
def Packet.barrier (p : Packet) : Bool := p.flags.getLsbD 7 && p.queue ≠ 0
/-- The parameter area from packet offset 16. -/
def Packet.params (p : Packet) : List Byte := p.bytes.drop 16
/-- The reference under which the packet is answered. -/
def Packet.ref (p : Packet) : CmdRef := .host p.tag (BitVec.ofNat 4 p.queue.val)

/-- The axis a byte names, when it is a single axis. -/
def axisOfByte (b : Byte) : Option AxisId := if h : b.toNat < 48 then some ⟨b.toNat, h⟩ else none

/-- The group a broadcast names. -/
def Packet.groupId (p : Packet) : Option GroupId := if h : p.group < 12 then some ⟨p.group, h⟩ else none

/-- The axes a packet addresses: one axis, or every axis of its group that is no gang partner (R304). -/
def State.addressed (s : State) (p : Packet) : List AxisId :=
  match axisOfByte p.axis with
  | some n => [n]
  | none =>
    match p.groupId with
    | some g => if p.axis = 0xFE then (groupAxes g).filter fun n => !s.isPartner n else []
    | none => []

/-! ### Routing entries (R112) and the levels of pins (R111 to R125) -/

/-- AXIS of a routing entry. -/
def entryAxis (e : Word) : Nat := bits e 6 0
/-- FUNC. -/
def entryFunc (e : Word) : Nat := bits e 11 8
/-- DEB in ms. -/
def entryDeb (e : Word) : Nat := bits e 15 12
/-- INV. -/
def entryInv (e : Word) : Bool := bitOf e 16
/-- PARAM. -/
def entryParam (e : Word) : Nat := bits e 31 24

/-- FUNC of a routed pin; 0 when it is unrouted. -/
def Pin.func (p : Pin) : Nat := if entryAxis p.entry < 48 then entryFunc p.entry else 0
/-- The pin serves axis `n`. -/
def Pin.serves (p : Pin) (n : AxisId) : Bool := entryAxis p.entry = n.val
/-- The axis a routed pin serves. -/
def Pin.axis? (p : Pin) : Option AxisId := if h : entryAxis p.entry < 48 then some ⟨entryAxis p.entry, h⟩ else none
/-- The qualified level, as step 3 has last acted on it, is the active one (INV of R112). -/
def Pin.level (p : Pin) : Bool := p.acted != entryInv p.entry

/-- Whether an input acts as active, with the treatment of a chattering pin (R118). -/
def Pin.isOn (p : Pin) : Bool :=
  match p.func with
  | 5 | 6 | 7 | 8 => p.level || p.chatter
  | 9 | 10 | 11 => p.level && !p.chatter
  | _ => p.level

/-- Every pin in ascending order. -/
def allPins : List PinId := List.finRange 96

/-- The pins of axis `n` whose function passes. -/
def State.pinsOf (s : State) (n : AxisId) (f : Nat → Bool) : List PinId :=
  allPins.filter fun p => (s.pin p).serves n && f (s.pin p).func

/-- Functions that are the low limit (R112). -/
def isLowLimit (f : Nat) : Bool := f = 5 || f = 7
/-- Functions that are the high limit (R112). -/
def isHighLimit (f : Nat) : Bool := f = 6 || f = 8
/-- Functions that are a home switch (R112). -/
def isHome (f : Nat) : Bool := f = 4 || f = 7 || f = 8
/-- Functions that are an output (R119). -/
def isOutput (f : Nat) : Bool := f = 13 || f = 14 || f = 15
/-- Functions of the axis encoder (R114). -/
def isEncoder (f : Nat) : Bool := f = 1 || f = 2 || f = 3

/-- The limit of axis `n` toward the sign of `d` is active (R123). -/
def State.limitOn (s : State) (n : AxisId) (d : Int) : Bool :=
  (s.pinsOf n (if 0 < d then isHighLimit else isLowLimit)).any fun p => (s.pin p).isOn

/-- WORD of LIMIT (R327). -/
def State.limitWord (s : State) (n : AxisId) : Word := BitVec.ofNat 32 (bit (s.limitOn n (-1)) + 2 * bit (s.limitOn n 1))

/-- The home switch of an axis: the first pin routed with function 4, 7 or 8. -/
def State.homePin (s : State) (n : AxisId) : Option PinId := (s.pinsOf n isHome).head?

/-- Whether the jog button toward the sign of `d` is pressed (R134). -/
def State.button (s : State) (n : AxisId) (d : Int) : Bool :=
  (s.pinsOf n fun f => f = (if 0 < d then 9 else 10)).any fun p => (s.pin p).isOn

/-- An encoder is routed to the axis (R114). -/
def State.hasEncoder (s : State) (n : AxisId) : Bool := !(s.pinsOf n isEncoder).isEmpty

/-- The brake pins of an axis. -/
def State.brakePins (s : State) (n : AxisId) : List PinId := s.pinsOf n (· = 13)

/-- PARAM ms of the axis's brake: the longest, when several pins are routed; none without a brake. -/
def State.brakeMs (s : State) (n : AxisId) : Option Nat :=
  match s.brakePins n with
  | [] => none
  | l => some ((l.map fun p => entryParam (s.pin p).entry).foldl max 0)

/-! ### A streaming recipe ends (R331) -/

/-- The tag of record `i` of a stream (R331). -/
def Stream.tag (st : Stream) (i : Nat) : BitVec 16 := BitVec.ofNat 16 (st.tagBase + i)

/-- A command reference's queue; 0 for none. -/
def CmdRef.queue : CmdRef → BitVec 4
  | .host _ q => q
  | .sideband => 0
  | .internal => 0

/-- The reserved tags that a recipe of `n` segments does not use cease to be live (R331). -/
def State.freeTags (s : State) (st : Stream) (n : Nat) : State :=
  { s with q := { s.q with live := s.q.live.filter fun (t : BitVec 16 × BitVec 4 × Byte) =>
    !(st.tagBase + n ≤ t.1.toNat && t.1.toNat < st.tagBase + st.maxSeg) } }

/-- A running stream ends: every unwritten segment completes FLUSHED, and so does LOAD_LIBRARY with the number written (R331). -/
def State.endStream (s : State) : State :=
  match s.mp.stream with
  | none => s
  | some st =>
    let s1 : State := { s with mp := { s.mp with stream := none } }
    let n := st.written + st.records.length
    let s2 := s1.forAll ((List.range st.records.length).zip st.records) fun s r =>
      let mp := match axisOfByte r.2.axis with
        | some a => s.axMpos a
        | none => s.m7pos
      s.complete (.host (st.tag (st.written + r.1)) st.ref.queue) .flushed 0 r.2.axis mp 0
    (s2.complete st.ref .flushed 0 0xFF s.m7pos (BitVec.ofNat 32 st.written)).freeTags st n

/-- A stream ends when one of its axes is flushed (R331). -/
def State.endStreamOn (s : State) (l : List AxisId) : State :=
  match s.mp.stream with
  | none => s
  | some st => if st.axes.any fun n => l.contains n then s.endStream else s

end Sys2Proof.Machine
end

