-- ==== Sys2Proof/Machine/Motion.lean ====
section
/-! DEFINITION. Evaluation, ends, stops and batches of running segments (03_motion_segments.md). -/
namespace Sys2Proof.Machine
open Sys2Proof

/-! ### Evaluation at a snapshot (R85, R92, R100, R107) -/

/-- Position and velocity of phases at the offset `x` from MS (R85, R92). -/
def evalPhases (ps : Int) (l : List Phase) (target : Option Int) (unbounded : Bool) (x : Int) : Int × Int :=
  match findPhase l (max x 0) with
  | some (ph, y) => (phaseP ph y, phaseV ph y)
  | none =>
    match l.getLast? with
    | some ph =>
      if unbounded then
        let y := max x 0 - ((totalLen l : Int) - ph.len) * 65536
        (phaseP ph y, phaseV ph y)
      else (target.getD (endPos ps l), 0)
    | none => (target.getD ps, 0)

/-- The master position a run is measured against: M7 for a TIMED HOLD, else m_prog (R93). -/
def Run.at (r : Run) (m m7 : Int) : Int := if r.onM7 then m7 else m

/-- Position and velocity of a running segment. -/
def Run.eval (r : Run) (m m7 : Int) : Int × Int := evalPhases r.ps r.phases r.target r.unbounded (r.at m m7 - r.ms)

/-- The BIDIR flag of a running GEAR (R51). -/
def Run.bidir (r : Run) : Bool :=
  match r.seg.kind with
  | .gear _ _ _ _ b => b
  | _ => false

/-- The T of a run as a position (R104). -/
def Run.tailPos (r : Run) : Int := r.ms / 65536 + tailOffset r.phases

/-- The position at which a run comes to rest (R77). -/
def Run.restAt (r : Run) : Int := r.target.getD (endPos r.ps r.phases)

/-- Position and velocity of a stop in progress (R96, R97). -/
def StopMotion.eval (t : StopMotion) (m m7 : Int) : Int × Int :=
  evalPhases t.ps t.phases none false ((if t.onM7 then m7 else m) - t.ms)

/-- Position and velocity of a jog (R134). -/
def Jog.eval (j : Jog) (m7 : Int) : Int × Int := evalPhases j.ps j.phases none true (m7 - j.ms)

/-- Position and velocity of an axis with m_prog `m` and M7 at `m7` (R85, R100). -/
def AxisMotion.eval (a : AxisMotion) (m m7 : Int) : Int × Int :=
  match a.stop, a.jog, a.runs with
  | some t, _, _ => t.eval m m7
  | none, some j, _ => j.eval m7
  | none, none, [] => (a.pos, 0)
  | none, none, [r] => r.eval m m7
  | none, none, r1 :: r2 :: _ =>
    let e1 := r1.eval m m7
    let e2 := r2.eval m m7
    (e1.1 + (e2.1 - r2.ps), e1.2 + e2.2)

/-- The most an output position advances in one frame (R107); in SERVICE the jog speed limits all motion (R134,
DEDUCED, notes/assumptions/26.md). -/
def State.outLimit (s : State) (n : AxisId) : Int :=
  let lim : Int := (s.len : Int) * 2 ^ 46 / 320000000
  if s.nvm.lc = .service then min lim ((s.ax n).cfg.jogv * s.len / (320 * 2 ^ 16)) else lim

/-- The output position of the frame: the evaluation, limited against the output of the frame before (R107). -/
def AxisMotion.follow (a : AxisMotion) (lim : Int) : AxisMotion :=
  let base := a.outHist.headD a.out
  let o := base + limitMag lim (a.pos - base)
  { a with out := o, overspeed := o ≠ a.pos }

/-- The axis is evaluated anew at the present snapshot (R19, R85); held by a retry it keeps what it had (R253). -/
def State.reeval (s : State) (n : AxisId) : State :=
  let a := (s.ax n).mot
  if a.held.isSome then s
  else
    let (p, v) := a.eval a.mProg s.m7
    s.modMot n fun a => { a with pos := p, vel := v }.follow (s.outLimit n)

/-- A limit pin the retry of an axis holds: the axis is at rest. -/
def AxisMotion.atRest (a : AxisMotion) : Bool := a.runs.isEmpty && a.stop.isNone && a.jog.isNone

/-! ### Batches (R103 to R105) -/

/-- Whether bit `n` of a mask is set. -/
def inMask (m : BitVec 48) (n : AxisId) : Bool := m.getLsbD n.val

/-- The T and E of a member are recorded (R104). -/
def State.memberEnds (s : State) (n : AxisId) (id : BitVec 16) (t e : Int) : State :=
  if id = 0 then s
  else { s with q := { s.q with batches := s.q.batches.map fun b =>
    if b.id = id && !(b.ends.any fun x => x.1 = n) then
      { b with tails := if b.tails.any fun x => x.1 = n then b.tails else b.tails ++ [(n, t)], ends := b.ends ++ [(n, e)] }
    else b } }

/-- The T of a member becomes known before its E: a TIMED HOLD (R104). -/
def State.memberTail (s : State) (n : AxisId) (id : BitVec 16) (t : Int) : State :=
  if id = 0 then s
  else { s with q := { s.q with batches := s.q.batches.map fun b =>
    if b.id = id then { b with tails := b.tails ++ [(n, t)] } else b } }

/-- Every member of a batch has completed. -/
def Batch.done (b : Batch) : Bool := allAxes.all fun n => !inMask b.mask n || b.ends.any fun x => x.1 = n

/-- Batches whose members have completed and that no live batch names leave the table (R104); `k` rounds. -/
def reapBatches : Nat → List Batch → List Batch
  | 0, l => l
  | k + 1, l => reapBatches k (l.filter fun b => !b.done || l.any fun c => c.pred = b.id && c.id ≠ b.id)

/-- The batch table after members have completed. -/
def State.reap (s : State) : State := { s with q := { s.q with batches := reapBatches 64 s.q.batches } }

/-- T and E of axis `n` as a member of `b`, each where it is known: recorded, or by the plan of a running segment that is
neither being stopped nor held by a retry, whose end moves later with it (R104, R253). -/
def State.memberTE (s : State) (b : Batch) (n : AxisId) : Option Int × Option Int :=
  let a := (s.ax n).mot
  let rt := (b.tails.find? fun x => x.1 = n).map (·.2)
  let re := (b.ends.find? fun x => x.1 = n).map (·.2)
  match a.runs.find? fun r => r.seg.batch = b.id with
  | some r =>
    if r.onM7 then (rt, re)
    else
      if a.stop.isSome || a.held.isSome then (if r.tailSeen then some r.tailPos else none, none)
      else (some r.tailPos, some (r.ms / 65536 + totalLen r.phases))
  | none => (rt, re)

/-- A position of another axis of the same master, in the count of an axis whose m_prog is `m` mc: where the 48-bit count has wrapped
between them, the same point of the master (R38). -/
def nearCount (m x : Int) : Int := m + wrapS 48 (x - m)

/-- The head permission point of a batch for an axis whose m_prog is `m`: none while it is not known, `some none` when
there is no condition (R104). -/
def State.permission (s : State) (b : Batch) (m : Int) : Option (Option Int) :=
  let st := b.start.map (near32 m)
  match s.q.batches.find? fun k => k.id = b.pred && b.pred ≠ 0 with
  | none => some st
  | some k =>
    let te := (allAxes.filter (inMask k.mask)).map (s.memberTE k)
    if te.all fun x => x.1.isSome && x.2.isSome then
      let ts := te.filterMap (·.1)
      let es := te.filterMap (·.2)
      let ts := ts ++ k.emptyAt.toList
      let es := (es ++ k.emptyAt.toList).map (nearCount m)
      let l := st.toList ++ ts.map (nearCount m) ++ (if b.ovlMax = 0xFFFFFFFF then [] else es.map (· - (b.ovlMax.toNat : Int)))
      some (l.foldl (fun (w : Option Int) x => some (match w with | none => x | some y => max x y)) none)
    else none

/-- A live batch is closed at a snapshot (R105). -/
def State.closeBatch (s : State) (id : BitVec 16) : State :=
  State.reap { s with q := { s.q with batches := s.q.batches.map fun b =>
    if b.id = id then
      let m := b.mask &&& b.contributed
      { b with mask := m, closed := true
               emptyAt := if m = 0 then some ((s.tb.snap[b.master.val]) / 65536) else b.emptyAt }
    else b } }

/-! ### Completions of segments (R77, R78, R239, R323) -/

/-- The output position as signed Q24.8, floor, saturating (R323). -/
def outWord (out : Int) : Word := loWord (limitMag (2 ^ 31 - 1) (out / 65536))

/-- A segment of an axis completes: FLAGS by R301 and R239, WORD by R323, and its batch learns T and E. -/
def State.completeSeg (s : State) (n : AxisId) (g : Segment) (st : Status) (mpos : Word) (word : Option Word) (delay : Nat)
    (t e : Int) : State :=
  let a := (s.ax n).mot
  let w := if g.flags.headDelayed then BitVec.ofNat 32 delay else word.getD (outWord a.out)
  ((s.memberEnds n g.batch t e).complete g.ref st (segFlagByte g.flags a.unsure) (axByte n) mpos w).reap

/-- Every queued segment of an axis completes with the status given, in queue order (R78, R98); one whose descriptor has failed,
with INTEGRITY_LOST (R411). -/
def State.flushQueue (s : State) (n : AxisId) (st : Status) : State :=
  let a := (s.ax n).mot
  let m := a.mProg / 65536
  a.queue.foldl (fun s g =>
    let (st', w) := if g.lost then (Status.integrityLost, some (0x13 : Word)) else (st, none)
    s.completeSeg n g st' (mpos32 a.mProg) w (Config.heldDelay a.mProg) m m) (s.modMot n fun a => { a with queue := [] })

/-- Direction of a run (R81). -/
def Run.dir (r : Run) : Int := segDir r.seg.kind r.ps

/-- Whether a run has used up its phases at the snapshot (R77); a HOME and an unbounded cruise do not end so. -/
def Run.over (r : Run) (m m7 : Int) : Bool :=
  match r.seg.kind with
  | .home _ _ _ _ _ _ _ _ => false
  | _ => !r.unbounded && (totalLen r.phases : Int) * 65536 ≤ r.at m m7 - r.ms

/-- T and E of a run that completes at `e`, with m_prog at `m`: its tail start, when it has entered its tail, and `e`; else the integer
part of m_prog for both (R104). `live`: it runs by its own phases up to this snapshot. -/
def Run.endsAt (r : Run) (live : Bool) (m e : Int) : Int × Int :=
  if r.onM7 then (e, e)
  else if r.tailSeen || (live && r.tailPos * 65536 ≤ m) then (r.tailPos, e)
  else (m / 65536, m / 65536)

/-- MPOS of a segment that ends at `e` with m_prog at `m`: E, but for a VELOCITY, which carries m_prog (R77, R322). -/
def SegKind.endMpos (k : SegKind) (e m : Int) : Word :=
  match k with
  | .velocity .. => mpos32 m
  | .moveAbs .. => loWord e
  | .moveRel .. => loWord e
  | .gear .. => loWord e
  | .dose .. => loWord e
  | .hold .. => loWord e
  | .home .. => loWord e

/-- The types of segment that may carry OVERLAP, or blend behind one that does (R100). -/
def SegKind.blends : SegKind → Bool
  | .moveAbs .. => true
  | .moveRel .. => true
  | .gear .. => true
  | .dose .. => true
  | .velocity .. => false
  | .hold .. => false
  | .home .. => false

/-- `g` may blend behind the run `r`: OVERLAP, both of the four types, and the same direction (R100). -/
def Run.fits (r : Run) (g : Segment) : Bool :=
  r.seg.overlap && r.seg.kind.blends && g.kind.blends && segDir g.kind r.restAt = r.dir

/-- A descriptor was written before the snapshot at which the tail of `r` starts (R100). -/
def Run.foundInTime (r : Run) (g : Segment) : Bool := g.blendOk || (g.seen && !r.tailSeen)

/-- The successor queued behind `r`, where it may blend (R100). -/
def AxisMotion.successor (a : AxisMotion) (r : Run) : Option Segment := a.queue.head?.filter fun g => r.fits g && r.foundInTime g

/-- BLEND_DROPPED for the last run of an axis: a successor is queued behind it and does not meet the conditions of R100 (R101). One
that meets them and is only held back by its declared start, its batch or the governor has dropped nothing (DEDUCED,
notes/assumptions/102.md). -/
def AxisMotion.dropsBlend (a : AxisMotion) (r : Run) : Bool :=
  r.seg.overlap && !r.blended && (a.queue.head?.map (·.seen)).getD false && (a.successor r).isNone

/-- The same of a run of an axis that has been stopped: the last of its runs (R101). -/
def Run.dropsWith (r : Run) (a : AxisMotion) : Bool := a.runs.getLast? = some r && a.dropsBlend r

/-- The first run of an axis ends at the present snapshot (R77, R101). -/
def State.endFirst (s : State) (n : AxisId) (r : Run) (rest : List Run) : State :=
  let a := (s.ax n).mot
  let m := a.mProg
  let away := r.onM7 && a.master ≠ 7
  let e := if away then m / 65536 else r.ms / 65536 + totalLen r.phases
  let dropped := rest.isEmpty && a.dropsBlend r
  let g := { r.seg with flags := { r.seg.flags with blendDropped := r.seg.flags.blendDropped || dropped } }
  let d := match r.seg.kind with
    | .hold _ _ => (a.lastEnd.map (·.dir)).getD 0
    | _ => r.dir
  let fin := (r.eval m s.m7).1
  let s1 := s.modMot n fun a =>
    { a with runs := rest, pos := if rest.isEmpty then fin else a.pos
             lastEnd := some { e := if away then none else some e, dir := d, snaps := 0, onM7 := away
                               blendAt := if rest.isEmpty && !r.blended then (a.successor r).map fun _ => r.tailPos else none } }
  let (st, w) := r.decided.getD (.ok, none)
  let te := r.endsAt true m e
  s1.completeSeg n g st (g.kind.endMpos e m) w r.delay te.1 te.2

/-- A run and its target move by `d`: what its blended successor has travelled stays with it (R84, R100). -/
def Run.carry (r : Run) (d : Int) : Run :=
  { r with
    ps := r.ps + d, phases := r.phases.map fun ph => { ph with p0 := ph.p0 + d }, target := r.target.map (· + d), blended := true
    seg := { r.seg with kind := match r.seg.kind with
      | .moveAbs t v ah at' lj => .moveAbs (t + d) v ah at' lj
      | k => k } }

/-- The second run of a blend ends before the first: it completes at its own first snapshot, and the first goes on from the end
position it leaves (R77, R100). -/
def State.endSecond (s : State) (n : AxisId) (r r2 : Run) : State :=
  let a := (s.ax n).mot
  let e := r2.ms / 65536 + totalLen r2.phases
  let g := { r2.seg with flags := { r2.seg.flags with blendDropped := r2.seg.flags.blendDropped || a.dropsBlend r2 } }
  let s1 := s.modMot n fun a => { a with runs := [r.carry (r2.restAt - r2.ps)] }
  let (st, w) := r2.decided.getD (.ok, none)
  let te := r2.endsAt true a.mProg e
  s1.completeSeg n g st (g.kind.endMpos e a.mProg) w r2.delay te.1 te.2

/-- Both runs of a blend end at the present snapshot; a third segment starts no earlier than the end of the first (R77, R102). -/
def State.endBoth (s : State) (n : AxisId) (r r2 : Run) : State :=
  let e := r.ms / 65536 + totalLen r.phases
  ((s.endFirst n r [r2]).endFirst n r2 []).modMot n fun a =>
    { a with lastEnd := a.lastEnd.map fun l => { l with e := l.e.map (max e), blendAt := l.blendAt.map (max e) } }

/-- How many of some runs complete STOPPED. -/
def stoppedCount (runs : List Run) (st : Status) : Nat := (runs.filter fun r => ((r.decided.map (·.1)).getD st) = .stopped).length

/-- The segments that completed STOPPED are counted for a DISABLE that waits for the axis. -/
def State.countDisable (s : State) (n : AxisId) (k : Nat) : State :=
  { s with q := { s.q with actions := s.q.actions.map fun a =>
    if a.kind = .disable && a.wait.contains n then { a with count := a.count + k } else a } }

/-- The stop of an axis has run out: its segments complete with what was decided, else STOPPED, its jog ends, and the
commands that wait for the rest complete (R96, R97, R135, R238). -/
def State.endStop (s : State) (n : AxisId) (t : StopMotion) : State :=
  let a := (s.ax n).mot
  let away := t.onM7 && a.master ≠ 7
  let e := if away then a.mProg / 65536 else t.ms / 65536 + totalLen t.phases
  let d := match t.phases.head? with
    | some ph => sgn ph.v0
    | none => (a.runs.head?.map Run.dir).getD 0
  let fin := endPos t.ps t.phases
  let s1 := s.modMot n fun a =>
    { a with runs := [], stop := none, jog := none, pos := fin, vel := 0
             lastEnd := some { e := if away then none else some e, dir := d, snaps := 0, onM7 := away && !a.runs.isEmpty } }
  let s2 := s1.forAll a.runs fun s r =>
    let dropped := r.dropsWith a
    let g := { r.seg with flags := { r.seg.flags with accelClamped := r.seg.flags.accelClamped || t.clamped
                                                      blendDropped := r.seg.flags.blendDropped || dropped } }
    let (st, w) := r.decided.getD (.stopped, none)
    let te := r.endsAt false a.mProg e
    s.completeSeg n g st (g.kind.endMpos e a.mProg) w r.delay te.1 te.2
  let bad := a.runs.any fun r => match r.decided with
    | some (st, _) => st ≠ .ok && st ≠ .stopped
    | none => false
  let cnt := stoppedCount a.runs .stopped
  let s3 := (if bad then s2.flushQueue n .flushed else s2).countDisable n cnt
  s3.forAll (s3.waitingActs n [.stop, .quickstop, .stopAll]) fun s c =>
    s.actionAxis c.id ⟨n, .ok, 0, none⟩ (if c.kind = .stopAll then 0 else cnt) (t.clamped && t.byAct = some c.id)

/-- Whatever of an axis ends at the present snapshot does so (R77, R96). -/
def State.endDone (s : State) (n : AxisId) : State :=
  let a := (s.ax n).mot
  if a.held.isSome then s
  else
    match a.stop with
    | some t =>
      if (totalLen t.phases : Int) * 65536 ≤ (if t.onM7 then s.m7 else a.mProg) - t.ms then s.endStop n t else s
    | none =>
      match a.runs with
      | [] => s
      | [r] => if r.over a.mProg s.m7 then s.endFirst n r [] else s
      | r :: r2 :: _ =>
        match r.over a.mProg s.m7, r2.over a.mProg s.m7 with
        | true, true => s.endBoth n r r2
        | true, false => s.endFirst n r [r2]
        | false, true => s.endSecond n r r2
        | false, false => s

/-! ### Stops (R96 to R99, R547) -/

/-- The velocity `v` of an axis in µsteps/µs at the present snapshot (R97). -/
def State.perMicro (s : State) (n : AxisId) (v : Int) : Int :=
  match (s.ax n).mot.master.val with
  | 5 => v * s.tb.virt[0].rate / 256000000
  | 6 => v * s.tb.virt[1].rate / 256000000
  | 7 => v
  | k =>
    if h : k < 5 then
      let e := s.tb.edge[k]
      if e.timed s.tstillTicks && !e.still then v * 160 / (e.d : Int) else 0
    else v

/-- Deceleration and jerk length with which an axis stops by R96. -/
def Axis.stopRate (a : Axis) : Int × Nat :=
  match a.mot.runs.head? with
  | some r => r.seg.kind.stopRate.getD (a.cfg.qsdec, 0)
  | none => (a.cfg.joga, 0)

/-- What is running on an axis is marked with a status where none has been decided (R238). -/
def Run.decide (r : Run) (st : Status × Option Word) : Run :=
  match r.decided with
  | some _ => r
  | none => { r with decided := some st }

/-- The tails that m_prog has reached are marked: what stood behind the last of them by then may blend (R100, R104). -/
def AxisMotion.markTails (a : AxisMotion) (m7 : Int) : AxisMotion :=
  if a.stop.isSome || a.held.isSome then a
  else
    let inTail := fun (r : Run) => !r.unbounded && r.tailPos * 65536 ≤ r.at a.mProg m7
    let lastNew := match a.runs.getLast? with
      | some r => inTail r && !r.tailSeen
      | none => false
    { a with
      runs := a.runs.map fun r => { r with tailSeen := r.tailSeen || inTail r }
      queue := match a.queue with
        | g :: rest => { g with blendOk := g.blendOk || (lastNew && g.seen) } :: rest
        | [] => [] }

/-- A running HOLD completes at once when it is stopped (R96). -/
def State.stopHold (s : State) (n : AxisId) (r : Run) (st : Status) (w : Option Word) : State :=
  let a := (s.ax n).mot
  let m := a.mProg / 65536
  let s1 := s.modMot n fun a => { a with runs := [], lastEnd := some { e := some m, dir := (a.lastEnd.map (·.dir)).getD 0, snaps := 0 } }
  let te := r.endsAt true a.mProg m
  let s2 := s1.completeSeg n r.seg st (mpos32 a.mProg) w r.delay te.1 te.2
  if st ≠ .ok ∧ st ≠ .stopped then s2.flushQueue n .flushed else s2

/-- The stopping tail an axis would follow from the present snapshot (R96, R97, R134, R135). -/
def State.stopPlan (s : State) (n : AxisId) (quick : Bool) (act : Option Nat) (rate : Option (Int × Nat)) : StopMotion :=
  let a := s.ax n
  let onM7 := quick || a.mot.jog.isSome
  let mf := a.mot.mProg / 65536 * 65536
  let m7f := s.m7 / 65536 * 65536
  let (p, v) := a.mot.eval mf m7f
  let already := match a.mot.stop with
    | some t => t.onM7
    | none => a.mot.jog.isSome
  let v' := if onM7 && !already then s.perMicro n v else v
  let (at', lj) := if quick then (a.cfg.qsdec, 0) else rate.getD a.stopRate
  let (ph, cut) := stopTail p v' at' lj
  ⟨if onM7 then m7f else mf, p, ph, onM7, quick, cut, act, s.tb.tick⟩

/-- An axis stops at the present snapshot: `quick` as by QUICKSTOP, else as by STOP (or with the rate given); `st` is the
status it decides for what runs, none for STOPPED, which no later event changes (R238, R256). A stop already in progress yields only
to a quick stop (R547). -/
def State.stopAxis (s : State) (n : AxisId) (quick : Bool) (st : Option (Status × Option Word)) (act : Option Nat)
    (rate : Option (Int × Nat)) : State :=
  let s := s.endDone n
  let a := (s.ax n).mot
  match a.stop with
  | some t =>
    if quick && !t.quick then s.modMot n fun a => { a with stop := some (s.stopPlan n true act none) } else s
  | none =>
    let by' := st.getD (.stopped, none)
    let go := fun (s : State) =>
      let t := s.stopPlan n quick act rate
      s.modMot n fun a => { a.markTails s.m7 with stop := some t, runs := (a.markTails s.m7).runs.map (·.decide by') }
    match a.runs, a.jog with
    | [], none => s
    | [r], none =>
      match r.seg.kind with
      | .hold _ _ => s.stopHold n r by'.1 by'.2
      | _ => go s
    | _, _ => go s

/-- The running segments `runs` of an axis complete at once, each with the status decided before or the one given (R78, R238); `live`:
they ran by their own phases up to this snapshot. The axis stays where it is. -/
def State.completeRuns (s : State) (n : AxisId) (runs : List Run) (live : Bool) (st : Status) (w : Option Word) : State :=
  let a := (s.ax n).mot
  s.forAll runs fun s r =>
    let st' := r.decided.getD (st, w)
    let te := r.endsAt live a.mProg (a.mProg / 65536)
    s.completeSeg n r.seg st'.1 (mpos32 a.mProg) st'.2 r.delay te.1 te.2

/-- The stop commands that wait for an axis find it at rest (R96, R304). -/
def State.stopsDone (s : State) (n : AxisId) (cnt : Nat) : State :=
  s.forAll (s.waitingActs n [.stop, .quickstop, .stopAll]) fun s c =>
    s.actionAxis c.id ⟨n, .ok, 0, none⟩ (if c.kind = .stopAll then 0 else cnt) false

/-- Every running segment of an axis completes at once, with the status decided before or the one given (R78, R238), and
its queued segments complete FLUSHED. The axis stays where it is. -/
def State.dropAll (s : State) (n : AxisId) (st : Status) (w : Option Word) : State :=
  let a := (s.ax n).mot
  let s1 := s.modMot n fun a =>
    { a with runs := [], stop := none, jog := none, vel := 0, held := none
             lastEnd := some { e := none, dir := (a.lastEnd.map (·.dir)).getD 0, snaps := 0 } }
  let s2 := s1.completeRuns n a.runs (a.stop.isNone && a.held.isNone) st w
  let cnt := stoppedCount a.runs st
  (((s2.flushQueue n .flushed).countDisable n cnt)).stopsDone n cnt

/-- What a retry holds on an axis, at rest already, completes at once, and so do the stop commands that wait for it; the retry goes on
(R129, R130, R255). -/
def State.endHeld (s : State) (n : AxisId) (st : Status) (w : Option Word) : State :=
  let a := (s.ax n).mot
  let s1 := s.modMot n fun a =>
    { a with runs := [], stop := none, jog := none, lastEnd := some { e := none, dir := (a.lastEnd.map (·.dir)).getD 0, snaps := 0 } }
  let s2 := s1.completeRuns n a.runs false st w
  let bad := a.runs.any fun r => let st' := (r.decided.map (·.1)).getD st; st' ≠ .ok && st' ≠ .stopped
  let cnt := stoppedCount a.runs st
  (((if bad then s2.flushQueue n .flushed else s2).countDisable n cnt)).stopsDone n cnt

/-- What an action counts for segments that end STOPPED: a STOP_ALL counts axes instead (R304). -/
def State.segCount (s : State) (act k : Nat) : Nat :=
  if s.q.actions.any fun a => a.id = act && a.kind = .stopAll then 0 else k

/-- STOP or QUICKSTOP of one axis at a snapshot (R96 to R98, R255); what runs and ends at once completes before what is queued
(R303). -/
def State.doStop (s : State) (n : AxisId) (quick flush : Bool) (act : Nat) : State :=
  let s := (s.reeval n).endDone n
  let fl := fun (s : State) => if flush then s.flushQueue n .flushed else s
  let a := (s.ax n).mot
  if a.held.isSome then
    let s1 := s.endHeld n .stopped none
    (fl s1).actionAxis act ⟨n, .ok, 0, none⟩ 0 false
  else
    let held := match a.runs with
      | [r] => match r.seg.kind with
        | .hold _ _ => 1
        | _ => 0
      | _ => 0
    let s1 := fl (s.stopAxis n quick none (some act) none)
    let s1 := s1.modMot n fun b => if b.jog.isSome then { b with jogBlocked := true } else b
    if (s1.ax n).mot.atRest then s1.actionAxis act ⟨n, .ok, 0, none⟩ (s.segCount act held) false else s1

end Sys2Proof.Machine
end

