-- ==== Sys2Proof/Machine/Amplitude.lean ====
section
/-! DEFINITION. Microstep tables, effective amplitudes, the thermal governor and the set-points of coils (05_current_control.md
R139 to R150, R165 to R168; 17_power_thermal.md R440 to R444). -/
namespace Sys2Proof.Machine
open Sys2Proof

/-! ### Microstep tables (R139, R140) -/

/-- Entries 0 to 42 of the quarter wave: the nearest integers to 2,047·cos(2π·i/1,024) (R140). -/
def quarter0 : List Int :=
  [2047, 2047, 2047, 2047, 2046, 2046, 2046, 2045, 2045, 2044, 2043, 2042, 2041, 2040, 2039, 2038, 2037, 2036,
   2035, 2033, 2032, 2030, 2028, 2027, 2025, 2023, 2021, 2019, 2017, 2015, 2012, 2010, 2008, 2005, 2003, 2000,
   1997, 1994, 1992, 1989, 1986, 1983, 1979]

/-- Entries 43 to 85 of the quarter wave: the nearest integers to 2,047·cos(2π·i/1,024) (R140). -/
def quarter1 : List Int :=
  [1976, 1973, 1969, 1966, 1962, 1959, 1955, 1951, 1948, 1944, 1940, 1936, 1932, 1927, 1923, 1919, 1914, 1910,
   1905, 1901, 1896, 1891, 1886, 1881, 1876, 1871, 1866, 1861, 1856, 1850, 1845, 1840, 1834, 1828, 1823, 1817,
   1811, 1805, 1799, 1793, 1787, 1781, 1775]

/-- Entries 86 to 128 of the quarter wave: the nearest integers to 2,047·cos(2π·i/1,024) (R140). -/
def quarter2 : List Int :=
  [1769, 1762, 1756, 1749, 1743, 1736, 1729, 1723, 1716, 1709, 1702, 1695, 1688, 1681, 1674, 1666, 1659, 1652,
   1644, 1637, 1629, 1621, 1614, 1606, 1598, 1590, 1582, 1574, 1566, 1558, 1550, 1542, 1533, 1525, 1517, 1508,
   1500, 1491, 1483, 1474, 1465, 1456, 1447]

/-- Entries 129 to 171 of the quarter wave: the nearest integers to 2,047·cos(2π·i/1,024) (R140). -/
def quarter3 : List Int :=
  [1439, 1430, 1421, 1411, 1402, 1393, 1384, 1375, 1365, 1356, 1347, 1337, 1328, 1318, 1308, 1299, 1289, 1279,
   1269, 1259, 1249, 1239, 1229, 1219, 1209, 1199, 1189, 1179, 1168, 1158, 1148, 1137, 1127, 1116, 1106, 1095,
   1085, 1074, 1063, 1052, 1042, 1031, 1020]

/-- Entries 172 to 214 of the quarter wave: the nearest integers to 2,047·cos(2π·i/1,024) (R140). -/
def quarter4 : List Int :=
  [1009, 998, 987, 976, 965, 954, 943, 932, 920, 909, 898, 887, 875, 864, 852, 841, 830, 818, 807, 795, 783, 772,
   760, 748, 737, 725, 713, 701, 690, 678, 666, 654, 642, 630, 618, 606, 594, 582, 570, 558, 546, 534, 522]

/-- Entries 215 to 256 of the quarter wave: the nearest integers to 2,047·cos(2π·i/1,024) (R140). -/
def quarter5 : List Int :=
  [510, 497, 485, 473, 461, 449, 436, 424, 412, 399, 387, 375, 362, 350, 338, 325, 313, 300, 288, 275, 263, 251,
   238, 226, 213, 201, 188, 176, 163, 151, 138, 126, 113, 100, 88, 75, 63, 50, 38, 25, 13, 0]

/-- The quarter wave of R140, entries 0 to 256. -/
def quarter : List Int := quarter0 ++ quarter1 ++ quarter2 ++ quarter3 ++ quarter4 ++ quarter5

/-- 2,047·cos(2π·i/1,024), nearest integer (R140). -/
def tableCos (i : Nat) : Int :=
  let k := i % 1024
  if k ≤ 256 then quarter.getD k 0
  else if k ≤ 512 then -(quarter.getD (512 - k) 0)
  else if k ≤ 768 then -(quarter.getD (k - 512) 0)
  else quarter.getD (1024 - k) 0

/-- 2,047·sin(2π·i/1,024), nearest integer (R140). -/
def tableSin (i : Nat) : Int := tableCos (i + 768)

/-- The entry the module generates (R139, R140). -/
def defaultEntry (i : Nat) : Word :=
  ((BitVec.ofInt 12 (tableCos i)).setWidth 32) ||| (((BitVec.ofInt 12 (tableSin i)).setWidth 32) <<< 16)

/-- Entry `i` of a table. -/
def MicroTable.entry (t : MicroTable) (i : Nat) : Word :=
  match t.custom with
  | some l => l.getD i 0
  | none => defaultEntry i

/-- REF_A of an entry. -/
def refA (e : Word) : Int := wrapS 12 (bits e 11 0)
/-- REF_B of an entry. -/
def refB (e : Word) : Int := wrapS 12 (bits e 27 16)

/-- An entry that R141 allows: no −2,048 and no reserved bit. -/
def entryOk (e : Word) : Bool := refA e ≠ -2048 && refB e ≠ -2048 && bits e 15 12 = 0 && bits e 31 28 = 0

/-- ra and rb for a table angle (R142); none where the angle addresses an entry under reload (R410). -/
def MicroTable.lookup (t : MicroTable) (th : Nat) : Option (Int × Int) :=
  let i := th / 64
  let w : Int := ((th % 64 : Nat) : Int)
  let j := (i + 1) % 1024
  if t.badEntries.contains i || t.badEntries.contains j then none
  else
    let ei := t.entry i
    let ej := t.entry j
    some (refA ei * (64 - w) + refA ej * w, refB ei * (64 - w) + refB ej * w)

/-- A coil set-point from a table value and an amplitude (R143). -/
def setPoint (r : Int) (amp : Nat) : Int := r * amp * 256 / 131008

/-! ### Effective amplitudes (R145) -/

/-- The amplitude limit of an axis: 4,000 mA, or 8,000 mA in gang mode. -/
def State.ampLimit (s : State) (n : AxisId) : Nat := if s.ganged n then 8000 else 4000
/-- irun′. -/
def State.irunE (s : State) (n : AxisId) : Nat := min (s.ax n).cfg.irun.toNat (s.ampLimit n)
/-- ihold′. -/
def State.iholdE (s : State) (n : AxisId) : Nat := min (s.ax n).cfg.ihold.toNat (s.irunE n)
/-- imin′. -/
def State.iminE (s : State) (n : AxisId) : Nat := min (s.ax n).cfg.imin.toNat (s.irunE n)
/-- iboost′. -/
def State.iboostE (s : State) (n : AxisId) : Nat :=
  let b := min (s.ax n).cfg.iboost.toNat (s.ampLimit n)
  if s.irunE n ≤ b then b else 0

/-! ### Thermal governor (R440 to R444) -/

/-- On-resistance bound per switch, in mΩ (R440). -/
def rdsOf (tg : Int) : Int := max 50 (65 + (tg - 200) * 3 / 80)

/-- Loss of one bridge carrying `i` mA (R440). -/
def bridgeLoss (i rds vm dt l : Int) : Int := i * i * 2 * rds / 1000000 + i * (vm * 504 + dt * 640000) / (25000 * l)

/-- tbase in force, by the last valid reading or 800 (R441). -/
def State.tbaseE (s : State) : Int := if s.dev.bpErr then 800 else s.dev.tbase.toInt

/-- The coils of a group whose axis is enabled, gang partners through their lead. -/
def State.liveCoils (s : State) (g : GroupId) : List CoilId :=
  ((List.finRange 8).map (coilAt g)).filter fun c => (s.ax (s.driver (axisOfCoil c))).drv.enabled

/-- pg: the loss of a group in the frame (R440). -/
def State.groupLoss (s : State) (g : GroupId) : Int :=
  let x := s.grp g
  let rds := rdsOf x.tg
  let one := fun (c : CoilId) =>
    let n := s.driver (axisOfCoil c)
    let lead : CoilId := if s.ganged n then (if c.val % 2 = 0 then coilA n else coilB n) else c
    let i := |(s.coil lead).imeas| / 256
    let i := if s.ganged n then i / 2 else i
    bridgeLoss i rds x.vm.toNat x.dtEff.toNat s.len
  ((s.liveCoils g).map one).sum + (if (List.finRange 16).any fun m => (s.leg (legAt g m)).en then 580 else 0)

/-- The level in force by tg (R442). -/
def levelOf (tg : Int) (holdHeads sd : Bool) : Nat :=
  if sd then 5 else if holdHeads then 4 else if 1120 < tg then 3 else if 1000 < tg then 2 else 0

/-- The governor of one group in step 5 (R440 to R442). -/
def State.govGroup (s : State) (g : GroupId) : State :=
  let x := s.grp g
  let pg := s.groupLoss g
  let anyOn := (groupAxes g).any fun n => (s.ax n).drv.enabled
  let pf := if anyOn then x.pf + (pg * 2 ^ 32 - x.pf) * (s.len : Int) / 640000000 else 0
  let tm := s.tbaseE + pf / 2 ^ 32 * 72 / 10000
  let tg := max x.temp.toInt tm
  let warn := 1000 ≤ tg || (x.warn && 960 ≤ tg)
  let hh := 1200 ≤ tg || (x.headHold && 1160 < tg)
  let lv := if warn then max 1 (levelOf tg hh x.thermSd) else if x.thermSd then 5 else 0
  let s1 := s.modGroup g fun x => { x with pg := pg, pf := pf, tg := tg, warn := warn, headHold := hh, tlevel := lv }
  if warn && !x.warn then s1.shale 4 (Config.powerStageCode 48).toNat g.val (pageWord (4 + g.val) 1) else s1

/-- gboost (R443). -/
def State.gboostOf (s : State) (n : AxisId) (tg : Int) : Nat :=
  let b : Int := s.iboostE n
  let r : Int := s.irunE n
  if b = 0 ∨ 1080 ≤ tg then 0 else if tg ≤ 1000 then b.toNat else (r + (b - r) * (1080 - tg) / 80).toNat

/-- ghold (R443). -/
def State.gholdOf (s : State) (n : AxisId) (tg : Int) : Nat :=
  let h : Int := s.iholdE n
  let f : Int := min (s.iminE n) (s.iholdE n)
  if tg ≤ 1120 then h.toNat else if 1200 ≤ tg then f.toNat else (f + (h - f) * (1200 - tg) / 80).toNat

/-- gboost and ghold of one axis for the frame (R443). -/
def State.govAxis (s : State) (n : AxisId) : State :=
  let tg := (s.grp (groupOf n)).tg
  s.modDrv n fun d => { d with gboost := s.gboostOf n tg, ghold := s.gholdOf n tg }

/-- pax: the steady loss of an axis at amplitude `a` mA, in mW (R444). -/
def State.pax (s : State) (n : AxisId) (a : Int) : Int :=
  let x := s.grp (groupOf n)
  let k : Int := if s.ganged n then 1 else 2
  a * a * k * rdsOf x.tg / 1000000 + a * 14 / 11 * ((x.vm.toNat : Int) * 504 + x.dtEff.toNat * 640000) / (25000 * s.len)

/-- The verdict on a head of axis `n`: admitted with its dp, refused, or refused by the module budget alone (R444). -/
def State.headVerdict (s : State) (n : AxisId) : Int × Bool × Bool :=
  let g := groupOf n
  let x := s.grp g
  let d := (s.ax n).drv
  let a : Int := if d.sel.armed && 0 < d.gboost then d.gboost else s.irunE n
  let dp := s.pax n a - s.pax n d.sel.amp
  let addg := ((s.dev.addG.filter fun e => e.1 = g).map (·.2)).sum
  let c1 := !x.headHold && !x.thermSd && 10000 ≤ x.vm.toNat && x.vm.toNat ≤ 62000
  let c2 := x.pf / 2 ^ 32 + addg + dp ≤ (1000 - s.tbaseE) * 10000 / 72
  let c3 := s.dev.sumPg + s.dev.addM + dp ≤ 206500
  (dp, c1 && c2 && c3, c1 && c2 && !c3)

/-- The admission of a head (R444): whether it is admitted, with the budgets and MOD_LIMIT updated. -/
def State.admitHead (s : State) (n : AxisId) : Bool × State :=
  let (dp, ok, modOnly) := s.headVerdict n
  if ok then
    (true, { s with dev := { s.dev with addM := s.dev.addM + max 0 dp, addG := s.dev.addG ++ [(groupOf n, max 0 dp)] } })
  else (false, { s with dev := { s.dev with modLimit := s.dev.modLimit || modOnly } })

/-! ### Amplitude selection (R146 to R150) -/

/-- The axis is moving in the frame (R146). A segment that a retry holds is not evaluated, so it neither moves the axis nor is in a
head (DEDUCED, notes/assumptions/111.md). -/
def State.movingNow (s : State) (n : AxisId) : Bool :=
  let a := (s.ax n).mot
  (a.vel ≠ 0 && !a.runs.isEmpty && a.held.isNone) || a.jog.isSome || a.overspeed ||
    ((s.ax n).cfg.setpoint && a.outHist.headD a.out ≠ a.out)

/-- A running segment of the axis is in a head phase (R146). -/
def State.headNow (s : State) (n : AxisId) : Bool :=
  let a := (s.ax n).mot
  a.stop.isNone && a.held.isNone && a.runs.any fun r =>
    match findPhase r.phases (max 0 (r.at a.mProg s.m7 - r.ms)) with
    | some (ph, _) => ph.part = .head
    | none => false

/-- la for the frame (R149). -/
def nextLa (la irun imin down : Nat) (delta : Int) : Nat :=
  if 14564 < delta then irun
  else if 11833 < delta then min irun (la + 8 * down)
  else if delta < 10012 then max imin (la - down)
  else la

/-- The amplitude selection of one frame of `l` ticks (R147 to R149). The boost time restarts at 0 when boost is re-armed, and at
ENABLE (DEDUCED, notes/assumptions/112.md). -/
def AmpState.select (a : AmpState) (cfg : AxisCfg) (irun imin gboost ghold l : Nat) (moving inHead headNew valid : Bool)
    (delta : Int) : AmpState :=
  let la := if headNew || !valid then irun else if moving && !inHead then nextLa a.la irun imin cfg.laDown delta else a.la
  let rearm := !a.armed && msTicks cfg.tboost ≤ a.noBoostT
  let armed := a.armed || rearm
  let headOff := if headNew then !armed else a.headOff && inHead
  let boost := moving && inHead && 0 < gboost && armed && !headOff
  let target :=
    if moving then
      if boost then gboost else if cfg.laEn && valid && !inHead then la else irun
    else if a.idleT < msTicks cfg.tstand then irun else ghold
  { amp := if a.amp ≤ target then target else max target (a.amp - cfg.islew)
    target := target, la := la, armed := armed
    boostT := if rearm then 0 else if boost then a.boostT + l else a.boostT
    headOff := headOff
    noBoostT := if armed then 0 else a.noBoostT + l
    idleT := if moving then 0 else min (a.idleT + l) (msTicks 10001) }

/-- The amplitude of an axis is selected for the frame from what it was after the frame before (R147); the axis takes part
while it is energised (R150). -/
def State.selectAmp (s : State) (n : AxisId) : State :=
  let x := s.ax n
  if x.drv.energised then
    let mv := s.movingNow n
    let hd := s.headNow n
    let la := { x.cfg with laEn := x.cfg.laEn && !(x.cfg.setpoint && x.enc.closed) }
    let sel := x.drv.selPrev.select la (s.irunE n) (s.iminE n) x.drv.gboost x.drv.ghold s.len mv hd x.drv.headNew x.obs.valid
      x.obs.delta
    let amp := if x.enc.fallback then s.irunE n else sel.amp
    let s1 := s.modDrv n fun d => { d with sel := { sel with amp := amp, armed := sel.armed && (d.sel.armed || !d.selPrev.armed) }
                                           inHead := hd }
    s1.modMot n fun m => { m with moving := mv }
  else (s.modDrv n fun d => { d with sel := { d.sel with amp := 0, target := 0 }, inHead := false }).modMot n
    fun m => { m with moving := s.movingNow n }

/-! ### Set-points (R142, R143, R165 to R168) -/

/-- penc of an axis (R165); with CPRM 0 the division is a free value (notes/assumptions/8.md). -/
def Axis.penc (x : Axis) : Int :=
  (if x.cfg.cprm = 0 then Config.divByZero x.enc.snap
   else x.enc.snap * x.cfg.fspr * 256 * 2 ^ 24 / (x.cfg.cprm : Int)) + x.mot.eoff

/-- One frame of the position loop (R167). -/
def LoopState.next (l : LoopState) (cfg : AxisCfg) (err lim : Int) : LoopState :=
  let ep := clampI (-2 ^ 31) (2 ^ 31 - 1) err
  let ip := if l.limited && sgn ep = sgn l.tau then l.ip else l.ip + cfg.kip * ep
  let raw := (cfg.kpp * ep + ip / 256 + cfg.kdp * (ep - l.ep)) / 65536
  ⟨ip, ep, limitMag lim raw, lim < |raw|⟩

/-- The table angle and the coil references of an axis for the frame (R142); an entry under reload leaves ra and rb of the
frame before (R410). -/
def State.angle (s : State) (n : AxisId) (th : Nat) (amp : Nat) : State :=
  let x := s.ax n
  let (ra, rb) := (s.tables[x.cfg.tsel].lookup th).getD (x.drv.ra, x.drv.rb)
  s.modDrv n fun d => { d with th := th, ra := ra, rb := rb, ia := setPoint ra amp, ib := setPoint rb amp }

/-- The set-points of an axis from its output position, or from the position loop in SETPOINT mode (R142, R143, R167, R168). -/
def State.setCoils (s : State) (n : AxisId) : State :=
  let x := s.ax n
  if !x.drv.energised then s.modDrv n fun d => { d with ia := 0, ib := 0 }
  else if x.cfg.setpoint && x.enc.closed && !x.enc.fallback then
    let l := x.enc.loopPrev.next x.cfg ((x.mot.out - x.penc) / 65536) x.drv.sel.amp
    let sg : Int := if l.tau < 0 then -1 else 1
    let th := (((x.penc + x.mot.poff) / 2 ^ 18 + sg * 16384) % 65536).toNat
    (s.modEnc n fun e => { e with loop := l }).angle n th l.tau.natAbs
  else s.angle n (((x.mot.out + x.mot.poff) / 2 ^ 18 % 65536).toNat) x.drv.sel.amp

/-- An axis is evaluated, its amplitude selected and its set-points made, for the present snapshot (R59 step 5). Doing it
again at the same snapshot gives what a change made there asks for. -/
def State.refresh (s : State) (n : AxisId) : State := ((s.reeval n).selectAmp n).setCoils n

end Sys2Proof.Machine
end

