-- ==== Sys2Proof/Machine/Masters.lean ====
section
/-! DEFINITION. Master positions and the progress of axes (02_master_time.md R38 to R57). -/
namespace Sys2Proof.Machine
open Sys2Proof

/-- The interval history of an edge-counting master is cleared: the next edge ends no interval, as the first one after a reset
(R40, R42; DEDUCED, notes/assumptions/99.md). -/
def EdgeMaster.forget (e : EdgeMaster) : EdgeMaster := { e with dvalid := false, edged := false }

/-- The interpolated position of an edge-counting master at timestamp `t` (R45). An interval longer than TSTILL is not used; with a
shorter one the fraction has come to its end before standstill, where the position holds (R47). -/
def EdgeMaster.posAt (e : EdgeMaster) (tstill t : Nat) : Int :=
  let el := min (t - e.tLast) 0xFFFFFFFF
  let f : Int := if e.timed tstill then (min 0xFFFF (el * 65536 / e.d) : Nat) else 0
  if e.fwd then e.c * 65536 + f else e.c * 65536 - f

/-- The position of a computed master, `tau` ticks after the boundary of frame `f` (R52). A position beyond 64 bits is kept as it is:
R52 states no overflow (DESIGN CHOICE, notes/assumptions/101.md). -/
def VirtMaster.posAt (v : VirtMaster) (l f : Nat) (tau : Int) : Int :=
  v.vbase + v.rate * ((l : Int) * ((f : Int) - v.fbase) + tau) / 1250000

/-- The computed master is re-based at its position in frame `f` (R53, R57). -/
def VirtMaster.rebase (v : VirtMaster) (l f : Nat) : VirtMaster := { v with vbase := v.posAt l f 0, fbase := f }

/-- Position of master `m` at timestamp `t` (R45, R52). -/
def State.masterAt (s : State) (m : MasterId) (t : Nat) : Int :=
  let tau : Int := 2 * (t : Int) - s.tb.tick
  match m.val with
  | 5 => s.tb.virt[0].posAt s.len s.frameNat tau
  | 6 => s.tb.virt[1].posAt s.len s.frameNat tau
  | 7 => s.tb.m7.posAt s.len s.frameNat tau
  | k => if h : k < 5 then s.tb.edge[k].posAt s.tstillTicks t else 0

/-- The positions of all eight masters at the present boundary (R59 step 2). -/
def State.snapAll (s : State) : Vector Int 8 := Vector.ofFn fun m =>
  match m.val with
  | 5 => s.tb.virt[0].posAt s.len s.frameNat 0
  | 6 => s.tb.virt[1].posAt s.len s.frameNat 0
  | 7 => s.tb.m7.posAt s.len s.frameNat 0
  | k => if h : k < 5 then s.tb.edge[k].posAt s.tstillTicks s.stamp else 0

/-- The progress position of an axis at a snapshot whose master stands at `m` (R49 to R51). m_prog counts on where the 48-bit count
of its master wraps, so that no axis sees the wrap (R38). -/
def AxisMotion.progress (a : AxisMotion) (m : Int) : Int :=
  let d := wrapS 64 (m - a.mProg)
  a.mProg + (if a.stop.isNone && a.held.isNone && a.runs.any Run.bidir then d else max 0 d)

/-- An edge in direction `fwd` accepted at timestamp `t` (R44); the first one after a reset ends no interval. -/
def EdgeMaster.edgeAt (e : EdgeMaster) (tstill : Nat) (fwd : Bool) (t : Nat) : EdgeMaster :=
  let ok := e.edged && fwd = e.fwd && t - e.tLast ≤ tstill
  { c := wrapS 48 (e.c + (if fwd then 1 else -1)), tLast := t, fwd := fwd
    d := if ok then min (t - e.tLast) 0xFFFFFFFF else e.d, dvalid := ok, still := false, edged := true }

end Sys2Proof.Machine
end

