-- ==== Sys2Proof/Machine/Start.lean ====
section
/-! DEFINITION. Starting a segment (R74 to R76, R86, R87, R100 to R106, R123) and the legs of a HOME (R126 to R132). -/
namespace Sys2Proof.Machine
open Sys2Proof

/-! ### HOME (04_axio_homing.md) -/

/-- The operands of a HOME, with s as a sign. -/
structure HomeOps where
  s : Int
  timeout : Nat
  vf : Int
  vs : Int
  hacc : Int
  hdec : Int
  bo : Int
  offset : Int

/-- The HOME operands of a segment. -/
def SegKind.homeOps : SegKind → Option HomeOps
  | .home p t vf vs ha hd bo off => some ⟨if p then 1 else -1, t, vf, vs, ha, hd, bo, off⟩
  | _ => none

/-- A limit pin toward `d` that is not the home switch and is active (R129). -/
def State.homeBlock (s : State) (n : AxisId) (d : Int) : Option PinId :=
  (s.pinsOf n (if 0 < d then isHighLimit else isLowLimit)).find? fun p =>
    (s.pin p).isOn && !isHome (s.pin p).func

/-- The phases of a HOME leg after the first belong to its body (R79). -/
def asBody (l : List Phase) : List Phase := l.map fun ph => { ph with part := .body }

/-- A head starts at the present snapshot, where the plan has a head phase (R79, R149). -/
def State.newHead (s : State) (n : AxisId) (l : List Phase) : State :=
  if (l.head?.map (·.part)) = some .head then s.modDrv n fun d => { d with headNew := true } else s

/-- A HOME that is in motion or between legs completes at once (R129, R86); its queued segments complete FLUSHED (R78). -/
def State.endHome (s : State) (n : AxisId) (r : Run) (st : Status) (w : Option Word) : State :=
  let a := (s.ax n).mot
  let m := a.mProg / 65536
  let s1 := s.modMot n fun a => { a with runs := [], lastEnd := some { e := some m, dir := (a.lastEnd.map (·.dir)).getD 0, snaps := 0 } }
  (s1.completeSeg n r.seg st (mpos32 a.mProg) w r.delay m m).flushQueue n .flushed

/-- A VELOCITY leg of a running HOME starts at `ms` toward `d` at speed `v` (R82, R126, R129). -/
def State.homeLeg (s : State) (n : AxisId) (r : Run) (h : HomeOps) (d v ms : Int) (stage : HomeStage) (first : Bool) : State :=
  let a := (s.ax n).mot
  match s.homeBlock n d with
  | some p => s.endHome n r .homeLimit (some (BitVec.ofNat 32 p.val))
  | none =>
    let pl := planVelocity a.pos 0 (d * v) h.hacc h.hdec 0
    if admitPlan (.velocity (d * v) h.hacc h.hdec 0) pl then
      let ph := if first then pl.phases else asBody pl.phases
      let r' := { r with ms := ms * 65536, ps := a.pos, vs := 0, phases := ph, target := none, unbounded := true, home := stage }
      let a' := { a with runs := [r'], lastEnd := some { e := none, dir := d, snaps := 0 } }
      (s.modMot n fun _ => a').newHead n ph
    else s.endHome n r .rejectParam (some noField)

/-- The present leg of a HOME decelerates to rest from the present snapshot at the HOME deceleration (R126). -/
def State.homeDecel (s : State) (n : AxisId) (r : Run) (h : HomeOps) (stage : HomeStage) : State :=
  let a := (s.ax n).mot
  let mf := a.mProg / 65536 * 65536
  let (p, v) := a.eval mf s.m7
  let (ph, cut) := stopTail p v h.hdec 0
  let g := { r.seg with flags := { r.seg.flags with accelClamped := r.seg.flags.accelClamped || cut } }
  let ph := if stage = .slowStop then ph else asBody ph
  s.modMot n fun a => { a with runs :=
    [{ r with seg := g, ms := mf, ps := p, phases := ph, target := none, unbounded := false, home := stage }] }

/-- BACK-OFF ends by a move to the farther of p(t_first) − s·BO and the natural stopping point (R126). -/
def State.homeBackMove (s : State) (n : AxisId) (r : Run) (h : HomeOps) (pFirst : Int) : State :=
  let a := (s.ax n).mot
  let mf := a.mProg / 65536 * 65536
  let (p, v) := a.eval mf s.m7
  let nat := endPos p (stopTail p v h.hdec 0).1
  let want := pFirst - h.s * h.bo
  let pt := if 0 < h.s then min want nat else max want nat
  let pl := planMove p pt v h.vf h.hacc h.hdec 0
  let g := { r.seg with flags := { r.seg.flags with accelClamped := r.seg.flags.accelClamped || pl.clamped } }
  s.modMot n fun a => { a with runs :=
    [{ r with seg := g, ms := mf, ps := p, vs := v, phases := asBody pl.phases, target := pl.target, unbounded := false
              home := .backOffMove }] }

/-- SET: the position is redefined by the capture and the HOME completes OK (R128, R323). -/
def State.homeSet (s : State) (n : AxisId) (r : Run) (h : HomeOps) : State :=
  let add := h.offset - r.pCap
  let fin := endPos r.ps r.phases
  let s1 := s.modMot n fun a =>
    { a with pos := fin + add, out := a.out + add, outHist := a.outHist.map (· + add), poff := a.poff - add
             eoff := a.eoff + add, unsure := false, runs := []
             lastEnd := some { e := some (a.mProg / 65536), dir := h.s, snaps := 0 } }
  let a := (s1.ax n).mot
  s1.completeSeg n r.seg .ok (mpos32 r.capM) (some (outWord r.pCap)) r.delay (a.mProg / 65536) (a.mProg / 65536)

/-- What a HOME does of itself at a snapshot: a leg at rest gives way to the next, and SET follows the last (R126, R128);
with dispatch suspended it rests in its present state (R418). -/
def State.homeAdvance (s : State) (n : AxisId) : State :=
  let a := (s.ax n).mot
  match a.stop, a.held, a.runs with
  | none, none, [r] =>
    match r.seg.kind.homeOps with
    | none => s
    | some h =>
      let fin := !r.unbounded && (totalLen r.phases : Int) * 65536 ≤ a.mProg - r.ms
      let rest := fun (st : HomeStage) =>
        s.modMot n fun a => { a with runs := [{ r with ps := endPos r.ps r.phases, phases := [], target := none, unbounded := false, home := st }]
                                     pos := endPos r.ps r.phases
                                     lastEnd := some { e := some (a.mProg / 65536), dir := (a.lastEnd.map (·.dir)).getD 0, snaps := 0 } }
      if s.dev.suspended then s
      else
        match r.home with
        | .fastStop => if fin then rest .backOffRest else s
        | .backOffMove => if fin then rest .slowRest else s
        | .slowStop => if fin then s.homeSet n r h else s
        | .backOffRest => s.homeLeg n r h (-h.s) h.vf (a.mProg / 65536) .backOff false
        | .slowRest => s.homeLeg n r h h.s h.vs (a.mProg / 65536) .slow false
        | _ => s
  | _, _, _ => s

/-! ### Conditions of a start (R74, R75) -/

/-- A VELOCITY. -/
def SegKind.isVelocity : SegKind → Bool
  | .velocity .. => true
  | _ => false

/-- The types that take over a running VELOCITY in motion (R87). -/
def SegKind.takesOver : SegKind → Bool
  | .moveAbs .. => true
  | .moveRel .. => true
  | .velocity .. => true
  | .dose .. => true
  | .gear .. => false
  | .hold .. => false
  | .home .. => false

/-- The direction a segment starts in on axis `n` from `ps` (R81): a HOLD carries forward `was`, a HOME takes its first
leg's. -/
def State.startDir (s : State) (n : AxisId) (k : SegKind) (ps was : Int) : Int :=
  match k with
  | .hold _ _ => was
  | .home p _ _ _ _ _ _ _ =>
    let d : Int := if p then 1 else -1
    match s.homePin n with
    | some q => if (s.pin q).isOn then -d else d
    | none => d
  | k => segDir k ps

/-- The positions among `l` that m_prog reached at this very snapshot, the greatest of them; else m_prog itself (R75). -/
def msFrom (l : List Int) (prev now : Int) : Int :=
  (l.filter fun p => prev / 65536 < p ∧ p ≤ now / 65536).foldl (fun w p => max w p) (-2 ^ 70) |> fun w =>
    if w = -2 ^ 70 then now / 65536 else w

/-- The permission of a queued segment's batch (R74 item 4, R104): none while it is withheld; else its H, if it has one. -/
def State.batchGrant (s : State) (n : AxisId) (g : Segment) : Option (Option Int) :=
  if g.batch = 0 then some none
  else
    match s.q.batches.find? fun b => b.id = g.batch with
    | none => some none
    | some b =>
      let m := (s.ax n).mot.mProg
      match s.permission b m with
      | none => none
      | some none => some none
      | some (some h) => if h ≤ m / 65536 then some (some h) else none

/-- The governor has a say over the head: a member of the predecessor batch is still running (R106). -/
def State.governed (s : State) (g : Segment) : Bool :=
  match s.q.batches.find? fun b => b.id = g.batch && g.batch ≠ 0 with
  | none => false
  | some b => b.pred ≠ 0 && allAxes.any fun n => (s.ax n).mot.runs.any fun r => r.seg.batch = b.pred

/-- A batch forgets a member that was refused: it has not contributed (R105). -/
def State.withdraw (s : State) (n : AxisId) (id : BitVec 16) : State :=
  { s with q := { s.q with batches := s.q.batches.map fun b =>
    if b.id = id ∧ id ≠ 0 then
      { b with contributed := b.contributed &&& ~~~ (BitVec.ofNat 48 (2 ^ n.val)), ends := b.ends.filter fun x => x.1 ≠ n
               tails := b.tails.filter fun x => x.1 ≠ n }
    else b } }

/-- The head segment leaves the queue. -/
def State.popQueue (s : State) (n : AxisId) : State := s.modMot n fun a => { a with queue := a.queue.drop 1 }

/-- A plan that fails admission: the segment completes REJECT_PARAM and those behind it FLUSHED (R86); of a head that the governor had
delayed WORD is that delay (R106, R323). -/
def State.refusePlan (s : State) (n : AxisId) (g : Segment) (delay : Nat) : State :=
  let a := (s.ax n).mot
  let m := a.mProg / 65536
  (((s.popQueue n).completeSeg n { g with batch := 0 } .rejectParam (mpos32 a.mProg) (some noField) delay m m).withdraw n
    g.batch).flushQueue n .flushed

/-- A new run of segment `g` at `ms` from `ps`, `vs` by the plan (R73, R75, R76). -/
def mkRun (g : Segment) (ms ps vs : Int) (pl : Plan) (onM7 : Bool) (delay : Nat) : Run :=
  { seg := { g with flags := { g.flags with accelClamped := g.flags.accelClamped || pl.clamped } }
    ms := ms, ps := ps, vs := vs, phases := pl.phases, target := pl.target, unbounded := pl.unbounded, onM7 := onM7
    decided := none, delay := delay, home := .notHome, pCap := 0, capM := 0, timeoutAt := none, tailSeen := false }

/-- The segment at the head of the queue starts at `ms` from `ps` and `vs`, behind the runs `keep` (R75, R76, R86). A tail that
m_prog has reached by then is marked at once, so that the next segment may blend at the same snapshot (R100). -/
def State.startAt (s : State) (n : AxisId) (g : Segment) (keep : List Run) (ms ps vs : Int) (delay : Nat) : State :=
  match g.kind.homeOps with
  | some h =>
    let r := mkRun g (ms * 65536) ps 0 ⟨[], none, false, false⟩ false delay
    let tmo := if h.timeout = 0 then none else some (BitVec.ofInt 32 ((s.ax n).mot.mProg / 65536 + h.timeout))
    let r := { r with timeoutAt := tmo }
    let on := match s.homePin n with
      | some q => (s.pin q).isOn
      | none => false
    let s1 := (s.popQueue n).modMot n fun a => { a with runs := [r] }
    if on then s1.homeLeg n r h (-h.s) h.vf ms .backOff true else s1.homeLeg n r h h.s h.vf ms .fast true
  | none =>
    let pl := planSeg g.kind ps vs
    if admitPlan g.kind pl then
      let (ms', m7) := match g.kind with
        | .hold _ true => (s.m7 / 65536, true)
        | _ => (ms, false)
      let r := mkRun g (ms' * 65536) ps vs pl m7 delay
      let s1 := ((s.popQueue n).modMot n fun a => ({ a with runs := keep ++ [r] }).markTails s.m7).newHead n pl.phases
      if m7 then s1.memberTail n g.batch ((s.ax n).mot.mProg / 65536) else s1
    else s.refusePlan n g delay

/-- A running VELOCITY stops for a replacement that does not take over in motion (R87). -/
def State.velocityYields (s : State) (n : AxisId) : State := s.stopAxis n false (some (.ok, none)) none none

/-- A running VELOCITY must stop for the replacement: one that reverses from the position it would start at, or a GEAR, HOLD or HOME
(R87). -/
def Run.yieldsTo (v : Run) (k : SegKind) (p : Int) : Bool := !k.takesOver || segDir k p * v.dir < 0

/-- The governor refuses the head of the queue for this snapshot (R106). -/
def State.delayHead (s : State) (n : AxisId) : State :=
  s.modMot n fun a => { a with queue := match a.queue with
    | g :: rest => { g with flags := { g.flags with headDelayed := true } } :: rest
    | [] => [] }

/-- The segment at the head of the queue completes LIMIT without moving (R123, R125). -/
def State.refuseLimit (s : State) (n : AxisId) (g : Segment) : State :=
  let a := (s.ax n).mot
  (s.popQueue n).completeSeg n g .limit (mpos32 a.mProg) (some (s.limitWord n)) (Config.heldDelay a.mProg) (a.mProg / 65536)
    (a.mProg / 65536)

/-- The governor's verdict on the head of the queue, where it has a say (R106). -/
def State.govern (s : State) (n : AxisId) (g : Segment) : Bool × State := if s.governed g then s.admitHead n else (true, s)

/-- MS of a segment whose conditions are met: `pts` are the positions among them (R75). -/
def AxisMotion.startMs (a : AxisMotion) (g : Segment) (pts : List Int) : Int :=
  if g.flags.headDelayed then a.mProg / 65536 else msFrom pts a.mProgPrev a.mProg

/-- The end E of a predecessor that ended at this very snapshot; its tail start where the successor blends all the same (R75, R100,
R102). -/
def AxisMotion.endedNow (a : AxisMotion) : List Int :=
  match a.lastEnd with
  | some e => if e.snaps = 0 then (match e.blendAt with | some t => [t] | none => e.e.toList) else []
  | none => []

/-- The predecessor was measured on M7 while the axis was bound to another master, so that it has no end there (R75, R77). -/
def AxisMotion.endedOnM7 (a : AxisMotion) : Bool := (a.lastEnd.map (·.onM7)).getD false

/-- The delay of a head that the governor held back (R106). -/
def headDelay (g : Segment) (ms : Int) (h : Option Int) : Nat := if g.flags.headDelayed then (ms - h.getD ms).toNat else 0

/-- Types with a direction to be judged against the limits; a HOLD does not move and a HOME judges its legs (R125, R129). -/
def SegKind.limited : SegKind → Bool
  | .moveAbs .. => true
  | .moveRel .. => true
  | .velocity .. => true
  | .gear .. => true
  | .dose .. => true
  | .hold .. => false
  | .home .. => false

/-- A start from rest: the predecessor has ended (R74 to R76). -/
def State.startIdle (s : State) (n : AxisId) (g : Segment) (starts : List Int) (h : Option Int) (d : Int) (reverse : Bool) :
    State :=
  let a := (s.ax n).mot
  if g.kind.limited && d ≠ 0 && s.limitOn n d then s.refuseLimit n g
  else
    let (ok, s) := s.govern n g
    if ok then
      let ms := if reverse || a.endedOnM7 then a.mProg / 65536 else a.startMs g (a.endedNow ++ starts)
      s.startAt n g [] ms a.pos 0 (headDelay g ms h)
    else s.delayHead n

/-- A segment that replaces a running VELOCITY (R87): once the governor has admitted its head it takes over in motion at its MS, and
the VELOCITY completes OK at that snapshot (R322); or the VELOCITY stops first. -/
def State.startTakeover (s : State) (n : AxisId) (g : Segment) (starts : List Int) (h : Option Int) (v : Run) : State :=
  let a := (s.ax n).mot
  let ms := a.startMs g starts
  let (p, vel) := v.eval (ms * 65536) s.m7
  let d := segDir g.kind p
  if v.yieldsTo g.kind p then
    let (ok, s') := s.govern n g
    if ok then s.velocityYields n else s'.delayHead n
  else if d ≠ 0 && s.limitOn n d then s.refuseLimit n g
  else
    let (ok, s) := s.govern n g
    if ok then
      let s1 := s.startAt n g [] ms p vel (headDelay g ms h)
      if (s1.ax n).mot.runs.any fun r => r.seg = v.seg then s1
      else s1.completeSeg n v.seg .ok (mpos32 a.mProg) none v.delay (a.mProg / 65536) (a.mProg / 65536)
    else s.delayHead n

/-- A blended start at the predecessor's tail start (R100 to R102). -/
def State.startBlend (s : State) (n : AxisId) (g : Segment) (starts : List Int) (h : Option Int) (r : Run) : State :=
  let a := (s.ax n).mot
  let ps := r.restAt
  if s.limitOn n (segDir g.kind ps) then s.refuseLimit n g
  else
    let (ok, s) := s.govern n g
    if ok then
      let ms := a.startMs g (r.tailPos :: a.endedNow ++ starts)
      s.startAt n g [r] ms ps 0 (headDelay g ms h)
    else s.delayHead n

/-- The segment at the head of an axis's queue starts if every condition of R74 holds at the present snapshot. -/
def State.tryStart (s : State) (n : AxisId) : State :=
  let x := s.ax n
  let a := x.mot
  match a.queue with
  | [] => s
  | g :: _ =>
    if !g.seen || !x.drv.enabled || x.drv.enabling || x.drv.disabling || a.stop.isSome || a.jog.isSome || a.held.isSome
      || a.runs.length > 1 then s
    else if (g.start.map (reached32 a.mProg)) = some false then s
    else
      match s.batchGrant n g with
      | none => s
      | some hPt =>
        let starts := (g.start.map (near32 a.mProg)).toList ++ hPt.toList
        let was := (a.lastEnd.map (·.dir)).getD 0
        let d := s.startDir n g.kind a.pos was
        let reverse := d * was < 0
        match a.runs with
        | [] => if reverse && (a.lastEnd.map (·.snaps)).getD 1 = 0 then s else s.startIdle n g starts hPt d reverse
        | r :: _ =>
          if r.seg.kind.isVelocity then s.startTakeover n g starts hPt r
          else if r.fits g && g.blendOk && r.tailSeen && !r.blended then s.startBlend n g starts hPt r
          else s

/-- SEGMENT_START: the head of the axis's queue starts where R74 lets it, and the axis is evaluated with it. -/
def execSegmentStart (n : AxisId) (s : State) : Host.Outcome State Fault Refusal := .next ((s.tryStart n).refresh n)

/-- SEGMENT_END: a running segment or a stop whose phases are used up ends (R77, R96). -/
def execSegmentEnd (n : AxisId) (s : State) : Host.Outcome State Fault Refusal := .next ((s.endDone n).refresh n)

/-! ### Re-anchoring (R93) -/

/-- A cruise or a HOLD that has lasted 2^30 mc is re-anchored there (R93); the next span of a VELOCITY is tested by R86, and
when it fails the VELOCITY stops as by STOP and completes REJECT_PARAM. The instant taken is the 2^30th mc of the phase
itself (DEDUCED, notes/assumptions/27.md). -/
def State.reanchor (s : State) (n : AxisId) : State :=
  let a := (s.ax n).mot
  match a.stop, a.held, a.runs with
  | none, none, [r] =>
    match r.phases.getLast? with
    | none => s
    | some ph =>
      let at0 := r.ms + ((totalLen r.phases : Int) - ph.len) * 65536
      let span : Int := (anchorSpan : Int) * 65536
      if r.at a.mProg s.m7 - at0 < span then s
      else if r.unbounded then
        let p := phaseP ph span
        let ph' := { ph with p0 := p, len := anchorSpan }
        let pl : Plan := ⟨[ph'], none, false, true⟩
        let k := r.seg.kind
        if admitPlan k pl then
          s.modMot n fun a => { a with runs := [{ r with ms := at0 + span, ps := p, vs := ph.v0, phases := [ph'] }] }
        else s.stopAxis n false (some (.rejectParam, some noField)) none none
      else
        match r.seg.kind with
        | .hold _ _ =>
          if ph.len ≤ anchorSpan then s
          else s.modMot n fun a => { a with runs := [{ r with ms := at0 + span, phases := [{ ph with len := ph.len - anchorSpan }] }] }
        | _ => s
  | _, _, _ => s

/-- VELOCITY_REANCHOR (R93). -/
def execVelocityReanchor (n : AxisId) (s : State) : Host.Outcome State Fault Refusal := .next ((s.reanchor n).refresh n)

/-! ### Deadlines and timeouts (R63, R99, R131) -/

/-- A deadline of a running segment that is due, with no status decided and its end not reached (R62, R99). -/
def State.deadlineDue (s : State) (n : AxisId) (r : Run) : Bool :=
  let a := (s.ax n).mot
  r.decided.isNone && !r.over a.mProg s.m7 && (r.seg.deadline.map (reached32 a.mProg)) = some true

/-- The runs of an axis after a deadline: the one that is due takes TIMEOUT (R99). -/
def State.markTimeout (s : State) (n : AxisId) : State :=
  s.modMot n fun a => { a with runs := a.runs.map fun r =>
    if r.decided.isNone && (r.seg.deadline.map (reached32 a.mProg)) = some true then { r with decided := some (.timeout, some 0) }
    else r }

/-- The queued segments of an axis whose deadline is due complete with TIMEOUT and leave the queue (R99). -/
def State.expireQueued (s : State) (n : AxisId) : State :=
  let a := (s.ax n).mot
  let m := a.mProg / 65536
  let due := fun (g : Segment) => (g.deadline.map (reached32 a.mProg)) = some true
  (a.queue.filter due).foldl (fun s g => s.completeSeg n g .timeout (mpos32 a.mProg) (some 0) (Config.heldDelay a.mProg) m m)
    (s.modMot n fun a => { a with queue := a.queue.filter fun g => !due g })

/-- DEADLINE: what is due on an axis takes effect at the present snapshot; a retry suspends deadlines (R253). -/
def State.deadlines (s : State) (n : AxisId) : State :=
  let a := (s.ax n).mot
  if a.held.isSome then s
  else
    let s1 := s.endDone n
    let a := (s1.ax n).mot
    let s2 :=
      if a.runs.any (s1.deadlineDue n) then
        let h := match a.runs with
          | [r] => match r.seg.kind with
            | .hold _ _ => true
            | _ => false
          | _ => false
        if h then s1.stopAxis n false (some (.timeout, some 0)) none none
        else (s1.markTimeout n).stopAxis n false none none none
      else s1
    s2.expireQueued n

/-- DEADLINE (R99). -/
def execDeadline (n : AxisId) (s : State) : Host.Outcome State Fault Refusal := .next ((s.deadlines n).refresh n)

/-- A HOME's timeout that is due before its SLOW edge has qualified: it stops by R96 and completes TIMEOUT (R131). -/
def State.homeTimeout (s : State) (n : AxisId) : State :=
  let a := (s.ax n).mot
  match a.held, a.runs with
  | none, [r] =>
    if r.home ≠ .notHome && r.home ≠ .slowStop && r.decided.isNone && (r.timeoutAt.map (reached32 a.mProg)) = some true then
      s.stopAxis n false (some (.timeout, some 0)) none none
    else s
  | _, _ => s

/-- HOME_TIMEOUT (R131). -/
def execHomeTimeout (n : AxisId) (s : State) : Host.Outcome State Fault Refusal := .next ((s.homeTimeout n).refresh n)

end Sys2Proof.Machine
end

