-- ==== Sys2Proof/Machine/Drive.lean ====
section
/-! DEFINITION. Energising an axis and turning it off: EN lines, brake, the ends of what runs on it (R23, R121, R150, R182,
R242, R254, R260, R262, R325). -/
namespace Sys2Proof.Machine
open Sys2Proof

/-- EN may be high on the legs of an axis: safe-off inputs high, no lock-out, link fault, parity fault or thermal shutdown of the
group (R22, R242, R17, R414, R445). -/
def State.enAllowed (s : State) (n : AxisId) : Bool :=
  let g := s.grp (groupOf n)
  s.dev.safeA && s.dev.safeB && g.lockout = 0 && !g.link && !g.par && !g.thermSd && !s.dev.safeHold && !s.dev.gfault.getLsbD 0

/-- The legs an axis drives: its own, and its partner's in gang mode (R31). -/
def State.drivenLegs (s : State) (n : AxisId) : List LegId := (s.driven n).flatMap axisLegs

/-- The coils an axis drives. -/
def State.drivenCoils (s : State) (n : AxisId) : List CoilId := (s.driven n).flatMap fun k => [coilA k, coilB k]

/-- EN of a leg goes low and its carry is cleared (R14, R182). -/
def Leg.turnOff (l : Leg) : Leg :=
  { l with en := false, carry := 0, carryS := 0, offTicks := if l.en then 0 else l.offTicks }

/-- The legs of an axis go high-impedance. -/
def State.legsOff (s : State) (n : AxisId) : State :=
  (s.forAll (s.drivenLegs n) fun s m => s.modLeg m Leg.turnOff).modDrv n fun d => { d with energised := false, offPend := false }

/-- The observer of an axis at ENABLE (R224, R225, R229, R519). -/
def AxisObs.atEnable (o : AxisObs) (uinj : Nat) : AxisObs :=
  { o with sdir := 1, efMag := 0, valid := false, injWeak := false, injNext := none, inj := none, injDone := none, injRegime := false
           regimeFrames := 0, periods := 0, usableRun := 0, periodLen := 0, da := 0, db := 0, wrapped := false, refRun := uinj ≠ 0
           refOut := if uinj = 0 then 0 else 256, refLeft := if uinj = 0 then 0 else 256, refPar := 0, refPerp := 0, refDone := false
           stallRun := 0, stallDone := false, critA := false, critB := false, critEnc := false }

/-- No criterion is evaluated, which breaks the run (R235). -/
def AxisObs.noCriteria (o : AxisObs) : AxisObs :=
  { o with valid := false, stallRun := 0, stallDone := false, critA := false, critB := false, critEnc := false }

/-- The amplitude state at ENABLE: ghold at once, boost armed, TSTAND counted as elapsed (R148, R149, R150). -/
def State.enableAmp (s : State) (n : AxisId) : AmpState :=
  let h := s.gholdOf n (s.grp (groupOf n)).tg
  { amp := h, target := h, la := s.irunE n, armed := true, boostT := 0, headOff := false, noBoostT := 0
    idleT := msTicks (s.ax n).cfg.tstand }

/-- The axis is energised at a boundary as at ENABLE (R150); its brake, where it has one, is then timed (R121). -/
def State.energise (s : State) (n : AxisId) : State :=
  let ok := s.enAllowed n
  let s1 := s.forAll (s.drivenLegs n) fun s m => s.modLeg m fun l =>
    let en := ok && !l.intlk && !l.intlkHold
    { l with en := en, enNew := en && !l.en, tripped := false }
  let s2 := s1.forAll (s.drivenCoils n) fun s c => s.modCoil c fun k => { k with integ := 0, clipped := false, openRun := 0 }
  let a := s.enableAmp n
  let s3 := s2.modDrv n fun d =>
    { d with energised := true, offPend := false, sel := a, selPrev := a, brakeWait := (s.brakeMs n).isSome, brakeT := 0, brake := false }
  s3.modEnc n fun e => { e with closed := false, loop := {}, loopPrev := {} }

/-- What an ENABLE starts afresh beside the energising: the observer, with ef and the count of frames, and the encoder criterion
(R225, R231, R234). -/
def State.startObserver (s : State) (n : AxisId) : State :=
  let s1 := s.forAll (s.drivenCoils n) fun s c => s.modCoil c fun k => { k with ef := 0 }
  ((s1.modObs n fun o => o.atEnable (s.ax n).cfg.uinj.toNat).modDrv n fun d => { d with framesOn := 0 }).modEnc n fun e =>
    { e with fallback := false, armed := false, disarmed := false }

/-- A waiting ENABLE of an axis completes (R325). -/
def State.endEnable (s : State) (n : AxisId) (st : Status) (word : Word) : State :=
  (s.modDrv n fun d => { d with enabling := false }).endActs n [.enable] st word 0

/-- A running IDENTIFY_MOTOR of an axis ends with a status (R328). -/
def State.endIdent (s : State) (n : AxisId) (st : Status) (word : Word) : State :=
  match (s.ax n).prot.ident with
  | none => s
  | some i => (s.modProt n fun p => { p with ident := none }).complete i.ref st 0 (axByte n) (s.axMpos n) word

/-- An axis owned by SIDEBAND stopped without a side-band command (R353 bit 2). -/
def State.ownedAlert (s : State) (n : AxisId) : State :=
  if (s.ax n).prot.owner = .sideband && !(s.ax n).mot.atRest then s.alert 2 else s

/-- A side-band jog that waits for the rest of its axis is given up, and SB_JOG completes with a status (R350, R357). -/
def State.dropJogWait (s : State) (n : AxisId) (st : Status) (w : Word) : State :=
  ({ s with sb := { s.sb with jogWait := s.sb.jogWait.filter fun j => j.1 ≠ n } }).endActs n [.sbJog] st w 0

/-- What runs on an axis ends at once with a status: its segments, its jog, a waiting ENABLE, IDENTIFY_MOTOR and a retry;
its brake goes inactive (R78, R121, R256). -/
def State.endAll (s : State) (n : AxisId) (st : Status) (w : Word) : State :=
  let s := s.ownedAlert n
  let s1 := s.modProt n fun p => { p with retry := .none, tries := if p.retry = .none then p.tries else 0, partner := none }
  let s2 := s1.modMot n fun m => { m with jogBlocked := m.jogBlocked || m.jog.isSome }
  let s3 := ((s2.dropAll n st (some w)).endEnable n st w).endIdent n st w
  let s4 := s3.modDrv n fun d => { d with brake := false, brakeWait := false }
  ({ s4 with sb := { s4.sb with jogs := s4.sb.jogs.filter (· ≠ n) } }).dropJogWait n st w

/-- POSITION_UNSURE is set in MICROSTEP mode (R239, R242). -/
def State.setUnsure (s : State) (n : AxisId) : State :=
  if (s.ax n).cfg.setpoint then s else s.modMot n fun m => { m with unsure := true }

/-- The axis is disabled by an event: everything on it ends with the status, a DISABLE in progress completes, and its legs
go high-impedance at the next boundary. -/
def State.turnOff (s : State) (n : AxisId) (st : Status) (w : Word) : State :=
  let s1 := (s.endAll n st w).modDrv n fun d =>
    { d with enabled := false, energised := false, disabling := false, offPend := true }
  let s2 := s1.endActs n [.disable] .ok 0 0
  { s2 with q := { s2.q with snapOps := s2.q.snapOps.filter fun o => o ≠ .energise n } }

/-- The end of a DISABLE: the legs go high-impedance and DISABLE completes OK with the segments counted (R121, R548). -/
def State.finishDisable (s : State) (n : AxisId) : State :=
  let s1 := (s.legsOff n).modDrv n fun d =>
    { d with enabled := false, disabling := false, brakeWait := false, brake := false }
  let s2 := s1.modProt n fun p => { p with retry := .none, tries := 0, partner := none }
  let s3 := ((s2.modMot n fun m => { m with held := none }).endIdent n .rejectState noField).dropJogWait n .rejectState noField
  s3.endActs n [.disable] .ok 0 0

/-- The legs of an axis that was turned off go high-impedance at this boundary; a DISABLE then completes. -/
def State.offNow (s : State) (n : AxisId) : State :=
  let d := (s.ax n).drv
  if d.offPend then (if d.disabling then s.finishDisable n else s.legsOff n) else s

/-- A DISABLE in progress finds its axis at rest with a brake to set: at the boundary after that frame the brake output goes inactive,
before the legs change (R121). -/
def State.disableBrake (s : State) (n : AxisId) : State :=
  let d := (s.ax n).drv
  if d.disabling && !d.brakeWait && (s.ax n).mot.atRest && d.energised && (s.brakeMs n).isSome then
    s.modDrv n fun d => { d with brake := false, brakeWait := true }
  else s

/-- A DISABLE in progress at a boundary: without a brake the legs of an axis at rest go high-impedance at that boundary (R121). -/
def State.disableStep (s : State) (n : AxisId) : State :=
  let d := (s.ax n).drv
  if d.disabling && !d.brakeWait && (s.ax n).mot.atRest then s.finishDisable n else s

/-- ENABLE completes OK when its brake is active, or at the energising boundary without one; in SETPOINT mode when the loop
closes (R325). -/
def State.enableReady (s : State) (n : AxisId) : State :=
  let x := s.ax n
  if x.drv.enabling && !x.cfg.setpoint && !x.drv.brakeWait && x.prot.retry = .none then s.endEnable n .ok 0 else s

/-- The axis is energised at this boundary by ENABLE: it counts as enabled and takes up its master (R49, R325). -/
def State.enableNow (s : State) (n : AxisId) : State :=
  let m := (s.ax n).mot.master
  let p := s.tb.snap[m.val]
  let s1 := ((s.energise n).startObserver n).modDrv n fun d => { d with enabled := true }
  let s2 := s1.modMot n fun a => { a with mProg := p, mProgPrev := p, outHist := [], vel := 0, overspeed := false }
  s2.enableReady n

/-- BRAKE_DELAY: PARAM ms have passed on M7. After ENABLE, a lock-out or ENERGISE the brake releases; in a DISABLE the legs
go high-impedance at the next boundary (R121, R252, R325). -/
def State.brakeElapsed (s : State) (n : AxisId) : State :=
  let x := s.ax n
  if !x.drv.brakeWait then s
  else if x.drv.disabling then s.modDrv n fun d => { d with brakeWait := true, offPend := true }
  else (s.modDrv n fun d => { d with brakeWait := false, brake := x.drv.energised }).enableReady n

/-- BRAKE_DELAY (R121). -/
def execBrakeDelay (n : AxisId) (s : State) : Host.Outcome State Fault Refusal := .next (s.brakeElapsed n)

/-- BOOST_EXPIRY: the boost time has reached TBOOST and boost is disarmed (R148). -/
def State.boostExpired (s : State) (n : AxisId) : State :=
  let x := s.ax n
  if x.drv.sel.armed && msTicks x.cfg.tboost ≤ x.drv.sel.boostT then
    s.modDrv n fun d => { d with sel := { d.sel with armed := false, noBoostT := 0 } }
  else s

/-- BOOST_EXPIRY (R148). -/
def execBoostExpiry (n : AxisId) (s : State) : Host.Outcome State Fault Refusal := .next (s.boostExpired n)

/-- STANDSTILL_TIMEOUT: an axis that has stood for TSTAND takes ghold as its target (R146, R147). -/
def execStandstillTimeout (n : AxisId) (s : State) : Host.Outcome State Fault Refusal := .next ((s.selectAmp n).setCoils n)

/-- SHARE_ERR: the two bridges of a ganged coil have shared unequally for 16 checked frames; the axis is turned off with
DRIVE_FAULT (R164). The DRIVE_FAULT word of R254 has no classification here and is that of the last one. -/
def State.shareError (s : State) (n : AxisId) : State :=
  let p := (s.ax n).prot
  if s.ganged n && !s.isPartner n && (16 ≤ p.shareA || 16 ≤ p.shareB) then
    let w := BitVec.ofNat 32 (p.cls + p.firstLeg * 256 + p.tries * 65536 + bit p.hard * 2 ^ 24)
    ((s.turnOff n .driveFault w).modProt n fun p => { p with shareErr := true, shareA := 0, shareB := 0 }).shaleAxis n 21
  else s

/-- SHARE_ERR (R164). -/
def execShareErr (n : AxisId) (s : State) : Host.Outcome State Fault Refusal := .next (s.shareError n)

end Sys2Proof.Machine
end

