-- ==== Sys2Proof/Machine/Mica.lean ====
section
/-! DEFINITION. Leg PWM and Mica placement: edge words, waveforms, the carry stage, the plan of a group and the transfer of
edge words at a boundary (06_pwm_mica.md R170 to R196). -/
namespace Sys2Proof.Machine
open Sys2Proof

/-- tm, the minimum pulse in sixteenth-ticks, by DT (R180). -/
def tmOf (dt : Nat) : Nat := 512 + (1024 * dt + 4) / 5

/-- Sixteenth-ticks of the frame in force (R170). -/
def State.sl (s : State) : Nat := 16 * s.len

/-- The carry stage: width to place and new carry from a requested high time (R181). -/
def carryStage (h : Nat) (cy : Int) (tm sl : Nat) : Nat × Int :=
  let r : Int := h + cy
  if r < tm then (0, r)
  else if (sl : Int) - tm < r then (sl, r - sl)
  else (r.toNat, 0)

/-! ### The leg waveform (R173 to R175, R196) -/

/-- An edge word without its fine code (R172). -/
def coarseOf (x : Nat) : Nat := x / 16 * 16

/-- High intervals that a pair and an inherited tail schedule in one frame (R173, R174). -/
def highIntervals (on off tail sl : Nat) : List (Nat × Nat) :=
  let own := if on < off then [(on, off)] else if off < on && on < sl then [(on, sl)] else []
  if tail = 0 then own
  else match own with
    | [] => [(0, tail)]
    | (a, b) :: _ => if a ≤ tail then [(0, max tail b)] else [(0, tail), (a, b)]

/-- The level changes of a frame, from the level at the end of the frame before (R174). -/
def levelEdges (before : Bool) (sl : Nat) (iv : List (Nat × Nat)) : List Nat :=
  let start := iv.any fun p => p.1 = 0
  (if before = start then [] else [0]) ++
    iv.flatMap fun p => (if p.1 = 0 then [] else [p.1]) ++ (if p.2 < sl then [p.2] else [])

/-- Scheduled edges in time order under the minimum level time of a host-driven leg: what is driven, what stays postponed,
and whether the guard acted (R196). `pend` is a postponed edge, `prev` the last edge driven. -/
def guardEdges (tm : Int) : Option Nat → Int → List Nat → List Nat × Option Nat × Bool
  | pend, _, [] => ([], pend, false)
  | none, prev, t :: r =>
    if prev + tm ≤ t then
      let (l, o, g) := guardEdges tm none t r
      (t :: l, o, g)
    else
      let (l, o, _) := guardEdges tm (some (prev + tm).toNat) prev r
      (l, o, true)
  | some p, prev, t :: r =>
    if t ≤ p then
      let (l, o, _) := guardEdges tm none prev r
      (l, o, true)
    else if (p : Int) + tm ≤ t then
      let (l, o, _) := guardEdges tm none t r
      (p :: t :: l, o, true)
    else
      let (l, o, _) := guardEdges tm (some ((p : Int) + tm).toNat) p r
      (p :: l, o, true)

/-- High time of a frame from its first level and its edges (R175). -/
def highTime (sl : Nat) : Bool → Nat → List Nat → Nat
  | lvl, at', [] => if lvl then sl - at' else 0
  | lvl, at', t :: r => (if lvl then t - at' else 0) + highTime sl (!lvl) t r

/-- The time from a leg's last edge to the boundary that ends its running frame of `sl` sixteenths (R185). -/
def Leg.sinceEdge (l : Leg) (sl : Nat) : Nat :=
  match l.edges.getLast? with
  | some e => sl - e
  | none => min sl (l.e0 + sl)

/-- The active pair wraps, so that its tail stands in the next frame (R173). -/
def Leg.wraps (l : Leg) : Bool := l.off < l.on

/-- PULSE of a leg at `t` sixteenths of the running frame, and the time since its last change (R174). -/
def Leg.pulseAt (l : Leg) (t : Nat) : Bool × Nat :=
  let past := l.edges.filter (· ≤ t)
  (l.endHigh != ((l.edges.length - past.length) % 2 = 1), match past.getLast? with
    | some e => t - e
    | none => l.e0 + t)

/-- The low-side and the high-side switch of a leg at `t` sixteenths of the running frame, by EN and PULSE: each is turned on only
after the dead time of 40·DT ns since PULSE changed or EN rose (R14, R179; notes/assumptions/106.md). -/
def Leg.switches (l : Leg) (dt t : Nat) : Bool × Bool :=
  let (p, since) := l.pulseAt t
  let since := if l.enNew then min since t else since
  let on := l.en && 1024 * dt ≤ 5 * since
  (on && !p, on && p)

/-- The shadow pair reaches the active pair at a boundary: Mica's when committed (R176, R177), a host-driven leg's by its
COMMIT bit (R194). -/
def Leg.transfer (l : Leg) (hostDriven : Bool) : Leg :=
  if hostDriven then
    if !l.commitBit then l
    else if l.commitLate then { l with commitLate := false }
    else { l with on := l.onS, off := l.offS, hen := l.henS, commitBit := false, tripped := false }
  else if l.committed then { l with on := l.onS, off := l.offS, carry := l.carryS, committed := false }
  else l

/-- A leg enters a new frame of `sl` sixteenths after one of `old`: its edges and its high time, with the `tail` of the frame before.
`hold` is the level of a leg held by HB_DIRECT; the Bool answers whether the guard of R196 acted. -/
def Leg.enter (l : Leg) (old sl tm tail : Nat) (coarse hostDriven : Bool) (hold : Option Bool) : Leg × Bool :=
  let e0 := l.sinceEdge old
  let l1 := { l.transfer hostDriven with tail := tail, e0 := e0, enNew := false }
  let f := fun x => if coarse then coarseOf x else x
  match hold with
  | some b =>
    ({ l1 with edges := if b = l.endHigh then [] else [0], high := if b then sl else 0, endHigh := b, owed := none }, false)
  | none =>
    let iv := highIntervals (f l1.on.toNat) (f l1.off.toNat) (f tail) sl
    let sched := levelEdges (l.endHigh != l.owed.isSome) sl iv
    let (ds, pend, g) := if hostDriven then guardEdges tm l.owed (-(e0 : Int)) sched else (sched, none, false)
    let (ds, owed) := match pend with
      | some p => if p < sl then (ds ++ [p], none) else (ds, some (p - sl))
      | none => (ds, none)
    ({ l1 with edges := ds, high := highTime sl l.endHigh 0 ds, endHigh := l.endHigh != (ds.length % 2 = 1), owed := owed }, g)

/-- What HB_DIRECT asks of local leg `m`: its low-side and its high-side switch (R257). -/
def Group.direct (g : Group) (m : Nat) : Bool × Bool := (bitOf g.hbDirect (2 * m), bitOf g.hbDirect (2 * m + 1))

/-- The level at which HB_DIRECT holds a leg; a leg with both bits set is held off (R257, R258). -/
def Group.directHold (g : Group) (m : Nat) : Option Bool :=
  match g.direct m with
  | (false, false) => none
  | (lo, hi) => some (hi && !lo)

/-- EN of a leg of a host-driven group: HEN of the active pair, or a switch held by HB_DIRECT, never while the interlock
holds the leg off (R193, R257, R258). -/
def Leg.hostEn (l : Leg) (g : Group) (m : Nat) : Bool :=
  !l.intlk && !l.intlkHold && !l.tripped &&
    match g.direct m with
    | (false, false) => l.hen
    | (lo, hi) => lo != hi

/-- Every leg of a group follows the EN rule of a host-driven group (R22, R16, R193). -/
def State.hostEnables (s : State) (g : GroupId) : State :=
  let x := s.grp g
  let ok := s.dev.safeA && s.dev.safeB && x.lockout = 0 && !x.link && !x.par && !s.dev.safeHold && !s.dev.gfault.getLsbD 0
  s.forAll (List.finRange 16) fun s m => s.modLeg (legAt g m) fun l =>
    let en := ok && l.hostEn x m.val
    { l with en := en, enNew := l.enNew && en || en && !l.en, offTicks := if l.en && !en then 0 else l.offTicks }

/-- The group takes the HOSTEDGE written at a boundary, before its pairs transfer. On the way back to Mica HB_DIRECT, every HEN, every
pair, every postponed edge and every pending COMMIT bit is cleared; on the way to the host no plan of Mica is left (R193, R196, R507). -/
def State.takeHostedge (s : State) (g : GroupId) : State :=
  let x := s.grp g
  let s1 := s.modGroup g fun x => { x with hostDriven := x.hostedge }
  if x.hostDriven = x.hostedge then s1
  else
    let s2 := s1.forAll (List.finRange 8) fun s q => s.modCoil (coilAt g q) fun c => { c with k := none, kCur := none, winP := false, winG := false }
    if x.hostedge then s2.forAll (List.finRange 16) fun s m => s.modLeg (legAt g m) fun l => { l with committed := false }
    else
      (s2.modGroup g fun x => { x with hbDirect := 0 }).forAll (List.finRange 16) fun s m => s.modLeg (legAt g m) fun l =>
        { l with hen := false, henS := false, on := 0, off := 0, onS := 0, offS := 0, committed := false, commitBit := false
                 commitLate := false, owed := none, en := false, intlkHold := false, tripped := false
                 offTicks := if l.en then 0 else l.offTicks }

/-- Boundary step of a group: edge words take effect and the waveform of the new frame is known (R59 step 1). -/
def State.enterFrame (s : State) (old : Nat) (g : GroupId) : State :=
  let tails := (List.finRange 16).map fun m => let l := s.leg (legAt g m); if l.wraps then l.off.toNat else 0
  let s := s.takeHostedge g
  let x := s.grp g
  let tm := tmOf x.dtEff.toNat
  let s1 := s.forAll (List.finRange 8) fun s q =>
    let c := coilAt g q
    if (s.leg (legPlus c)).committed && !x.hostDriven then s.modCoil c fun k => { k with kCur := k.k, minusCur := k.minus } else s
  let s2 := s1.forAll (List.finRange 16) fun s m =>
    let (l, acted) := (s.leg (legAt g m)).enter old s.sl tm (tails.getD m.val 0) x.fineLost x.hostDriven (x.directHold m.val)
    let s' := s.modLeg (legAt g m) fun _ => l
    if acted then s'.modGroup g fun x => { x with edgeGuard := true } else s'
  if x.hostDriven then s2.hostEnables g else s2

/-! ### Placement (R184 to R192) -/

/-- Cyclic distance of two positions of a frame. -/
def cyc (sl a b : Nat) : Nat :=
  let d := (a + sl - b % sl) % sl
  min d (sl - d)

/-- Group offset (R184). -/
def gridOff (g l : Nat) : Nat := 4 * g * l / 3
/-- Grid centre of position `k` (R184). -/
def gridPos (g l k : Nat) : Nat := (k * l / 2 + gridOff g l) % (16 * l)
/-- ADC instant of position `k` (R184). -/
def gridInst (g l k : Nat) : Nat := 16 * ((gridPos g l k + 8) / 16 % l)
/-- The pulse-centre and the gap-centre instant of a coil placed at `k` (R152, R184). -/
def gridInsts (g l k : Nat) : Nat × Nat := (gridInst g l k, gridInst g l ((k + 16) % 32))

/-- What Mica knows of a coil before it places it. -/
structure PlanCoil where
  /-- Index of the coil in its group. -/
  q : Fin 8
  w : Nat
  /-- |istar| in mA. -/
  cur : Nat
  minus : Bool
  /-- New carry of the modulated leg. -/
  carry : Int
  /-- Either leg has an open tail. -/
  pinned : Bool
  prevk : Nat
  /-- The modulated leg is high at the boundary, there after a 100 % pair, and the time since its last edge. -/
  high : Bool
  full : Bool
  e0 : Nat
  /-- The modulated leg, and the other one, end the running frame high without a tail, so that the level ends at the boundary unless
  the new pulse goes on from there (R174). -/
  ends : Bool
  otherEnds : Bool
deriving DecidableEq, Repr

/-- A coil that has its place. -/
structure Placed where
  coil : PlanCoil
  k : Nat
  on : Nat
  off : Nat
deriving DecidableEq, Repr

/-- A plan in the making. -/
structure MicaPlan where
  edges : List Nat
  hist : List Nat
  placed : List Placed
deriving DecidableEq, Repr

/-- Edge words of a coil of width `w` at `k` (R185). -/
def PlanCoil.words (x : PlanCoil) (g l tm k : Nat) : Nat × Nat :=
  let sl := 16 * l
  if x.w = 0 then (0, 0)
  else if x.w = sl then (if x.high then 0 else tm - x.e0, sl)
  else
    let on := (gridPos g l k + sl - x.w / 2) % sl
    (on, if sl < on + x.w then on + x.w - sl else on + x.w)

/-- The edges a coil puts into the group's frame at `k`: those of its pulse, and the fall at the boundary of a leg that ended the
running frame high and does not go on from there (R174, R185). -/
def PlanCoil.edgesAt (x : PlanCoil) (g l tm k : Nat) : List Nat :=
  let sl := 16 * l
  let (on, off) := x.words g l tm k
  let goesOn := x.w ≠ 0 && on = 0 && x.high
  let falls := (if x.ends && !goesOn then [0] else []) ++ if x.otherEnds then [0] else []
  let rise := if x.w = 0 || goesOn then [] else [on]
  let fall := if x.w = 0 || x.w = sl then [] else [off % sl]
  falls ++ rise ++ fall

/-- c1 (R186): a pulse that goes on from a level that ended high makes no low interval, except after a 100 % pair, where R186 asks for
tm. -/
def PlanCoil.c1 (x : PlanCoil) (g l tm k : Nat) : Bool :=
  if x.w = 0 || x.w = 16 * l then true
  else
    let on := (x.words g l tm k).1
    if x.high then tm ≤ on || (on = 0 && !x.full) else tm ≤ on + x.e0

/-- Smallest distance from a candidate's edges to any placed edge (R189). -/
def PlanCoil.minsep (x : PlanCoil) (p : MicaPlan) (g l tm k : Nat) : Nat :=
  ((x.edgesAt g l tm k).flatMap fun a => p.edges.map fun b => cyc (16 * l) a b).foldl min (16 * l)

/-- Two coils of a group share a converter. -/
def sameAdc (a b : Fin 8) : Bool := a.val / 4 = b.val / 4

/-- An instant has no edge within 300 ns (R153 rule 1). -/
def quiet (sl i : Nat) (edges : List Nat) : Bool := edges.all fun e => 1536 < cyc sl i e

/-- No sample of a lower-numbered coil of the same converter lies less than 200 ns from instant `i` of coil `q`
(R153 rule 3). -/
def unshared (g l i : Nat) (q : Fin 8) (others : List (Fin 8 × Nat)) : Bool :=
  others.all fun o => !(o.1 < q && sameAdc o.1 q) ||
    (let (a, b) := gridInsts g l o.2; 1024 ≤ cyc (16 * l) i a && 1024 ≤ cyc (16 * l) i b)

/-- Which instants of coil `q` at `k` are usable by rules 1 and 3 (R153). -/
def usableAt (g l : Nat) (edges : List Nat) (others : List (Fin 8 × Nat)) (q : Fin 8) (k : Nat) : Bool × Bool :=
  let (a, b) := gridInsts g l k
  (quiet (16 * l) a edges && unshared g l a q others, quiet (16 * l) b edges && unshared g l b q others)

/-- At least one instant is usable. -/
def anyUsable (u : Bool × Bool) : Bool := u.1 || u.2

/-- c2 (R186). -/
def PlanCoil.c2 (x : PlanCoil) (p : MicaPlan) (g l tm ts k : Nat) : Bool :=
  (x.edgesAt g l tm k).all fun a => p.edges.all fun b => ts ≤ cyc (16 * l) a b

/-- The positions already given. -/
def MicaPlan.places (p : MicaPlan) : List (Fin 8 × Nat) := p.placed.map fun y => (y.coil.q, y.k)

/-- c3 (R186). -/
def PlanCoil.c3 (x : PlanCoil) (p : MicaPlan) (g l tm k : Nat) : Bool :=
  let es := p.edges ++ x.edgesAt g l tm k
  let pl := p.places
  anyUsable (usableAt g l es pl x.q k) &&
    pl.all fun y => !anyUsable (usableAt g l p.edges pl y.1 y.2) || anyUsable (usableAt g l es ((x.q, k) :: pl) y.1 y.2)

/-- Overlap of two intervals. -/
def overlap (a b c d : Nat) : Nat := min b d - max a c

/-- ov(k, b): overlap in sixteenths of a coil's high interval with bin `b` (R184, R186). -/
def PlanCoil.ov (x : PlanCoil) (g l tm k b : Nat) : Nat :=
  if x.w = 0 then 0
  else
    let sl := 16 * l
    let on := (x.words g l tm k).1
    let lo := b * l / 2
    let hi := (b + 1) * l / 2
    if on + x.w ≤ sl then overlap on (on + x.w) lo hi
    else if x.w = sl then overlap on sl lo hi
    else overlap on sl lo hi + overlap 0 (on + x.w - sl) lo hi

/-- The supply-current cost of a candidate (R186). -/
def PlanCoil.cost (x : PlanCoil) (p : MicaPlan) (g l tm k : Nat) : Nat :=
  if x.w = 0 then 0 else ((List.range 32).map fun b => p.hist.getD b 0 * x.ov g l tm k b).sum

/-- The candidate of least cost among the positions given, ties to the lowest. -/
def leastBy (f : Nat → Nat) (ks : List Nat) : Option Nat :=
  (ks.foldl (fun (best : Option (Nat × Nat)) k => match best with
    | none => some (k, f k)
    | some (bk, bc) => let c := f k; if c < bc then some (k, c) else some (bk, bc)) none).map (·.1)

/-- The position Mica gives a coil (R188, R189). -/
def PlanCoil.choose (x : PlanCoil) (p : MicaPlan) (g l tm ts : Nat) : Nat :=
  if x.pinned then x.prevk
  else
    let ok1 := (List.range 32).filter (x.c1 g l tm)
    let ok2 := ok1.filter (x.c2 p g l tm ts)
    match leastBy (x.cost p g l tm) (ok2.filter (x.c3 p g l tm)) with
    | some k => k
    | none =>
      match ok2 with
      | k :: _ => k
      | [] => (leastBy (fun k => 16 * l - x.minsep p g l tm k) ok1).getD 0

/-- One coil is placed (R189). -/
def MicaPlan.place (p : MicaPlan) (g l tm ts : Nat) (x : PlanCoil) : MicaPlan :=
  let k := x.choose p g l tm ts
  let (on, off) := x.words g l tm k
  { edges := p.edges ++ x.edgesAt g l tm k
    hist := if x.w = 0 then p.hist else (List.range 32).map fun b => p.hist.getD b 0 + x.cur * x.ov g l tm k b
    placed := p.placed ++ [⟨x, k, on, off⟩] }

/-- A coil enters the placing order: pinned coils by index, then by descending width, ties by index (R189). -/
def insertOrder (x : PlanCoil) : List PlanCoil → List PlanCoil
  | [] => [x]
  | y :: r =>
    let before := if x.pinned != y.pinned then x.pinned
      else if x.pinned then x.q < y.q
      else y.w < x.w || (x.w = y.w && x.q < y.q)
    if before then x :: y :: r else y :: insertOrder x r

/-- The coils of a group that Mica places: those of enabled axes; a ganged coil is one coil, its lead's (R189, R191). -/
def State.placedCoils (s : State) (g : GroupId) : List (Fin 8) :=
  (List.finRange 8).filter fun q => let n := axisOfCoil (coilAt g q); (s.ax n).drv.enabled && !s.isPartner n

/-- The requested high time of a coil (R160); with vm 0 the quotient is a free value (notes/assumptions/8.md). -/
def highOf (u : Int) (vm l : Nat) : Nat :=
  min (16 * l) (if vm = 0 then (Config.divByZero (|u| * l * 16)).toNat else u.natAbs * l * 16 / vm)

/-- The modulated leg of a coil, by the sign of u. -/
def coilLeg (c : CoilId) (minus : Bool) : LegId := if minus then legMinus c else legPlus c

/-- What Mica knows of a coil (R160, R181, R182, R185, R188). -/
def State.planCoil (s : State) (vm : Nat) (g : GroupId) (q : Fin 8) : PlanCoil :=
  let c := coilAt g q
  let x := s.coil c
  let minus := x.u < 0
  let m := s.leg (coilLeg c minus)
  let old := s.leg (coilLeg c x.minusCur)
  let cy := if minus = x.minusCur then m.carry else -old.carry
  let (w, cy') := carryStage (highOf x.u vm s.len) cy (tmOf (s.grp g).dtEff.toNat) s.sl
  let d := (s.ax (axisOfCoil c)).drv
  { q := q, w := w, cur := (if c.val % 2 = 0 then d.iaUsed else d.ibUsed).natAbs / 256, minus := minus, carry := cy'
    pinned := (s.leg (legPlus c)).wraps || (s.leg (legMinus c)).wraps, prevk := x.kCur.getD 0
    high := m.endHigh, full := m.on = 0 && m.off.toNat = s.sl, e0 := m.sinceEdge s.sl, ends := m.endHigh && !m.wraps
    otherEnds := let o := s.leg (coilLeg c !minus); o.endHigh && !o.wraps }

/-- The plan of a group for the next frame (R189). -/
def State.micaPlan (s : State) (vm : Nat) (g : GroupId) : MicaPlan :=
  let qs := s.placedCoils g
  let order := (qs.map (s.planCoil vm g)).foldl (fun l x => insertOrder x l) []
  let tails := (List.finRange 16).filterMap fun m =>
    let l := s.leg (legAt g m)
    if l.wraps && !s.isPartner (axisOfLeg (legAt g m)) then some l.off.toNat else none
  order.foldl (fun p x => p.place g.val s.len (tmOf (s.grp g).dtEff.toNat) (16 * s.tb.tsepEff.toNat) x)
    ⟨tails, List.replicate 32 0, []⟩

/-- Some two edges of a plan end closer than ts (R190). -/
def tsepBad (sl ts : Nat) : List Nat → Bool
  | [] => false
  | e :: r => (r.any fun f => cyc sl e f < ts) || tsepBad sl ts r

/-- The calibration slot of a converter: the lowest position clear of every edge and of its own samples (R192). -/
def MicaPlan.slot (p : MicaPlan) (g l : Nat) (half : Nat) : Option Nat :=
  (List.range 32).find? fun k =>
    let i := gridInst g l k
    quiet (16 * l) i p.edges &&
      p.places.all fun y => y.1.val / 4 ≠ half || (let (a, b) := gridInsts g l y.2
                                                   1024 ≤ cyc (16 * l) i a && 1024 ≤ cyc (16 * l) i b)

/-- High time that dropping the fine codes of a pair loses (R183). -/
def fineLoss (on off : Nat) : Int :=
  if on < off then ((off : Int) - on) - ((coarseOf off : Int) - coarseOf on)
  else if off < on then ((off : Int) - on) - ((coarseOf off : Int) - coarseOf on)
  else 0

/-- A pair is written to a leg's shadow with its carry (R176). -/
def Leg.shadow (l : Leg) (on off : Nat) (carry : Int) : Leg :=
  { l with onS := BitVec.ofNat 20 on, offS := BitVec.ofNat 20 off, carryS := carry }

/-- The legs that carry a coil's pulse: its modulated leg, and the partner's in gang mode (R191). -/
def State.pulseLegs (s : State) (c : CoilId) (minus : Bool) : List LegId :=
  (s.driven (axisOfCoil c)).map fun n => coilLeg (if c.val % 2 = 0 then coilA n else coilB n) minus

/-- A plan is committed: shadow pairs, carries, positions, windows and slots of a group (R176, R189, R190, R192). -/
def State.commitPlan (s : State) (g : GroupId) (p : MicaPlan) : State :=
  let l := s.len
  let fine := (s.grp g).fineLost
  let s1 := s.forAll (List.finRange 16) fun s m => s.modLeg (legAt g m) fun l => { l.shadow 0 0 0 with committed := true }
  let s2 := s1.forAll (List.finRange 8) fun s q => s.modCoil (coilAt g q) fun c => { c with k := none, winP := false, winG := false }
  let s3 := s2.forAll p.placed fun s y =>
    let c := coilAt g y.coil.q
    let (wp, wg) := usableAt g.val l p.edges p.places y.coil.q y.k
    let cy := y.coil.carry + (if fine && y.coil.w ≠ 0 then fineLoss y.on y.off else 0)
    let s' := s.modCoil c fun k => { k with k := some y.k, minus := y.coil.minus, winP := wp, winG := wg }
    s'.forAll (s'.pulseLegs c y.coil.minus) fun s m => s.modLeg m fun lg => lg.shadow y.on y.off cy
  let lost := maskOf ((List.finRange 8).map fun q =>
    p.placed.any fun y => y.coil.q = q && !anyUsable (usableAt g.val l p.edges p.places q y.k))
  let s4 := s3.modGroup g fun x => { x with
    quietLost := x.quietLost ||| BitVec.ofNat 8 lost
    tsepViol := x.tsepViol || tsepBad (16 * l) (16 * s.tb.tsepEff.toNat) p.edges }
  s4.forAll (List.finRange 2) fun s h => s.modAdc ⟨2 * g.val + h.val, by omega⟩ fun a =>
    let k := p.slot g.val l h.val
    { a with slotPlan := k, forcedPlan := none
             noSlot := if k.isSome then 0 else if a.noSlot < 4096 then a.noSlot + 1 else 4097 }

/-- Step 7 of a frame for one group: nothing is planned for a host-driven group, and no slot is reported (R189, R192, R193). -/
def State.micaGroup (s : State) (vm : Nat) (g : GroupId) : State :=
  if (s.grp g).hostDriven then
    s.forAll (List.finRange 2) fun s h => s.modAdc ⟨2 * g.val + h.val, by omega⟩ fun a => { a with slotPlan := none, forcedPlan := none }
  else s.commitPlan g (s.micaPlan vm g)

/-- MISSED_COMMIT: the pairs of a group were not committed by the deadline; each leg will repeat its active pair and its
counter counts (R60, R177); a host-driven repeat is not counted (R193). -/
def State.missedCommit (s : State) (g : GroupId) : State :=
  if (s.grp g).hostDriven then s
  else s.forAll (List.finRange 16) fun s m => s.modLeg (legAt g m) fun l =>
    { l with committed := false, miss := if l.miss = 0xFFFF then l.miss else l.miss + 1 }

/-- MISSED_COMMIT (R60). -/
def execMissedCommit (g : GroupId) (s : State) : Host.Outcome State Fault Refusal := .next (s.missedCommit g)

end Sys2Proof.Machine
end

