-- ==== Sys2Proof/Machine/CurrentLoop.lean ====
section
/-! DEFINITION. Coil current: the sample correction chain, the combination of samples, the current loop, the applied voltage,
the open-coil check, current sharing and IDENTIFY_MOTOR's run (05_current_control.md R151 to R164; 07_quartz_calibration.md
R203, R204, R209, R218, R219; 09_power_stage.md R259; 12_opcodes.md R328). -/
namespace Sys2Proof.Machine
open Sys2Proof

/-! ### Samples (R151 to R155, R163, R203) -/

/-- The correction chain from a raw conversion to a code (R203). -/
def correct (raw oa ga os gs : Int) : Int :=
  let g := ga * gs / 16384
  let t := (raw * 16 - oa) * g / 16384 - os
  clampI (-2048) 2047 ((t + 8) / 16)

/-- The code of a sample of a leg (R203, R204). -/
def sampleCode (a : Adc) (l : Leg) (raw : BitVec 12) : Int := correct raw.toInt a.oa a.ga l.os l.gs

/-- The raw result is at the converter limit (R153). -/
def atLimit (raw : BitVec 12) : Bool := raw.toInt = -2048 || raw.toInt = 2047

/-- Edges of a group around the frame that ended, on its time axis: the last edge of each leg before it, its own edges, and
those of the frame that begins (R153 rule 1). `s0` is the state before the boundary, `s1` after it. -/
def edgesAround (s0 s1 : State) (g : GroupId) : List Int :=
  (List.finRange 16).flatMap fun m =>
    let l := s0.leg (legAt g m)
    (-(l.e0 : Int)) :: (l.edges.map fun (e : Nat) => (e : Int)) ++ ((s1.leg (legAt g m)).edges.map fun (e : Nat) => (e : Int) + s0.sl)

/-- An instant has no edge within 300 ns before or after (R153 rule 1). -/
def clearOf (es : List Int) (i : Nat) : Bool := es.all fun e => 1536 < |e - i|

/-- The coils of a group that were sampled in the running frame, with their positions. -/
def State.sampled (s : State) (g : GroupId) : List (Fin 8 × Nat) :=
  (List.finRange 8).filterMap fun q => (s.coil (coilAt g q)).kCur.map fun k => (q, k)

/-- The instant a forced calibration slot of a converter took (R215, R153 rule 2). -/
def State.forcedInstant (s : State) (a : AdcId) : Option Nat :=
  match (s.adc a).forced with
  | none => none
  | some c => (s.coil c).kCur.map fun k => let (x, y) := gridInsts (groupOfAdc a).val s.len k; max x y

/-- Local index of a coil in its group. -/
def localCoil (c : CoilId) : Fin 8 := ⟨c.val % 8, by omega⟩

/-- The leg whose sense FET samples a bridge: its unmodulated leg, or the plus leg when both are at 0 % (R152). -/
def State.sensedLeg (s : State) (c : CoilId) (minus : Bool) : LegId :=
  if (s.leg (legPlus c)).high = 0 && (s.leg (legMinus c)).high = 0 then legPlus c else coilLeg c (!minus)

/-- The bridge that gives the later-listed sample of a coil: its own, or the partner's in gang mode (R163). -/
def State.secondBridge (s : State) (c : CoilId) : CoilId :=
  let n := axisOfCoil c
  if s.ganged n then (if c.val % 2 = 0 then coilA (partnerOf n) else coilB (partnerOf n)) else c

/-- One frame's usable samples of a coil in Q16.8 mA (R151, R153). -/
structure CoilSamples where
  first : Option Int
  second : Option Int
  sat : Bool
deriving DecidableEq, Repr

/-- The samples of a coil taken in the frame that ended (R152, R153, R163). -/
def samplesOf (s0 : State) (inp : FrameInputs) (es : List Int) (c : CoilId) : CoilSamples :=
  match (s0.coil c).kCur with
  | none => ⟨none, none, false⟩
  | some k =>
    let g := groupOf (axisOfCoil c)
    let q := localCoil c
    let c2 := s0.secondBridge c
    let (a, b) := gridInsts g.val s0.len k
    let adc := s0.adc (adcOf c)
    let others := s0.sampled g
    let lost := (s0.grp g).linkLost
    let forced := s0.forcedInstant (adcOf c)
    let ua := clearOf es a && unshared g.val s0.len a q others && forced ≠ some a && !lost.contains (q, false)
    let ub := clearOf es b && unshared g.val s0.len b q others && forced ≠ some b && !lost.contains (localCoil c2, true)
    let minus := (s0.coil c).minusCur
    let ra := inp.pulse[c.val]
    let rb := inp.gap[c2.val]
    let va := sampleCode adc (s0.leg (s0.sensedLeg c minus)) ra * 750
    let vb := sampleCode adc (s0.leg (s0.sensedLeg c2 minus)) rb * 750
    ⟨if ua then some va else none, if ub then some vb else none, (ua && atLimit ra) || (ub && atLimit rb)⟩

/-- The combined sample of a coil; none when no sample was usable (R154, R163). -/
def CoilSamples.value (x : CoilSamples) (gang : Bool) : Option Int :=
  match x.first, x.second with
  | some a, some b => some (if gang then a + b else (a + b) / 2)
  | some a, none => some (if gang then 2 * a else a)
  | none, some b => some (if gang then 2 * b else b)
  | none, none => none

/-- The mean, floored, of a list of values. -/
def meanOf (l : List Int) : Int := if l.isEmpty then 0 else l.sum / l.length

/-- A coil takes its samples: x, imeas, its usable flags and the count of frames without one (R154, R155). -/
def Coil.measure (c : Coil) (v : Option Int) (inj : Bool) : Coil :=
  let x := v.getD (c.xs.headD c.imeas)
  let xs := (x :: c.xs).take 4
  { c with xs := xs, imeasPrev := c.imeas, imeas := if inj then meanOf xs else x
           usablePrev := c.usable, usable := v.isSome
           lost := if v.isSome then 0 else min 16 (c.lost + 1), sampleLost := c.sampleLost && v.isNone }

/-- The check of how a ganged coil's current divides, over consecutive checked frames (R164). -/
def shareCount (cnt : Nat) (x : CoilSamples) (imeas : Int) (amp : Nat) : Nat :=
  match x.first, x.second with
  | some a, some b =>
    if (amp : Int) * 256 < 10 * |imeas| then (if |imeas| < 4 * |a - b| then min 16 (cnt + 1) else 0) else cnt
  | _, _ => cnt

/-- The amplitude of the coil references in force: that of R147, or |τ| while the position loop is closed (R168). -/
def Axis.ampNow (x : Axis) : Nat :=
  if x.cfg.setpoint && x.enc.closed && !x.enc.fallback then x.enc.loop.tau.natAbs else x.drv.sel.amp

/-- A live zero sample joins the ring of its leg (R209): `raw` taken on a plus leg whose coil has carried no current; `l` and `adc`
hold the terms at its conversion (R198). -/
def Leg.liveZero (l : Leg) (adc : Adc) (raw : BitVec 12) : Leg :=
  match l.zhiz with
  | none => l
  | some z =>
    if |16 * sampleCode adc l raw - z| ≤ 128 then
      let r := (raw.toInt * 16 :: l.zring).take 16
      { l with zring := r, osTarget := if r.length = 16 then some (r.sum / 16 - adc.oa) else l.osTarget }
    else l

/-- The live zero samples of a coil in the frame that ended (R209). -/
def State.liveZeros (s s0 : State) (inp : FrameInputs) (x : CoilSamples) (c : CoilId) : State :=
  let one := fun (s : State) (b : CoilId) (raw : BitVec 12) (used : Bool) =>
    if used && (s0.leg (legPlus b)).high = 0 && (s0.leg (legMinus b)).high = 0 then
      s.modLeg (legPlus b) fun l => l.liveZero (s0.adc (adcOf b)) raw
    else s
  if 64 ≤ (s0.coil c).zeroRun then
    let c2 := s0.secondBridge c
    one (one s c inp.pulse[c.val] x.first.isSome) c2 inp.gap[c2.val] x.second.isSome
  else s

/-- Both coils of an enabled axis take their samples of the frame that ended (R59 step 6, R152, R154). -/
def State.sampleAxis (s s0 : State) (inp : FrameInputs) (es : List Int) (n : AxisId) : State :=
  if !(s.ax n).drv.enabled || s.isPartner n then s
  else
    let xa := samplesOf s0 inp es (coilA n)
    let xb := samplesOf s0 inp es (coilB n)
    let gang := s.ganged n
    let inj := (s.ax n).obs.injDone.isSome
    let amp := (s.ax n).ampNow
    let s1 := (s.modCoil (coilA n) fun c => c.measure (xa.value gang) inj).modCoil (coilB n) fun c => c.measure (xb.value gang) inj
    let s2 := s1.modDrv n fun d => { d with senseSat := xa.sat || xb.sat }
    let s3 := if gang then s2.modProt n fun p => { p with
        shareA := shareCount p.shareA xa (s1.coil (coilA n)).imeas amp, shareB := shareCount p.shareB xb (s1.coil (coilB n)).imeas amp }
      else s2
    (s3.liveZeros s0 inp xa (coilA n)).liveZeros s0 inp xb (coilB n)

/-! ### Applied voltage (R161) -/

/-- The applied voltage and injection of the frame that begins become those of the frame before (R161, R228). -/
def State.applied (s : State) (vm : Nat) (c : CoilId) : State :=
  let h : Int := ((s.leg (legPlus c)).high : Int) - (s.leg (legMinus c)).high
  s.modCoil c fun x => { x with uaPrev := x.ua, ua := vm * h / (s.sl : Int), uinjPrev := x.uinj, uinj := x.uinjNext }

/-! ### The loop (R156 to R158) -/

/-- One frame of a coil's loop (R157); `uinj` is the injection voltage it adds. -/
def Coil.loop (c : Coil) (cfg : AxisCfg) (vm : Nat) (istar ebemf uinj : Int) : Coil :=
  let e := istar - c.imeas
  let up := cfg.kp * e / 256000
  let ff := cfg.rcoil * istar / 256000 + ebemf
  let wind := c.clipped && sgn e = c.clipDir
  let integ := if wind || !c.usable || c.sampleLost then c.integ else limitMag (2 ^ 31 - 1) (c.integ + cfg.ki * e / 1000)
  let u := if c.sampleLost then ff else up + integ / 256 + ff + uinj
  { c with integ := integ, uPrev := c.u, u := limitMag vm u, clipped := (vm : Int) < |u|, clipDir := sgn u
           uinjNext := if c.sampleLost then 0 else uinj }

/-- The open condition of a coil (R259). -/
def Coil.openNow (c : Coil) (istar : Int) : Bool :=
  c.usable && 25600 ≤ |istar| && |c.imeas| < |istar| / 8 && (c.clipped || |c.uPrev| < |c.u|)

/-- The sign of the injection at a place in its period (R228). -/
def injSign (phase : Nat) : Int := if phase < 2 then 1 else -1

/-- Injection is added to the voltages of the frame to come: in the injection regime, so long as that frame is one of the 16 after it,
and during a reference (R227, R229). -/
def AxisObs.injects (o : AxisObs) (cfg : AxisCfg) : Bool :=
  cfg.uinj ≠ 0 && (o.injRegime || o.regimeFrames + 2 < 16 || (o.refRun && 0 < o.refOut))

/-- The injection of a frame: the sign and the references of that frame, which its loops put into the voltages of the next one (R156,
R228; DEDUCED, notes/assumptions/109.md). A reference begins with a whole period (R229). -/
def State.nextInjection (s : State) (n : AxisId) : Option InjFrame :=
  let x := s.ax n
  let o := x.obs
  let ph := (s.frameNat + n.val % 4) % 4
  if o.injects x.cfg then
    some { sign := injSign ph, phase := ph, ra := x.drv.ra, rb := x.drv.rb
           ref := if o.refRun && 0 < o.refOut && (ph = 0 || o.refOut % 4 ≠ 0) then some ((256 - o.refOut) / 4) else none }
  else none

/-- The injection belongs to the second half of a reference, across the field (R229). -/
def InjFrame.across (j : InjFrame) : Bool := j.ref.any fun i => 32 ≤ i

/-- Injection voltages of both coils (R228, R229). -/
def InjFrame.volts (j : InjFrame) (uinj : Nat) : Int × Int :=
  let k := j.sign * uinj
  if j.across then (-(k * j.rb) / 131008, k * j.ra / 131008) else (k * j.ra / 131008, k * j.rb / 131008)

/-- The loops of a frame have used an injection; a reference counts the frames it has injected (R229). -/
def AxisObs.inject (o : AxisObs) (j : Option InjFrame) : AxisObs :=
  { o with injNext := j, refOut := if (j.bind (·.ref)).isSome then o.refOut - 1 else o.refOut }

/-- The injection moves on with the frame: what the loops added is applied, and what was applied can be read in the samples (R228,
R230). -/
def AxisObs.enterFrame (o : AxisObs) : AxisObs := { o with injDone := o.inj, inj := o.injNext, injNext := none }

/-- What IDENTIFY_MOTOR asks of the coils in its frame: set-points, or fixed voltages (R328). -/
inductive IdentDrive where
  | current (a b : Int)
  | voltage (a b : Bool)
  | restore
deriving DecidableEq, Repr

/-- The part of IDENTIFY_MOTOR's 300 frames: 128 frames of current in each coil, 4 frames of VM/4 in each, the rest to restore
(R328). -/
def IdentState.drive (i : IdentState) : IdentDrive :=
  if i.frame < 128 then .current (i.itest * 256) 0
  else if i.frame < 256 then .current 0 (i.itest * 256)
  else if i.frame < 260 then .voltage true false
  else if i.frame < 264 then .voltage false true
  else .restore

/-- A coil driven with a fixed voltage. -/
def Coil.force (c : Coil) (u : Int) : Coil := { c with uPrev := c.u, u := u, clipped := false, uinjNext := 0 }

/-- Step 6 of a frame for the coils of one axis: the loops, the open check and the count of zero frames (R156 to R160, R209,
R259). -/
def State.loopAxis (s : State) (vm : Nat) (n : AxisId) : State :=
  let x := s.ax n
  if s.isPartner n then s
  else if !x.drv.energised then
    (s.forAll [coilA n, coilB n] fun s c => s.modCoil c fun k =>
      let lost := x.drv.enabled
      { k with u := 0, uPrev := 0, uinjNext := 0, openRun := 0, zeroRun := 0, lost := if lost then k.lost else 0
               sampleLost := lost && k.sampleLost }).modDrv n
        fun d => { d with limited := false, senseSat := d.senseSat && d.enabled, iaUsed := 0, ibUsed := 0, sameFrame := false }
  else
    let ia := if x.drv.sameFrame then x.drv.ia else x.drv.iaUsed
    let ib := if x.drv.sameFrame then x.drv.ib else x.drv.ibUsed
    let drive := (x.prot.ident.map IdentState.drive).getD .restore
    let (ia, ib) := match drive with
      | .current a b => (a, b)
      | _ => (ia, ib)
    let fixed := match drive with
      | .voltage _ _ => true
      | _ => false
    let inj := if fixed then none else s.nextInjection n
    let (ja, jb) := (inj.map fun j => j.volts x.cfg.uinj.toNat).getD (0, 0)
    let bemf := fun (c : CoilId) => if x.obs.valid then (s.coil c).ef else 0
    let run := fun (s : State) (c : CoilId) (i j : Int) (fixed : Option Bool) => s.modCoil c fun k =>
      let k1 := match fixed with
        | some b => k.force (if b then (vm / 4 : Nat) else 0)
        | none => k.loop x.cfg vm i (bemf c) j
      { k1 with openRun := if k1.openNow i then min 2 (k1.openRun + 1) else 0
                zeroRun := if i = 0 && x.obs.inj.isNone then min 64 (k1.zeroRun + 1) else 0 }
    let (fa, fb) : Option Bool × Option Bool := match drive with
      | .voltage a b => (some a, some b)
      | _ => (none, none)
    let s1 := run (run s (coilA n) ia ja fa) (coilB n) ib jb fb
    (s1.modObs n fun o => o.inject inj).modDrv n fun d =>
      { d with iaUsed := ia, ibUsed := ib, sameFrame := false
               limited := (s1.coil (coilA n)).clipped || (s1.coil (coilB n)).clipped }

/-- SAMPLE_LOST: a coil has had no usable sample for 16 consecutive frames (R155). -/
def State.sampleIsLost (s : State) (c : CoilId) : State :=
  let k := s.coil c
  if 16 ≤ k.lost && !k.sampleLost then
    (s.modCoil c fun k => { k with sampleLost := true }).shaleAxis (axisOfCoil c) 5
  else s

/-- SAMPLE_LOST (R155). -/
def execSampleLost (c : CoilId) (s : State) : Host.Outcome State Fault Refusal := .next (s.sampleIsLost c)

/-! ### Coil resistance (R218, R219) -/

/-- The contribution of one coil to its axis's window (R218). -/
def RWindow.add (w : RWindow) (c : Coil) (istar : Int) : RWindow :=
  if 25600 ≤ |istar| then { w with su := w.su + (c.ua - c.uinj) * sgn c.imeas, si := w.si + c.imeas.natAbs } else w

/-- One frame of the RCOIL window of an axis; an invalid frame discards the window (R218). -/
def State.rcoilFrame (s : State) (n : AxisId) : State :=
  let x := s.ax n
  let a := s.coil (coilA n)
  let b := s.coil (coilB n)
  let ok := x.cfg.rlive && x.drv.enabled && x.drv.energised && !x.mot.moving && msTicks x.cfg.tstand ≤ x.drv.sel.idleT
    && x.drv.sel.amp = x.drv.ghold && x.drv.sel.amp = x.drv.selPrev.amp && !a.clipped && !b.clipped && !a.sampleLost && !b.sampleLost
  s.modProt n fun p =>
    let w := if p.rwin.frames = 256 then {} else p.rwin
    { p with rwin := if ok then ({ w with frames := w.frames + 1 }.add a x.drv.iaUsed).add b x.drv.ibUsed else {} }

/-- RCOIL_WINDOW_END: a window of 256 valid frames with current enough moves RCOIL toward its target, with the integrators
corrected; a target out of bounds sets RES_SUSPECT (R218, R219). -/
def State.rcoilWindowEnd (s : State) (n : AxisId) : State :=
  let x := s.ax n
  let w := x.prot.rwin
  if w.frames ≠ 256 then s
  else
    let s1 := s.modProt n fun p => { p with rwin := {} }
    if w.si < 256 * 25600 then s1
    else
      let t := w.su * 256000 / (w.si : Int)
      let r := x.cfg.rcoil
      if 100 ≤ t ∧ t ≤ 100000 ∧ (r : Int) ≤ 2 * t ∧ t ≤ 2 * r then
        let k : Int := max 1 (r / 64 : Nat)
        let r' := (r + limitMag k (t - r)).toNat
        let fix := fun (s : State) (c : CoilId) (i : Int) => s.modCoil c fun y =>
          { y with integ := limitMag (2 ^ 31 - 1) (y.integ + 256 * (r * i / 256000 - r' * i / 256000)) }
        ((fix (fix s1 (coilA n) x.drv.iaUsed) (coilB n) x.drv.ibUsed).modCfg n fun c => { c with rcoil := r' }).modProt n
          fun p => { p with resSuspect := false }
      else (s1.modProt n fun p => { p with resSuspect := true }).shaleAxis n 11

/-- RCOIL_WINDOW_END (R218). -/
def execRcoilWindowEnd (n : AxisId) (s : State) : Host.Outcome State Fault Refusal := .next (s.rcoilWindowEnd n)

/-! ### IDENTIFY_MOTOR (R159, R328) -/

/-- π × 10^15 to the nearest integer. -/
def piScaled : Nat := 3141592653589793

/-- KP for an inductance in µH at a frame of `l` ticks: LCOIL·ωc, nearest mΩ (R159). -/
def kpFor (lcoil l : Nat) : Nat := (lcoil * 32000 * piScaled * 2 + l * 10 ^ 15) / (2 * l * 10 ^ 15)

/-- KI for a resistance in mΩ: RCOIL·ωc·frame length, nearest mΩ (R159). -/
def kiFor (rcoil : Nat) : Nat := (rcoil * piScaled * 2 + 10 ^ 16) / (2 * 10 ^ 16)

/-- Two values agree within 10 % of the larger (R328). -/
def agree (a b : Nat) : Bool := 10 * (max a b - min a b) ≤ max a b

/-- One frame of the sums of IDENTIFY_MOTOR (R328): resistance as in R218, and the change of current from the sample before the four
frames of VM/4 to the first one after them. The voltage of frame `f` is applied in the next one, and its sample comes one later
(notes/assumptions/110.md). -/
def IdentState.frameStep (i : IdentState) (a b : Coil) : IdentState :=
  let f := i.frame
  let x := fun (c : Coil) => c.xs.headD c.imeas
  let i := if 64 ≤ f ∧ f < 128 then { i with suA := i.suA + (a.ua - a.uinj) * sgn a.imeas, siA := i.siA + a.imeas.natAbs } else i
  let i := if 192 ≤ f ∧ f < 256 then { i with suB := i.suB + (b.ua - b.uinj) * sgn b.imeas, siB := i.siB + b.imeas.natAbs } else i
  let i := if f = 257 then { i with i0A := x a } else if f = 262 then { i with diA := x a - i.i0A } else i
  let i := if f = 261 then { i with i0B := x b } else if f = 266 then { i with diB := x b - i.i0B } else i
  { i with frame := f + 1 }

/-- IDENTIFY_MOTOR ends after its 300 frames (R328). -/
def State.identFinish (s : State) (n : AxisId) (i : IdentState) (vm : Nat) : State :=
  let div := fun (u : Int) (k : Nat) => (if k = 0 then Config.divByZero u else u * 256000 / (k : Int)).toNat
  let ra := div i.suA i.siA
  let rb := div i.suB i.siB
  let la := Config.identInductance (vm / 4 : Nat) i.diA s.len
  let lb := Config.identInductance (vm / 4 : Nat) i.diB s.len
  let r := (ra + rb) / 2
  let l := (la + lb) / 2
  let kp := kpFor l s.len
  let ki := kiFor r
  let s1 := s.modProt n fun p => { p with ident := none }
  if agree ra rb && agree la lb && 100 ≤ r && r ≤ 100000 && 10 ≤ l && l ≤ 100000 && (!i.wgain || (kp ≤ 1048575 && ki ≤ 65535)) then
    let s2 := s1.modCfg n fun c => { c with rcoil := r, lcoil := l, kp := if i.wgain then kp else c.kp, ki := if i.wgain then ki else c.ki }
    (s2.modProt n fun p => { p with rwin := {} }).complete i.ref .ok 0 (axByte n) (s.axMpos n) (BitVec.ofNat 32 r)
  else s1.complete i.ref .rejectParam 0 (axByte n) (s.axMpos n) 16

/-- A frame of a running IDENTIFY_MOTOR (R328). -/
def State.identFrame (s : State) (vm : Nat) (n : AxisId) : State :=
  match (s.ax n).prot.ident with
  | none => s
  | some i =>
    let i' := i.frameStep (s.coil (coilA n)) (s.coil (coilB n))
    if i'.frame < 300 then s.modProt n fun p => { p with ident := some i' } else s.identFinish n i' vm

end Sys2Proof.Machine
end

