-- ==== Sys2Proof/Machine/Observer.lean ====
section
/-! DEFINITION. The load-angle observer, high-frequency injection, KE learning and stall detection (08_stall.md R222 to R240). -/
namespace Sys2Proof.Machine
open Sys2Proof

/-! ### Angles and magnitudes (R225, R226) -/

/-- atan(2^−i) for i = 0, 1, …, in units of 2^−48 cycle. -/
def atanTable : List Int :=
  [35184372088832, 20770547670515, 10974586953444, 5570871696862, 2796246208089, 1399486241028, 699913886760, 349978300884,
   174991820497, 87496244017, 43748163730, 21874087080, 10937044192, 5468522177, 2734261099, 1367130551, 683565276, 341782638,
   170891319, 85445659, 42722830, 21361415, 10680707, 5340354, 2670177, 1335088, 667544, 333772, 166886, 83443, 41722, 20861,
   10430, 5215, 2608, 1304]

/-- The angle of a vector with x ≥ 0, turned to the axis step by step. -/
def turn : List Int → Nat → Int → Int → Int → Int
  | [], _, _, _, z => z
  | t :: r, i, x, y, z =>
    let dx := x / 2 ^ i
    let dy := y / 2 ^ i
    if 0 ≤ y then turn r (i + 1) (x + dy) (y - dx) (z + t) else turn r (i + 1) (x - dy) (y + dx) (z - t)

/-- The angle of the vector (x, y) in 2^−48 cycle. -/
def angleFine (y x : Int) : Int :=
  let k := (2 : Int) ^ 40
  if x < 0 then turn atanTable 0 (-x * k) (-y * k) (2 ^ 47) else turn atanTable 0 (x * k) (y * k) 0

/-- The angle of the vector (x, y) in 1/65,536 cycle, to the nearest unit. -/
def angleOf (y x : Int) : Int := (angleFine y x + 2 ^ 31) / 2 ^ 32

/-- The angle of (x, y) is a whole number of units: on an axis or a diagonal, and nowhere else. -/
def angleWhole (y x : Int) : Bool := x = 0 || y = 0 || |x| = |y|

/-- The whole numbers by which a result within ±4 units of the exact angle may differ from the nearest unit (R226): ±4 only on the side
of the exact angle. -/
def atan2Span (y x : Int) : Int × Int :=
  let up := angleOf y x * 2 ^ 32 < angleFine y x
  (if angleWhole y x || !up then -4 else -3, if angleWhole y x || up then 4 else 3)

/-- atan2 of the module: within ±4 units of the exact angle, the offset being a free value (notes/assumptions/3.md), and 0 at
the origin (R226). -/
def atan2 (y x : Int) : Int :=
  if x = 0 ∧ y = 0 then 0 else (angleOf y x + clampI (atan2Span y x).1 (atan2Span y x).2 (Config.atan2Error y x)) % 65536

/-- floor(√n), by bisection. -/
def isqrt (n : Nat) : Nat := (bisect (fun k => k * k ≤ n) 70 0 (2 ^ 64)).toNat

/-- A u16 angle read as two's complement (R226). -/
def s16 (x : Int) : Int := wrapS 16 x

/-! ### One frame of the observer (R222 to R231) -/

/-- The back-EMF estimate of a coil after a frame (R225). -/
def Coil.backEmf (c : Coil) (cfg : AxisCfg) (l : Nat) : Int :=
  let um := ((c.ua - c.uinj) + (c.uaPrev - c.uinjPrev)) / 2
  let im := (c.imeas + c.imeasPrev) / 2
  let e := um - cfg.rcoil * im / 256000 - cfg.lcoil * (c.imeas - c.imeasPrev) * 5 / (4 * (l : Int))
  c.ef + (e - c.ef) / 2 ^ cfg.obsK.toNat

/-- fel of an axis (R224). -/
def AxisMotion.fel (a : AxisMotion) (l : Nat) : Int :=
  (a.out - a.outHist.getD 3 (a.outHist.getLast?.getD a.out)) * 320000000 / (2 ^ 28 * (l : Int))

/-- The load angle by the back-EMF (R226). -/
def deltaEmf (efa efb ia ib sdir : Int) : Int := sdir * s16 ((atan2 ib ia - atan2 efb efa + sdir * 16384) % 65536)

/-- The regime and direction of an axis for a frame (R224, R227). -/
def AxisObs.regime (o : AxisObs) (cfg : AxisCfg) (fel : Int) : AxisObs :=
  let f : Int := cfg.finj.toNat
  let sdir := if fel = 0 then o.sdir else sgn fel
  let enter := !o.injRegime && |fel| < f * 256
  let leave := o.injRegime && (f + f / 4) * 256 ≤ |fel|
  if enter then { o with fel := fel, sdir := sdir, injRegime := true, regimeFrames := 0, periods := 0, wrapped := false }
  else if leave then { o with fel := fel, sdir := sdir, injRegime := false, regimeFrames := 0 }
  else { o with fel := fel, sdir := sdir, regimeFrames := min 255 (o.regimeFrames + 1) }

/-- dpar and dperp of a whole period (R230). -/
def AxisObs.dpar (o : AxisObs) : Int := (o.da * o.ra0 + o.db * o.rb0) / 131008
/-- dperp (R230). -/
def AxisObs.dperp (o : AxisObs) : Int := (o.db * o.ra0 - o.da * o.rb0) / 131008

/-- Whether δ comes from injection in the frame (R227). -/
def AxisObs.byInjection (o : AxisObs) : Bool := if o.injRegime then 4 ≤ o.periods else o.regimeFrames < 16 && 4 ≤ o.periods

/-- The end of an injection period: its share of the reference sums while one runs, else the load angle, which then holds for the next
period (R229, R230). -/
def AxisObs.periodEnd (o : AxisObs) (ref : Option Nat) : AxisObs :=
  match ref with
  | some i =>
    if o.refRun && 4 * i + o.refLeft = 256 then
      if i < 32 then { o with refPar := o.refPar + o.dpar, refLeft := o.refLeft - 4 }
      else { o with refPerp := o.refPerp + o.dperp, refLeft := o.refLeft - 4 }
    else o
  | none =>
    let draw := s16 (atan2 (-o.dperp) (o.dpar - o.ym)) / 2
    let o1 := { o with draw := draw, wrapped := 0 < o.periods && 16384 < |draw - o.draw|, periods := min 255 (o.periods + 1) }
    if o1.byInjection then { o1 with delta := o1.sdir * draw } else o1

/-- A period that the injection broke off is dropped; a reference that ran then begins anew (notes/assumptions/109.md). -/
def AxisObs.dropPeriod (o : AxisObs) : AxisObs :=
  if o.periodLen = 0 then o
  else if o.refRun then { o with periodLen := 0, refOut := 256, refLeft := 256, refPar := 0, refPerp := 0 }
  else { o with periodLen := 0 }

/-- The sums of an injection period with the samples of one more frame, in which the injection `j` was applied (R230); `xa'` and `xb'`
are those of the frame before it. The demodulation comes at the last of the four. -/
def AxisObs.demod (o : AxisObs) (j : Option InjFrame) (xa xb xa' xb' : Int) : AxisObs :=
  match j with
  | none => o.dropPeriod
  | some j =>
    let ta := j.sign * (xa - xa')
    let tb := j.sign * (xb - xb')
    if j.phase = 0 then { o.dropPeriod with da := ta, db := tb, ra0 := j.ra, rb0 := j.rb, periodLen := 1 }
    else if o.periodLen ≠ j.phase then o.dropPeriod
    else
      let o1 := { o with da := o.da + ta, db := o.db + tb, periodLen := o.periodLen + 1 }
      if o1.periodLen = 4 then { o1 with periodLen := 0 }.periodEnd j.ref else o1

/-- Consecutive usable frames that R231 item 2 asks for: two, and in the injection regime every frame of the current period so far. The
samples at hand are of the frame before, whose voltages the frame before that computed. -/
def State.usableNeed (s : State) (n : AxisId) : Nat :=
  if (s.ax n).obs.injRegime then max 2 ((s.frameNat + 2 + n.val % 4) % 4 + 1) else 2

/-- obs_valid (R231). -/
def State.obsValid (s : State) (n : AxisId) : Bool :=
  let x := s.ax n
  let o := x.obs
  let c1 := x.drv.enabled && x.drv.energised && 16 ≤ x.drv.framesOn && (!o.injRegime || o.refDone)
  let c2 := s.usableNeed n ≤ o.usableRun
  let c4 := if o.injRegime then !o.injWeak && x.cfg.uinj ≠ 0 else 100 ≤ o.efMag
  let c5 := x.prot.retry ≠ .wait && x.prot.retry ≠ .check && !((s.driven n).flatMap axisLegs).any (fun m => (s.leg m).tripped)
    && !(s.grp (groupOf n)).hostDriven
  c1 && c2 && 100 ≤ x.drv.sel.amp && c4 && c5

/-- The stall criteria of a frame: A, B and encoder (R233, R234); none in a frame that declares the axis unplugged (R259). -/
def State.criteria (s : State) (n : AxisId) : Bool × Bool × Bool :=
  let x := s.ax n
  let o := x.obs
  let opened := 2 ≤ (s.coil (coilA n)).openRun || 2 ≤ (s.coil (coilB n)).openRun
  if !x.drv.enabled || !x.drv.energised || opened then (false, false, false)
  else
    let sl := x.cfg.slEn && (!x.cfg.setpoint || x.enc.fallback)
    let dm : Int := x.cfg.dmax.toNat
    let wrap := o.byInjection && o.wrapped
    let a := sl && o.valid && (wrap || (if x.mot.moving then dm < o.delta else dm < |o.delta|))
    let b := sl && !o.injRegime && 16 ≤ o.regimeFrames && !o.keLearning && x.cfg.ke ≠ 0 && x.cfg.eminp ≠ 0
      && o.efMag * 100 * 256 < x.cfg.eminp.toNat * x.cfg.ke * o.fel.natAbs / 256
    let e := x.enc.armed && x.cfg.devWin ≠ 0 && s.hasEncoder n && (x.cfg.devWin.toNat : Int) * 2 ^ 24 < |x.mot.out - x.penc|
    (a, b, e)

/-- KE learning takes a frame (R232). -/
def State.learn (s : State) (n : AxisId) : State :=
  let x := s.ax n
  let o := x.obs
  if o.keLearning && o.keCount < 256 && !o.injRegime && o.valid && !x.drv.inHead && |o.delta| ≤ 8192 then
    s.modObs n fun o => { o with keSumE := o.keSumE + o.efMag, keSumF := o.keSumF + o.fel.natAbs, keCount := o.keCount + 1 }
  else s

/-- The run of consecutive frames that meet a criterion (R235). -/
def State.countStall (s : State) (n : AxisId) : State :=
  let (a, b, e) := s.criteria n
  s.modObs n fun o =>
    if a || b || e then { o with critA := a, critB := b, critEnc := e, stallRun := min 255 (o.stallRun + 1) }
    else { o with critA := false, critB := false, critEnc := false, stallRun := 0, stallDone := false }

/-- The speed, the regime and the demodulation of one frame (R224, R227, R230). -/
def AxisObs.injectionStep (o : AxisObs) (cfg : AxisCfg) (fel : Int) (a b : Coil) : AxisObs :=
  let o1 := (o.regime cfg fel).demod o.injDone (a.xs.getD 0 0) (b.xs.getD 0 0) (a.xs.getD 1 0) (b.xs.getD 1 0)
  { o1 with usableRun := if a.usable && b.usable then min 4 (o.usableRun + 1) else 0 }

/-- Step 6 of a frame for the observer of one enabled axis, whether or not its legs carry current (R222). -/
def State.observe (s : State) (n : AxisId) : State :=
  let x := s.ax n
  if s.isPartner n then s
  else if !x.drv.enabled then s.modObs n fun o => { o.noCriteria with injNext := none, inj := none, injDone := none, periodLen := 0 }
  else
    let a := s.coil (coilA n)
    let b := s.coil (coilB n)
    let efa := a.backEmf x.cfg s.len
    let efb := b.backEmf x.cfg s.len
    let mag := isqrt (efa * efa + efb * efb).toNat
    let o := x.obs.injectionStep x.cfg (x.mot.fel s.len) a b
    let delta := if o.byInjection || mag < 100 then o.delta else deltaEmf efa efb a.imeas b.imeas o.sdir
    let s1 := (s.modCoil (coilA n) fun c => { c with ef := efa }).modCoil (coilB n) fun c => { c with ef := efb }
    let s2 := (s1.modObs n fun _ => { o with efMag := mag, delta := delta }).modDrv n
      fun d => { d with framesOn := min 65535 (d.framesOn + 1) }
    let s3 := s2.modObs n fun o => { o with valid := s2.obsValid n }
    (s3.learn n).countStall n

/-! ### Ends of the observer's operations (R229, R232) -/

/-- INJECTION_REFERENCE_END: ym, dy and INJ_WEAK (R229). -/
def State.referenceEnd (s : State) (n : AxisId) : State :=
  let o := (s.ax n).obs
  if o.refRun && o.refLeft = 0 then
    let a0 := o.refPar / 32
    let aq := o.refPerp / 32
    let ym := (a0 + aq) / 2
    let dy := (a0 - aq) / 2
    let weak := dy < ym / 16
    let s1 := s.modObs n fun o => { o with ym := ym, dy := dy, refDone := true, refRun := false, injWeak := weak }
    if weak then s1.shaleAxis n 8 else s1
  else s

/-- INJECTION_REFERENCE_END (R229). -/
def execInjectionReferenceEnd (n : AxisId) (s : State) : Host.Outcome State Fault Refusal := .next (s.referenceEnd n)

/-- KE_LEARNED: after 256 frames KE is set and learning ends (R232). -/
def State.keLearned (s : State) (n : AxisId) : State :=
  let o := (s.ax n).obs
  if o.keLearning && o.keCount = 256 then
    let k := if o.keSumF = 0 then (Config.divByZero (o.keSumE * 65536)).toNat else o.keSumE * 65536 / o.keSumF
    (s.modCfg n fun c => { c with ke := min (2 ^ 24 - 1) k }).modObs n fun o =>
      { o with keLearning := false, keSumE := 0, keSumF := 0, keCount := 0 }
  else s

/-- KE_LEARNED (R232). -/
def execKeLearned (n : AxisId) (s : State) : Host.Outcome State Fault Refusal := .next (s.keLearned n)

/-! ### Stall (R235 to R240) -/

/-- The capture of a stall: its master position, the frame, pout, δ, |ef| and the criteria met (R235). -/
def State.stallCapture (s : State) (n : AxisId) : StallCapture :=
  let x := s.ax n
  { mpos := if x.mot.jog.isSome then s.m7 else s.tb.snap[x.mot.master.val]
    frame := s.tb.frame, pout := x.mot.out, delta := x.obs.delta, efMag := x.obs.efMag
    critA := x.obs.critA, critB := x.obs.critB, critEnc := x.obs.critEnc }

/-- The reaction to a stall (R237, R238): a stop at the next snapshot, or the axis is disabled. -/
def State.stallReact (s : State) (n : AxisId) (w : Word) : State :=
  let stopping := (s.ax n).mot.stop.isSome
  match (s.ax n).cfg.react.toNat with
  | 1 =>
    if stopping then s
    else
      let s1 := (s.ownedAlert n).modMot n fun a => { a with runs := a.runs.map (·.decide (.stall, some w)) }
      { s1 with q := { s1.q with snapOps := s1.q.snapOps ++ [.stallStop n] } }
  | 2 =>
    let s1 := if stopping then s.modMot n fun a => { a with runs := a.runs.map (·.decide (.stopped, none)) } else s
    s1.turnOff n .stall w
  | _ => s

/-- STALL: STALL_N consecutive frames have met a criterion (R235, R237, R239). -/
def State.declareStall (s : State) (n : AxisId) : State :=
  let x := s.ax n
  if x.cfg.stallN.toNat ≤ x.obs.stallRun && 0 < x.obs.stallRun && !x.obs.stallDone then
    let c := s.stallCapture n
    let log := match x.obs.shaleFrame with
      | none => true
      | some f => f + 1000 ≤ s.tb.count
    let s1 := s.modObs n fun o => { o with stall := true, stallDone := true, capture := c
                                           shaleFrame := if log then some s.tb.count else o.shaleFrame }
    let s2 := if log then s1.shaleAxis n 18 else s1
    let s3 := if x.enc.fallback then s2.modMot n fun m => { m with unsure := true } else s2.setUnsure n
    s3.stallReact n (mpos32 c.mpos)
  else s

/-- STALL (R235). -/
def execStall (n : AxisId) (s : State) : Host.Outcome State Fault Refusal := .next (s.declareStall n)

/-- The quick stop of a stall at its next snapshot; what was queued completes FLUSHED (R237). -/
def State.stallStop (s : State) (n : AxisId) : State :=
  let w := mpos32 (s.ax n).obs.capture.mpos
  let s0 := s.endDone n
  let s1 := if (s0.ax n).mot.stop.isSome then s0 else s0.stopAxis n true (some (.stall, some w)) none none
  if (s1.ax n).mot.atRest then s1.flushQueue n .flushed else s1

end Sys2Proof.Machine
end

