-- ==== Sys2Proof/Machine/Quartz.lean ====
section
/-! DEFINITION. Quartz: delay-line tables, converter references, sense offsets and gains, forced slots
(07_quartz_calibration.md R197 to R217). -/
namespace Sys2Proof.Machine
open Sys2Proof

/-! ### Fine delay lines (R199 to R202, R210) -/

/-- The target table of a valid measurement (R200). -/
def tapTarget (sum : Nat) : List Nat := (List.range 16).map fun f => (f * sum + 128) / 256

/-- One entry moves toward its target by at most 2 taps (R201). -/
def tapStep (old target : Nat) : Nat := max (old - 2) (min target (old + 2))

/-! ### Factory trims (R197, R388) -/

/-- The trim of a leg; that of the silicon where the load applied none (R197, R388). -/
def State.legTrim (s : State) (m : LegId) : LegTrim := if s.dev.defaults then {} else s.nvm.legTrim[m]

/-- The trim of a converter; that of the silicon where the load applied none (R197, R388). -/
def State.adcTrim (s : State) (a : AdcId) : AdcTrim := if s.dev.defaults then {} else s.nvm.adcTrim[a]

/-- The code table a delay line starts from (R197, R388). -/
def State.tapTrim (s : State) (g : GroupId) : List Nat := if s.dev.defaults then siliconTaps else s.nvm.tapTrim[g]

/-- Every term of Quartz but RCOIL loads its trim (R197). -/
def State.loadTrims (s : State) : State :=
  { s with legs := Vector.ofFn fun m => { s.legs[m] with os := (s.legTrim m).os, gs := (s.legTrim m).gs0 }
           adcs := Vector.ofFn fun a => { s.adcs[a] with oa := (s.adcTrim a).oa, ga := (s.adcTrim a).ga }
           groups := Vector.ofFn fun g => { s.groups[g] with taps := s.tapTrim g } }

/-- The four axes' legs a converter serves. -/
def adcLegs (a : AdcId) : List LegId := (List.finRange 8).map fun k => ⟨8 * a.val + k.val, by omega⟩

/-- The gs target of a leg at a die temperature (R210). -/
def gsTargetAt (gs0 : Nat) (k1 k2 temp : Int) : Int :=
  let dt := temp - 200
  gs0 + k1 * dt / 1024 + k2 * dt * dt / 16777216

/-- Every leg of a group recomputes its gain target from the die temperature (R210). -/
def State.gainTargets (s : State) (g : GroupId) : State :=
  let t := fun (m : LegId) => let c := s.legTrim m; gsTargetAt c.gs0 c.k1 c.k2 (s.grp g).temp.toInt
  let s1 := s.forAll ((List.finRange 16).map (legAt g)) fun s m => s.modLeg m fun l =>
    { l with gsTarget := some (clampI 12288 20480 (t m)).toNat }
  s1.forAll (List.finRange 2) fun s h =>
    let a : AdcId := ⟨2 * g.val + h.val, by omega⟩
    s.modAdc a fun x => { x with gsRange := (adcLegs a).any fun m => t m < 12288 || 20480 < t m }

/-- The pairs committed for the next boundary take up or give back the time their fine codes lose, when FINE_LOST changes
after they were placed (R183, R202). -/
def State.refine (s : State) (g : GroupId) (sign : Int) : State :=
  if (s.grp g).hostDriven then s
  else s.forAll (List.finRange 16) fun s m => s.modLeg (legAt g m) fun l =>
    { l with carryS := if l.committed then l.carryS + sign * fineLoss l.onS.toNat l.offS.toNat else l.carryS }

/-- DELAY_LINE_MEASURE: the replica of a group is measured on 16 launches in its frame (R199 to R202, R210). -/
def State.delayLine (s : State) (g : GroupId) (counts : Vector Nat 16) : State :=
  if s.frameNat % 64 ≠ (5 * g.val) % 64 then s
  else
    let ns := counts.toList
    let sum := ns.sum
    let x := s.grp g
    let s0 := s.gainTargets g
    if ns.all fun k => 16 ≤ k && k ≤ 95 then
      let target := tapTarget sum
      let clears := x.fineLost && 3 ≤ x.fineGood
      let free := !((List.finRange 16).any fun m => (s.leg (legAt g m)).en)
      let next := if clears || free then target else x.taps.zipWith tapStep target
      let still := x.fineLost && !clears
      let s1 := s0.modGroup g fun x => { x with lastS := sum, fineLost := still, fineGood := if still then x.fineGood + 1 else 0
                                                tapsNext := some next }
      if clears then (s1.refine g (-1)).shale 8 g.val g.val (Config.shaleData 8) else s1
    else
      let s1 := s0.modGroup g fun x => { x with lastS := sum, fineLost := true, fineGood := 0 }
      if x.fineLost then s1 else (s1.refine g 1).shale 8 g.val g.val (Config.shaleData 8)

/-- DELAY_LINE_MEASURE (R199). -/
def execDelayLineMeasure (g : GroupId) (counts : Vector Nat 16) (s : State) : Host.Outcome State Fault Refusal :=
  .next (s.delayLine g counts)

/-! ### Calibration conversions (R205 to R208) -/

/-- A leg qualifies for a high-impedance conversion: EN low and no test current for 1 ms, group not host-driven (R208). -/
def State.hizReady (s : State) (m : LegId) : Bool :=
  let l := s.leg m
  !l.en && msTicks 1 ≤ l.offTicks && msTicks 1 ≤ l.testTicks && !(s.grp (groupOfLeg m)).hostDriven

/-- The leg whose sense path an ADC converts next: qualifying legs in ascending order, one per conversion (R208). -/
def State.nextHiz (s : State) (a : AdcId) : Option LegId :=
  let ls := (adcLegs a).filter s.hizReady
  match ls.find? fun m => (s.adc a).nextLeg ≤ m.val % 8 with
  | some m => some m
  | none => ls.head?

/-- A raw result joins a ring of 16. -/
def pushRing (r : List Int) (raw : Int) : List Int := (raw :: r).take 16

/-- The targets of a converter from its full rings (R206); with sp = sn the quotient is a free value
(notes/assumptions/8.md). -/
def Adc.targets (a : Adc) (span : Int) : Adc :=
  if a.zero.length = 16 && a.plus.length = 16 && a.neg.length = 16 then
    let d := a.plus.sum - a.neg.sum
    { a with oaTarget := some a.zero.sum
             gaTarget := some (if d = 0 then Config.divByZero (16384 * span) else 16384 * span / d).toNat }
  else a

/-- The target of an offset lies in range (R197, R207). -/
def osOk (t : Int) : Bool := -1024 ≤ t && t ≤ 1024
/-- The target of a gain lies in range (R197, R207). -/
def gainOk (t : Nat) : Bool := 12288 ≤ t && t ≤ 20480

/-- CAL_RANGE of a converter: some target lies outside its range (R207). -/
def State.rangeBad (s : State) (a : AdcId) : Bool :=
  let x := s.adc a
  x.oaTarget.any (fun t => !osOk t) || x.gaTarget.any (fun t => !gainOk t) ||
    (adcLegs a).any fun m => (s.leg m).osTarget.any fun t => !osOk t

/-- CAL_RANGE follows the targets, with one Shale entry when it is set (R207). -/
def State.noteRange (s : State) (a : AdcId) : State :=
  let bad := s.rangeBad a
  let s1 := s.modAdc a fun x => { x with calRange := bad }
  if bad && !(s.adc a).calRange then s1.shale 8 (8 * (a.val % 2) + 2) a.val (Config.shaleData 8) else s1

/-- The conversion a converter made at its slot in the frame that ended (R205, R208); `hiz` is the leg that frame took in its turn. -/
def State.convert (s : State) (a : AdcId) (hiz : Option LegId) (raw : BitVec 12) : State :=
  let x := s.adc a
  let r := raw.toInt
  let span := (s.adcTrim a).p - (s.adcTrim a).n
  let zero := fun (s : State) => s.modAdc a fun x => { x with zero := pushRing x.zero r }.targets span
  let s1 := match x.cycle % 4 with
    | 0 => zero s
    | 1 => s.modAdc a fun x => { x with plus := pushRing x.plus r }.targets span
    | 2 => s.modAdc a fun x => { x with neg := pushRing x.neg r }.targets span
    | _ =>
      match hiz with
      | none => zero s
      | some m =>
        let z := r * 16 - x.oa
        (s.modLeg m fun l => { l with zhiz := some z, osTarget := some z }).modAdc a fun x => { x with nextLeg := m.val % 8 + 1 }
  s1.modAdc a fun x => { x with cycle := x.cycle + 1 }

/-- The conversion of the frame that ended, where the converter had a slot and its group is not host-driven (R205, R213). -/
def State.calibrate (s s0 : State) (inp : FrameInputs) (a : AdcId) : State :=
  let x := s0.adc a
  if (x.slot.isSome || x.forced.isSome) && !(s0.grp (groupOfAdc a)).hostDriven then
    s.convert a (s0.nextHiz a) inp.cal[a.val]
  else s

/-! ### Steps of the terms (R197, R211, R212) -/

/-- A term moves toward its target by at most `lim`, or takes it at once when it serves no enabled coil. -/
def stepTerm (lim old target : Int) (serves : Bool) : Int := if serves then old + limitMag lim (target - old) else target

/-- The terms of a converter that may step in frame `n` (R211, R212); they hold while it is starved (R217). -/
def Adc.stepTerms (a : Adc) (phase : Nat) (serves : Bool) : Adc :=
  if a.calStarved then a else
  let oa := match a.oaTarget with
    | some t => if osOk t && (phase = 0 || !serves) then stepTerm 16 a.oa t serves else a.oa
    | none => a.oa
  let ga := match a.gaTarget with
    | some t => if gainOk t && (phase = 1 || !serves) then (stepTerm 4 a.ga t serves).toNat else a.ga
    | none => a.ga
  { a with oa := oa, ga := ga }

/-- The terms of a leg that may step in frame `n` (R211, R212). -/
def Leg.stepTerms (l : Leg) (phase : Nat) (serves : Bool) : Leg :=
  let os := match l.osTarget with
    | some t => if osOk t && (phase = 2 || !serves) then stepTerm 16 l.os t serves else l.os
    | none => l.os
  let gs := match l.gsTarget with
    | some t => if phase = 3 || !serves then (stepTerm 4 l.gs t serves).toNat else l.gs
    | none => l.gs
  { l with os := os, gs := gs }

/-- The axes a converter serves. -/
def adcAxes (a : AdcId) : List AxisId := (List.finRange 2).map fun k => ⟨2 * a.val + k.val, by omega⟩

/-- The sense terms of a group step at a boundary, by the schedule of the frame that ended (R198, R211 to R213); a table
computed in that frame comes into force. -/
def State.stepGroup (s : State) (frame : Nat) (g : GroupId) : State :=
  let on := fun (n : AxisId) => (s.ax (s.driver n)).drv.enabled
  let s0 := s.modGroup g fun x => { x with taps := x.tapsNext.getD x.taps, tapsNext := none }
  if (s.grp g).hostDriven then s0
  else
    let phase := (frame + g.val) % 4
    let s1 := s0.forAll (List.finRange 2) fun s h =>
      let a : AdcId := ⟨2 * g.val + h.val, by omega⟩
      s.modAdc a fun x => x.stepTerms phase ((adcAxes a).any on)
    s1.forAll (List.finRange 16) fun s m => s.modLeg (legAt g m) fun l => l.stepTerms phase (on (axisOfLeg (legAt g m)))

/-! ### Forced slots (R215 to R217) -/

/-- The candidates for a forced slot: coils of the converter with two usable instants in the plan, not ganged; each with the
earlier of its instants (R215). -/
def State.forcedCandidates (s : State) (a : AdcId) : List (CoilId × Nat) :=
  ((List.finRange 4).map (adcCoil a)).filterMap fun c =>
    let k := s.coil c
    match k.k with
    | some p =>
      if k.winP && k.winG && !s.ganged (axisOfCoil c) then
        let (x, y) := gridInsts (groupOfAdc a).val s.len p
        some (c, min x y)
      else none
    | none => none

/-- The candidate with the latest earlier instant, ties to the lower index (R215). -/
def latestEarlier (l : List (CoilId × Nat)) : Option CoilId :=
  (l.foldl (fun (w : Option (CoilId × Nat)) x => match w with
    | none => some x
    | some y => if y.2 < x.2 then some x else some y) none).map (·.1)

/-- FORCED_SLOT: a converter without a slot for 4,096 frames takes the later instant of a coil with two, or is starved
(R215 to R217). -/
def State.forceSlot (s : State) (a : AdcId) : State :=
  let x := s.adc a
  if x.slotPlan.isSome || x.forcedPlan.isSome || x.noSlot ≤ 4096 || (s.grp (groupOfAdc a)).hostDriven then s
  else
    match latestEarlier (s.forcedCandidates a) with
    | none => s.modAdc a fun x => { x with calStarved := true }
    | some c =>
      let log := match x.shaleFrame with
        | none => true
        | some f => f + 1000 ≤ s.tb.count
      let s1 := s.modAdc a fun x => { x with forcedPlan := some c, noSlot := 0, calForced := true, calStarved := false
                                             shaleFrame := if log then some s.tb.count else x.shaleFrame }
      let s2 := s1.modMot (axisOfCoil c) fun m => { m with runs := m.runs.map fun r =>
        { r with seg := { r.seg with flags := { r.seg.flags with calForced := true } } } }
      if log then s2.shale 8 (8 * (a.val % 2)) a.val (Config.shaleData 8) else s2

/-- FORCED_SLOT (R215). -/
def execForcedSlot (adc : AdcId) (s : State) : Host.Outcome State Fault Refusal := .next (s.forceSlot adc)

/-- The slots of the plan become those of the frame; a slot taken ends a starvation (R205, R217). -/
def State.enterSlots (s : State) (a : AdcId) : State :=
  s.modAdc a fun x => { x with slot := x.slotPlan, forced := x.forcedPlan, forcedPlan := none
                               calStarved := x.calStarved && x.slotPlan.isNone }

/-- Every ring of R205 and R209 and every count of forced slots is cleared, the applied terms stay (R214). -/
def State.clearRings (s : State) : State :=
  { s with adcs := s.adcs.map fun a => { a with zero := [], plus := [], neg := [], noSlot := 0 }
           legs := s.legs.map fun l => { l with zring := [] } }

end Sys2Proof.Machine
end

