-- ==== Sys2Proof/Machine/Flags.lean ====
section
/-! DEFINITION. Status words: every flag computation of the axis, group and module status, the interrupt and alert lines, and
the sets that READ_AXIS and READ_GROUP latch (19_registers_device.md R473, R499, R500; 20_registers_group.md R508 to R524;
12_opcodes.md R329; 11_queues_packets.md R305; 13_sideband.md R353). -/
namespace Sys2Proof.Machine
open Sys2Proof

/-- A word from pairs of a bit position and a value. -/
def fields (l : List (Nat × Nat)) : Word := BitVec.ofNat 32 ((l.map fun p => p.2 * 2 ^ p.1).sum)

/-- A word of single bits, bit 0 first. -/
def flagWord (l : List Bool) : Word := BitVec.ofNat 32 (maskOf l)

/-- ID_STEP: the step number and the letter "C" (R2, R471), as page 0, IDENTIFY and IDENTITY read it. -/
def State.idStep (s : State) : Word := fields [(0, s.dev.step.toNat), (8, 0x43)]

/-- The low `k` bits of an integer. -/
def low (k : Nat) (x : Int) : Nat := (BitVec.ofInt k x).toNat

/-- The code of an owner (R133). -/
def ownerCode (o : Owner) : Nat :=
  match o with
  | .host => 0
  | .sideband => 1
  | .localJog => 2

/-- The code of a plug state (R329). -/
def plugCode (p : PlugState) : Nat :=
  match p with
  | .unknown => 0
  | .plugged => 1
  | .unplugged => 2
  | .plugFault => 3

/-- The code of a retry state (R329 item 0x1A). -/
def retryCode (r : RetryState) : Nat :=
  match r with
  | .none => 0
  | .wait => 1
  | .check => 2
  | .energise => 3
  | .run => 4
  | .latch => 5

/-- The code of a life-cycle state (R273, R400). -/
def lcCode (l : LifeCycle) : Nat :=
  match l with
  | .manufacture => 0
  | .field => 1
  | .service => 2
  | .retired => 3

/-- The state word of a life-cycle state: its code below the complement of the code (R401; the order of the two halves is a choice of
this model, notes/assumptions/116.md). -/
def lifeWord (l : LifeCycle) : BitVec 64 := ~~~ BitVec.ofNat 32 (lcCode l) ++ BitVec.ofNat 32 (lcCode l)

/-- The state that a state word is read as: RETIRED where code and complement disagree (R401). -/
def lifeOf (w : BitVec 64) : LifeCycle :=
  if w = lifeWord .manufacture then .manufacture
  else if w = lifeWord .field then .field
  else if w = lifeWord .service then .service
  else .retired

/-- AXk_STAT (R519). -/
def State.axStat (s : State) (n : AxisId) : Word :=
  let x := s.ax n
  let a := s.coil (coilA n)
  let b := s.coil (coilB n)
  fields [(0, bit x.drv.enabled), (1, bit x.mot.moving), (2, bit x.mot.overspeed), (3, bit x.drv.limited), (4, bit x.drv.senseSat),
    (5, bit (a.sampleLost || b.sampleLost)), (6, bit x.obs.inj.isSome), (7, bit x.obs.valid), (8, bit x.obs.injWeak),
    (9, bit (s.limitOn n 1 && s.limitOn n (-1))), (10, bit (x.prot.retry = .wait || x.prot.retry = .check)),
    (11, bit x.prot.resSuspect), (16, bit x.prot.ownChg), (17, bit x.prot.plugChg), (18, bit x.obs.stall), (19, bit x.mot.unsure),
    (20, bit x.enc.err), (21, bit x.prot.shareErr), (22, bit x.prot.diagFail), (23, bit x.prot.latched)]

/-- AXk_CFG (R518). -/
def State.axCfg (s : State) (n : AxisId) : Word :=
  let x := s.ax n
  fields [(0, bit x.cfg.setpoint), (1, x.cfg.tsel.val), (3, bit x.cfg.laEn), (4, bit x.cfg.jogEn), (5, bit x.cfg.plugEn),
    (6, bit x.cfg.rlive), (8, x.mot.master.val), (12, bit (n.val % 2 = 0 && s.ganged n))]

/-- AXk_OWNER, and READ_AXIS item 0x07 (R524). -/
def State.axOwner (s : State) (n : AxisId) : Word :=
  let p := (s.ax n).prot
  fields [(0, ownerCode p.owner), (8, plugCode p.plug)]

/-- GRP_STAT (R508). -/
def Group.stat (g : Group) : Word :=
  fields [(0, g.quietLost.toNat), (8, bit g.tsepViol), (9, bit g.edgeGuard), (10, bit g.supplyHold), (12, g.tlevel),
    (16, bit g.warn), (17, bit g.thermSd)]

/-- ADC_STAT (R511). -/
def State.adcStat (s : State) (g : GroupId) : Word :=
  let one := fun (h : Fin 2) => let a := s.adc ⟨2 * g.val + h.val, by omega⟩
    bit a.calForced + 2 * bit a.calStarved + 4 * bit (a.calRange || a.gsRange)
  fields [(0, one 0), (8, one 1)]

/-- QUARTZ_STAT (R499). -/
def State.quartzStat (s : State) : Word :=
  fields [(0, maskOf (allGroups.map fun g => (s.grp g).fineLost)), (16, maskOf (allGroups.map fun g => s.adcStat g ≠ 0))]

/-- THERM_STAT (R500). -/
def State.thermStat (s : State) : Word :=
  fields [(0, s.dev.tbase.toNat), (16, bit s.dev.bpErr), (17, bit s.dev.modLimit)]

/-- RATE_PENDn: a written rate waits for its epoch, with RATE_NOW 0 (R53, R473). -/
def State.ratePend (s : State) (v : Fin 2) : Bool := s.tb.virt[v.val].pend && !bitOf s.tb.tbCfgEff 28

/-- GSTAT (R473). -/
def State.gstat (s : State) : Word :=
  fields [(0, maskOf (s.tb.edge.toList.map (·.still))), (8, bit (s.ratePend 0) + 2 * bit (s.ratePend 1)), (10, bit s.tb.syncLock),
    (11, bit s.dev.safeAct), (12, bit s.dev.safeHold), (16, bit s.dev.safeA), (17, bit s.dev.safeB),
    (20, maskOf (allGroups.map fun g => s.grpFault g ≠ 0))]

/-- HIRQ is pulled low (R305). -/
def State.hirqLow (s : State) : Bool := s.q.cplReq || (s.q.fie && s.faultBit)

/-- SBALRT is pulled low: an enabled cause is latched and not yet announced (R353). -/
def State.alertLow (s : State) : Bool := s.sb.causes &&& s.sb.amaskUse &&& ~~~ s.sb.announced ≠ 0

/-- The set that READ_AXIS latches, items 0x00 to 0x1B (R329). -/
def State.axisSet (s : State) (n : AxisId) : Vector Word 28 :=
  let x := s.ax n
  let c := x.obs.capture
  let occupied := x.mot.queue.length + x.mot.runs.length
  #v[loWord x.mot.out, hiWord x.mot.out, loWord x.mot.vel, hiWord x.mot.vel, loWord x.enc.snap, hiWord x.enc.snap,
    s.axStat n, s.axOwner n, BitVec.ofNat 32 x.prot.ra, BitVec.ofNat 32 x.prot.rb, x.prot.verdict.setWidth 32,
    fields [(0, x.drv.sel.amp), (16, x.drv.sel.target)], BitVec.ofNat 32 x.cfg.rcoil, BitVec.ofNat 32 x.cfg.lcoil,
    BitVec.ofNat 32 x.cfg.ke, fields [(0, low 16 x.obs.delta), (16, bit x.obs.valid), (17, bit x.obs.injRegime)],
    BitVec.ofNat 32 x.obs.efMag, loWord x.obs.fel, mpos32 c.mpos, c.frame.setWidth 32, (c.frame >>> 32).setWidth 32,
    loWord c.pout, hiWord c.pout, fields [(0, low 16 c.delta), (16, bit c.critA), (17, bit c.critB), (18, bit c.critEnc)],
    BitVec.ofNat 32 c.efMag, s.axMpos n, fields [(0, x.prot.tries), (8, retryCode x.prot.retry)],
    fields [(0, occupied), (5, x.mot.runs.length)]]

/-- Where an item of READ_GROUP stands in the latched set, with the number of indices it takes (R329). -/
def groupItem (item : Nat) : Option (Nat × Nat) :=
  match item with
  | 0 => some (0, 0)
  | 1 => some (1, 0)
  | 2 => some (2, 0)
  | 3 => some (3, 0)
  | 4 => some (4, 2)
  | 5 => some (6, 2)
  | 6 => some (8, 16)
  | 7 => some (24, 16)
  | 8 => some (40, 0)
  | 9 => some (41, 16)
  | 10 => some (57, 96)
  | 11 => some (153, 3)
  | 12 => some (156, 0)
  | 13 => some (157, 16)
  | _ => none

/-- The set that READ_GROUP latches, item after item (R329). R329 gives TEMP as s16 in a 32-bit WORD: its upper half reads 0 (DESIGN
CHOICE, notes/assumptions/98.md). -/
def State.groupSet (s : State) (g : GroupId) : List Word :=
  let x := s.grp g
  let a := fun (h : Fin 2) => s.adc ⟨2 * g.val + h.val, by omega⟩
  let legs := (List.finRange 16).map fun m => s.leg (legAt g m)
  [x.stat, s.grpFault g, x.temp.setWidth 32, x.vm.setWidth 32]
    ++ [BitVec.ofNat 32 (low 16 (a 0).oa), BitVec.ofNat 32 (low 16 (a 1).oa), BitVec.ofNat 32 (a 0).ga, BitVec.ofNat 32 (a 1).ga]
    ++ legs.map (fun l => BitVec.ofNat 32 (low 16 l.os)) ++ legs.map (fun l => BitVec.ofNat 32 l.gs) ++ [BitVec.ofNat 32 x.lastS]
    ++ (List.range 16).map (fun f => BitVec.ofNat 32 (x.taps.getD f 0)) ++ s.pins.toList.map (·.entry)
    ++ (List.range 3).map (fun j => flagWord ((s.pins.toList.drop (32 * j)).take 32 |>.map (·.snap)))
    ++ [s.dev.bankHv.setWidth 32] ++ legs.map (fun l => l.miss.setWidth 32)

end Sys2Proof.Machine
end

