-- ==== Sys2Proof/Machine/Axio.lean ====
section
/-! DEFINITION. AXIO pins: transitions, qualification, chatter, limits, home edges, jog, plug sense, encoder edges and
captures (04_axio_homing.md; 02_master_time.md R55; 09_power_stage.md R260; 05_current_control.md R166, R169). -/
namespace Sys2Proof.Machine
open Sys2Proof

/-! ### Reactions of an axis -/

/-- Direction of what moves an axis, for the limits (R123): the jog's, a stop's, or the running segment's by R81. A BIDIR GEAR that
runs by its own phases has the sign of its velocity in time: that of its advance since the snapshot before (DEDUCED,
notes/assumptions/103.md). -/
def AxisMotion.heading (a : AxisMotion) : Int :=
  match a.jog with
  | some j => if j.positive then 1 else -1
  | none =>
    match a.runs.head? with
    | some r =>
      if r.bidir && a.stop.isNone then sgn ((r.eval a.mProg 0).1 - (r.eval a.mProgPrev 0).1)
      else if r.bidir || r.home ≠ .notHome then sgn a.vel
      else r.dir
    | none => sgn a.vel

/-- The undecided HOME that runs on an axis. -/
def AxisMotion.homing (a : AxisMotion) : Option Run :=
  match a.runs with
  | [r] => if r.home ≠ .notHome && r.decided.isNone then some r else none
  | _ => none

/-- A HOME has had its status decided by a limit or by chatter in the present frame (R132). -/
def State.homeDecidedNow (s : State) (n : AxisId) : Bool :=
  let a := (s.ax n).mot
  (a.stop.map (·.tick)) = some s.tb.tick && a.runs.any fun r =>
    (r.decided.map (·.1)) = some .homeLimit || (r.decided.map (·.1)) = some .swChatter

/-- A limit becomes active (R124, R129): motion toward it stops as by QUICKSTOP and completes LIMIT; a HOME, whatever its
leg, completes HOME_LIMIT unless the pin is its home switch, and at once where a retry holds it at rest. A later event of the frame in
which its status was decided has no effect (R132). -/
def State.limitEdge (s : State) (n : AxisId) (pin : PinId) (d : Int) : State :=
  let a := (s.ax n).mot
  if a.atRest then s
  else if a.runs.any (fun r => r.home ≠ .notHome) then
    let w : Word := BitVec.ofNat 32 pin.val
    if isHome (s.pin pin).func || s.homeDecidedNow n then s
    else if a.held.isSome then (s.ownedAlert n).endHeld n .homeLimit (some w)
    else (s.ownedAlert n).stopAxis n true (some (.homeLimit, some w)) none none
  else if a.held.isNone && a.heading * d > 0 then
    (s.ownedAlert n).stopAxis n true (some (.limit, some (s.limitWord n))) none none
  else s

/-- A BIDIR GEAR that its master drives toward an active limit stops as at the limit's edge (R123, R124). -/
def State.bidirLimit (s : State) (n : AxisId) : State :=
  let a := (s.ax n).mot
  if a.held.isNone && a.stop.isNone && a.runs.any Run.bidir && a.heading ≠ 0 && s.limitOn n a.heading then
    (s.ownedAlert n).stopAxis n true (some (.limit, some (s.limitWord n))) none none
  else s

/-- The home edge of a HOME that a retry holds at rest since m_prog stood at `m`: the leg that ends with the edge has ended, and what
follows it starts from rest when the segments resume (R126, R127, R253). -/
def State.homeEdgeHeld (s : State) (n : AxisId) (r : Run) (h : HomeOps) (active : Bool) (pos m : Int) : State :=
  let a := (s.ax n).mot
  let first := (r.eval (min pos m) (min pos m)).1
  let still := fun (r : Run) (st : HomeStage) => s.modMot n fun b =>
    { b with runs := [{ r with ms := m, ps := a.pos, vs := 0, phases := [], target := none, unbounded := false, home := st }] }
  match r.home, active with
  | .fast, true => still r .fastStop
  | .backOff, false =>
    let want := first - h.s * h.bo
    let pl := planMove a.pos (if 0 < h.s then min want a.pos else max want a.pos) 0 h.vf h.hacc h.hdec 0
    s.modMot n fun b => { b with runs :=
      [{ r with ms := m, ps := a.pos, vs := 0, phases := asBody pl.phases, target := pl.target, unbounded := false, home := .backOffMove }] }
  | .slow, true => still { r with pCap := first, capM := pos } .slowStop
  | _, _ => s

/-- An edge of the home switch during a HOME (R126, R127): `pos` is the bound master's position at t_first. -/
def State.homeEdge (s : State) (n : AxisId) (active : Bool) (pos : Int) : State :=
  let a := (s.ax n).mot
  match a.stop, a.homing with
  | none, some r =>
    match r.seg.kind.homeOps with
    | none => s
    | some h =>
      match a.held with
      | some (m, _) => s.homeEdgeHeld n r h active pos m
      | none =>
        match r.home, active with
        | .fast, true => s.homeDecel n r h .fastStop
        | .backOff, false => s.homeBackMove n r h (r.eval pos pos).1
        | .slow, true =>
          let r' := { r with pCap := (r.eval pos pos).1, capM := pos }
          (s.modMot n fun a => { a with runs := [r'] }).homeDecel n r' h .slowStop
        | _, _ => s
  | _, _ => s

/-- The home switch starts to chatter during a HOME: it stops with the HOME deceleration and completes SW_CHATTER, at once where
a retry holds it at rest (R130). -/
def State.homeChatter (s : State) (n : AxisId) (pin : PinId) : State :=
  match (s.ax n).mot.homing with
  | none => s
  | some r =>
    match r.seg.kind.homeOps with
    | none => s
    | some h =>
      let w : Word := BitVec.ofNat 32 pin.val
      if (s.ax n).mot.held.isSome then s.endHeld n .swChatter (some w)
      else s.stopAxis n false (some (.swChatter, some w)) none (some (h.hdec, 0))

/-- A jog toward `d` starts at the present snapshot, on M7 (R134). -/
def State.startJog (s : State) (n : AxisId) (d : Int) : State :=
  let x := s.ax n
  let pl := planVelocity x.mot.pos 0 (d * x.cfg.jogv) x.cfg.joga x.cfg.joga 0
  s.modMot n fun a => { a with jog := some ⟨0 < d, s.m7 / 65536 * 65536, a.pos, pl.phases, d * x.cfg.jogv⟩ }

/-- A jog toward `d` may start now: the axis is enabled, energised and at rest, its rest of R74 is over and no limit refuses (R123, R243). -/
def State.jogReady (s : State) (n : AxisId) (d : Int) : Bool :=
  let x := s.ax n
  let e := x.mot.lastEnd
  x.drv.enabled && !x.drv.enabling && !x.drv.disabling && x.mot.atRest && x.mot.held.isNone && x.mot.queue.isEmpty
    && x.drv.energised && !(s.grp (groupOf n)).supplyHold && !s.limitOn n d && !(((e.map (·.dir)).getD 0) * d < 0 && (e.map (·.snaps)).getD 1 = 0)

/-- A local jog starts where a pressed button lets it (R134, R135). -/
def State.jogStep (s : State) (n : AxisId) : State :=
  let x := s.ax n
  if x.prot.owner = .localJog && x.cfg.jogEn && !x.mot.jogBlocked then
    match s.button n 1, s.button n (-1) with
    | true, false => if s.jogReady n 1 then s.startJog n 1 else s
    | false, true => if s.jogReady n (-1) then s.startJog n (-1) else s
    | _, _ => s
  else s

/-- Every running segment and jog of an axis stops as by STOP with the flush flag (R133): what a retry holds completes at once (R255),
and a recipe that streams into the axis ends (R331). -/
def State.stopFlush (s : State) (n : AxisId) : State :=
  let s := s.endDone n
  ((if (s.ax n).mot.held.isSome then s.endHeld n .stopped none else s.stopAxis n false none none none).flushQueue n .flushed).endStreamOn [n]

/-- A jog button has changed (R133, R134); `press`: it has become active. A press with no other button held follows the release of
both, so nothing blocks the jog; a button held when a jog ends starts none (R135). -/
def State.jogEdge (s : State) (n : AxisId) (press : Bool) : State :=
  let x := s.ax n
  let up := s.button n 1
  let dn := s.button n (-1)
  let blocked := (up && dn) || (x.mot.jogBlocked && (up || dn) && !(press && up != dn))
  let s1 := s.modMot n fun a => { a with jogBlocked := blocked }
  match x.prot.owner with
  | .sideband => s1
  | .host =>
    if press && x.cfg.jogEn && x.drv.enabled && !x.drv.disabling then
      ((s1.modProt n fun p => { p with owner := .localJog, ownChg := true }).stopFlush n).jogStep n
    else s1
  | .localJog =>
    match x.mot.jog with
    | some j => if blocked || (if j.positive then !up else !dn) then s1.stopAxis n false none none none else s1
    | none => s1.jogStep n

/-- The plug state of an axis changes (R137): PLUG_CHG with a Shale entry. -/
def State.setPlug (s : State) (n : AxisId) (p : PlugState) : State :=
  if (s.ax n).prot.plug = p then s
  else (s.modProt n fun x => { x with plug := p, plugChg := true }).shaleAxis n 17

/-- The axis is unplugged (R260): its segments complete UNPLUGGED with the word given, and it is disabled, not latched. -/
def State.unplug (s : State) (n : AxisId) (w : Word) : State :=
  let s1 := s.turnOff n .unplugged w
  let s2 := (s1.modProt n fun x => { x with plug := .unplugged, probe := .unplugged, plugChg := true }).shaleAxis n 17
  s2.setUnsure n

/-- A routed plug-sense pin has become inactive (R137, R138, R260). -/
def State.plugPinOff (s : State) (n : AxisId) : State := if (s.ax n).drv.enabled then s.unplug n 0 else s.setPlug n .unplugged

/-- A change of quadrature levels: +1, −1, or 0 where it is no valid single step (R114). -/
def quadStep (a b a' b' : Bool) : Int :=
  if a ≠ a' ∧ b = b' then (if a' = b then -1 else 1)
  else if b ≠ b' ∧ a = a' then (if b' = a then 1 else -1)
  else 0

/-- A pin of the axis encoder changes (R114). A rotation pulse counts in the direction of the commanded motion, that of the output
position, the last one while the axis stands (DEDUCED, notes/assumptions/28.md). -/
def State.encoderEdge (s : State) (n : AxisId) (f : Nat) (active : Bool) : State :=
  let m := (s.ax n).mot
  s.modEnc n fun e =>
    match f with
    | 1 => { e with a := active, count := wrapS 48 (e.count + quadStep e.a e.b active e.b) }
    | 2 => { e with b := active, count := wrapS 48 (e.count + quadStep e.a e.b e.a active) }
    | _ => if active then { e with count := wrapS 48 (e.count + m.way) } else e

/-- The frame to which what happens at timestamp `t` belongs: that of the boundary to come, unless `t` lies before the last one (R59
step 3, R117). -/
def State.frameOf (s : State) (t : Nat) : Nat := if 2 * t < s.tb.tick then s.frameNat else (s.tb.frame + 1).toNat

/-- A capture is recorded: its source, raw time, frame and master position (R55), for an edge that qualified at `q`. The latest of each
source is kept. -/
def State.capture (s : State) (src t q : Nat) (pos : Int) : State :=
  { s with tb := { s.tb with captures := (s.tb.captures.filter fun c => c.1 ≠ src) ++ [(src, t, s.frameOf q, pos)] } }

/-! ### Transitions and qualification (R115 to R118) -/

/-- AXIO_TRANSITION: a filtered transition of a pin at raw time `t` (R115, R116). The position of the axis's master is kept
with t_first (R127). -/
def State.axioTransition (s : State) (pin : PinId) (level : Bool) (t : Nat) : State :=
  let p := s.pin pin
  if level = p.raw then s
  else if isOutput p.func then s.modPin pin fun p => { p with raw := level, tLast := t }
  else
    let pos := match p.axis? with
      | some n => s.masterAt (s.ax n).mot.master t
      | none => 0
    let first := level ≠ p.qual && p.tFirst.isNone
    s.modPin pin fun p => { p with raw := level, tLast := t, tFirst := if first then some t else p.tFirst
                                   posFirst := if first then pos else p.posFirst }

/-- AXIO_TRANSITION (R115). -/
def execAxioTransition (pin : PinId) (level : Bool) (t : Nat) (s : State) : Host.Outcome State Fault Refusal :=
  .next (s.axioTransition pin level t)

/-- Nine qualified edges within 50 ms (R118). -/
def chatters (edges : List Nat) : Bool :=
  match edges.head?, edges[8]? with
  | some a, some b => a - b ≤ 50 * 160000
  | _, _ => false

/-- The pin starts to chatter: SW_CHATTER in its SW_CHAT bit, and a Shale entry (R118, R476). -/
def State.startChatter (s : State) (pin : PinId) : State :=
  let s1 := s.modPin pin fun p => { p with chatter := true }
  let w : Fin 3 := ⟨pin.val / 32, by omega⟩
  { s1 with dev := { s1.dev with swChat := upd s1.dev.swChat w (· ||| BitVec.ofNat 32 (2 ^ (pin.val % 32))) } }.shale 8 0x21
    pin.val (Config.shaleData 8)

/-- A qualified edge, the ninth within 50 ms when `nine` says so, starts the condition (R118). -/
def State.noteChatter (s : State) (pin : PinId) (nine : Bool) : State := if nine && !(s.pin pin).chatter then s.startChatter pin else s

/-- What a change of an input means to its axis; `was` and `now` are how it acted before and acts now, and `pos` is the position
of the axis's master at t_first (R118, R126, R127). -/
def State.inputChange (s : State) (pin : PinId) (n : AxisId) (was now : Bool) (pos : Int) : State :=
  let p := s.pin pin
  let f := p.func
  let s1 := if isHome f && p.chatter then s.homeChatter n pin
    else if isHome f then s.homeEdge n p.level pos else s
  let s2 := if (isLowLimit f || isHighLimit f) && now && !was then s1.limitEdge n pin (if isHighLimit f then 1 else -1) else s1
  let s3 := if f = 9 || f = 10 then s2.jogEdge n (now && !was) else s2
  if f = 11 && was && !now then s3.plugPinOff n else s3

/-- A qualified change takes effect in step 3 of its frame as a switch, limit, jog or plug event (R59, R117). -/
def State.edgeStep (s : State) (pin : PinId) (level : Bool) (pos : Int) (nine : Bool) : State :=
  let p := s.pin pin
  let s1 := s.modPin pin fun p => { p with acted := level }
  if isOutput p.func then s1
  else
    let s2 := s1.noteChatter pin nine
    match p.axis? with
    | none => s2
    | some n => s2.inputChange pin n p.isOn (s2.pin pin).isOn pos

/-- The events of step 3 with one of rank `k` among them: by raw time, and on an equal raw time SAFE_OFF, SUPPLY, DRIVE_FAULT,
UNPLUGGED, then the others (R61, R256). -/
def insertStep (k : Nat) (e : Step3) : List (Nat × Step3) → List (Nat × Step3)
  | [] => [(k, e)]
  | x :: r => if k < x.1 then (k, e) :: x :: r else x :: insertStep k e r

/-- An event waits for step 3 of the next boundary, by its raw time and its place among equals (R256). -/
def State.waitStep3 (s : State) (t place : Nat) (e : Step3) : State :=
  { s with dev := { s.dev with step3 := insertStep (8 * t + place) e s.dev.step3 } }

/-- AXIO_QUALIFY: the pending change of a pin qualifies DEB ms after its last transition, or is abandoned (R116, R117). An encoder
counts and a capture is taken at once; every other change acts in step 3 of the next boundary. -/
def State.axioQualify (s : State) (pin : PinId) (t : Nat) : State :=
  let p := s.pin pin
  if p.tFirst.isNone || t - p.tLast < entryDeb p.entry * 160000 || isOutput p.func then s
  else if p.raw = p.qual then s.modPin pin fun p => { p with tFirst := none }
  else
    let raw := p.tFirst.getD t
    let edges := (t :: p.edges).take 9
    let nine := chatters edges
    let s1 := s.modPin pin fun p => { p with qual := p.raw, tFirst := none, edges := edges }
    match p.axis? with
    | none => s1.waitStep3 raw 4 (.edge pin p.raw p.posFirst nine)
    | some n =>
      if isEncoder p.func then ((s1.modPin pin fun p => { p with acted := p.raw }).noteChatter pin nine).encoderEdge n p.func (p.raw != entryInv p.entry)
      else if p.func = 12 then ((s1.modPin pin fun p => { p with acted := p.raw }).noteChatter pin nine).capture pin.val raw t p.posFirst
      else s1.waitStep3 raw (if p.func = 11 then 3 else 4) (.edge pin p.raw p.posFirst nine)

/-- AXIO_QUALIFY (R117). -/
def execAxioQualify (pin : PinId) (t : Nat) (s : State) : Host.Outcome State Fault Refusal := .next (s.axioQualify pin t)

/-- CHATTER_END: no qualified edge for 200 ms ends the condition; the flag stays (R118). -/
def State.chatterEnd (s : State) (pin : PinId) (t : Nat) : State :=
  let p := s.pin pin
  if p.chatter && 200 * 160000 ≤ t - p.edges.headD 0 then
    let was := p.isOn
    let s1 := s.modPin pin fun p => { p with chatter := false, edges := [] }
    match p.axis? with
    | none => s1
    | some n =>
      let q := s1.pin pin
      if q.func = 9 || q.func = 10 then (s1.jogEdge n q.isOn).refresh n
      else if q.func = 11 && was && !q.isOn then s1.plugPinOff n
      else s1
  else s

/-- CHATTER_END (R118). -/
def execChatterEnd (pin : PinId) (t : Nat) (s : State) : Host.Outcome State Fault Refusal := .next (s.chatterEnd pin t)

/-- LOCAL_RETURN: both buttons released and no jog for 2 s give the axis back to HOST (R133). -/
def State.localReturn (s : State) (n : AxisId) : State :=
  let x := s.ax n
  if x.prot.owner = .localJog && x.mot.jog.isNone && !s.button n 1 && !s.button n (-1) then
    s.modProt n fun p => { p with owner := .host, ownChg := true }
  else s

/-- LOCAL_RETURN (R133). -/
def execLocalReturn (n : AxisId) (s : State) : Host.Outcome State Fault Refusal := .next (s.localReturn n)

/-! ### Outputs (R110, R119) -/

/-- AXIO_OUTPUT_OVERLOAD: the current limit or thermal cut-out of an output turns it off (R110). -/
def execAxioOutputOverload (pin : PinId) (s : State) : Host.Outcome State Fault Refusal :=
  let s1 := s.modPin pin fun p => { p with overloaded := true, sink := false }
  let w : Fin 3 := ⟨pin.val / 32, by omega⟩
  .next { s1 with dev := { s1.dev with axioOvl := upd s1.dev.axioOvl w (· ||| BitVec.ofNat 32 (2 ^ (pin.val % 32))) } }

/-- Whether an output pin is to sink: its function's state, with INV (R119). -/
def Pin.demand (p : Pin) : Bool := isOutput p.func && (p.active != entryInv p.entry)

/-- AXIO_OUTPUT_RETRY: after 10 ms the output is tried again if its function still demands it (R110). -/
def execAxioOutputRetry (pin : PinId) (s : State) : Host.Outcome State Fault Refusal :=
  .next (s.modPin pin fun p => if p.overloaded then { p with overloaded := false, sink := p.demand } else p)

/-! ### Plug sense and the axis encoder (R136, R137, R166, R169, R234) -/

/-- The verdict of a probe (R136). -/
def probeVerdict (ra rb : Nat) : PlugState :=
  if 300 ≤ ra ∧ ra ≤ 100000 ∧ 300 ≤ rb ∧ rb ≤ 100000 then .plugged
  else if 1000000 < ra ∨ 1000000 < rb then .unplugged
  else .plugFault

/-- PLUG_PROBE: a probe of a disabled axis with plug sense ends; two equal new verdicts change the plug state, PLUGGED only
while a routed plug-sense pin is active (R136, R137). A PLUGGED verdict gives RCOIL the mean of the two resistances, rounded down (R159
names plug sense as a source; DEDUCED, notes/assumptions/108.md). -/
def State.plugProbe (s : State) (n : AxisId) (ra rb : Nat) : State :=
  let x := s.ax n
  if x.cfg.plugEn && !x.drv.enabled && (s.grp (groupOf n)).diag.isNone then
    let v := probeVerdict ra rb
    let s1 := s.modProt n fun p => { p with ra := ra, rb := rb, probe := v }
    let pins := s.pinsOf n (· = 11)
    let allowed := v ≠ .plugged || pins.all fun p => (s.pin p).isOn
    let s1 := s1.forAll (axisLegs n) fun s m => s.modLeg m fun l => { l with testTicks := 0 }
    let s1 := if v = .plugged then s1.modCfg n fun c => { c with rcoil := (ra + rb) / 2 } else s1
    if x.prot.probe = v && allowed then s1.setPlug n v else s1
  else s

/-- PLUG_PROBE (R136). -/
def execPlugProbe (n : AxisId) (ra rb : Nat) (s : State) : Host.Outcome State Fault Refusal := .next (s.plugProbe n ra rb)

/-- UNPLUG_DETECT: a coil of an enabled axis met the open condition in two consecutive frames (R259, R260). -/
def State.unplugDetect (s : State) (n : AxisId) : State :=
  let oa := 2 ≤ (s.coil (coilA n)).openRun
  let ob := 2 ≤ (s.coil (coilB n)).openRun
  if (s.ax n).drv.enabled && (oa || ob) then s.unplug n (BitVec.ofNat 32 (bit oa + 2 * bit ob)) else s

/-- UNPLUG_DETECT (R259). -/
def execUnplugDetect (n : AxisId) (s : State) : Host.Outcome State Fault Refusal := .next (s.unplugDetect n)

/-- EOFF that makes penc equal to a position (R166, R234). -/
def Axis.eoffFor (x : Axis) (p : Int) : Int := p - (x.penc - x.mot.eoff)

/-- ENCODER_SETTLE: the encoder count has stood for 50 ms (`stood`), or 500 ms have passed without that (R166, R234, R252). After an
ENC_ERR neither the loop closes nor the criterion arms before the next ENABLE (R169, R234); an ENABLE that ENC_ERR finds waiting ends
with STALL at its 500 ms (DEDUCED, notes/assumptions/107.md). -/
def State.encoderSettle (s : State) (n : AxisId) (stood : Bool) : State :=
  let x := s.ax n
  if !x.drv.energised then s
  else if x.cfg.setpoint then
    if x.enc.closed && !x.enc.fallback then s
    else if stood && x.enc.fallback then s
    else if stood then
      let s1 := s.modMot n fun a => { a with eoff := x.eoffFor a.pos }
      let s2 := s1.modEnc n fun e => { e with closed := true, armed := !e.disarmed, loop := {}, loopPrev := {} }
      if x.prot.retry = .energise then s2 else if x.drv.enabling then s2.endEnable n .ok 0 else s2
    else if x.drv.enabling && x.prot.retry = .none then s.turnOff n .stall 0
    else s
  else if stood && x.cfg.cprm ≠ 0 && !x.enc.armed && !x.enc.disarmed && s.hasEncoder n then
    (s.modMot n fun a => { a with eoff := x.eoffFor a.out }).modEnc n fun e => { e with armed := true }
  else s

/-- ENC_ERR: both encoder inputs changed within one filtered sample (R169, R234). -/
def State.encError (s : State) (n : AxisId) : State :=
  if s.hasEncoder n then
    let s1 := s.modEnc n fun e => { e with err := true, armed := false, disarmed := true, fallback := (s.ax n).cfg.setpoint }
    (s1.modMot n fun a => { a with unsure := true }).shaleAxis n 20
  else s

/-- ENC_ERR (R169). -/
def execEncErr (n : AxisId) (s : State) : Host.Outcome State Fault Refusal := .next (s.encError n)

end Sys2Proof.Machine
end

