-- ==== Sys2Proof/Machine/Protection.lean ====
section
/-! DEFINITION. Trips and the retry sequence, lock-outs, thermal shutdown, link failures, safe-off and the end of DIAGNOSE
(09_power_stage.md; 01_architecture.md R17; 17_power_thermal.md R441, R445, R446). -/
namespace Sys2Proof.Machine
open Sys2Proof

/-! ### Trips (R248 to R251) -/

/-- LEG_TRIP: a comparator turns a leg off, and the EN lines of its axis go low (R16, R250); no stall criterion of the axis runs in
that frame (R238). In a host-driven group only the leg is turned off (R257). The classification waits for step 3 of the next boundary,
and what it means to each axis for the time of that axis's first trip (R256). -/
def State.legTrip (s : State) (m : LegId) (hs hard : Bool) (t : Nat) : State :=
  let g := groupOfLeg m
  let n := s.driver (axisOfLeg m)
  let was := (s.grp g).trips
  let s0 := if was.isEmpty then s.waitStep3 t 2 (.trips g) else s
  let s0 := if was.any fun x => s.driver (axisOfLeg x.leg) = n then s0 else s0.waitStep3 t 2 (.tripAxis n)
  let s1 := (s0.modGroup g fun x => { x with trips := x.trips ++ [⟨m, hs, hard, t⟩] }).modLeg m fun l =>
    { l.turnOff with tripped := true }
  if (s.grp g).hostDriven then s1
  else (s1.forAll (s.drivenLegs (axisOfLeg m)) fun s k => s.modLeg k Leg.turnOff).modObs n AxisObs.noCriteria

/-- LEG_TRIP (R248). -/
def execLegTrip (leg : LegId) (highSide hardShort : Bool) (t : Nat) (s : State) : Host.Outcome State Fault Refusal :=
  .next (s.legTrip leg highSide hardShort t)

/-- One classification: its code and the trips it takes in (R251). -/
structure TripClass where
  code : Nat
  trips : List Trip
deriving DecidableEq, Repr

/-- Takes the first trip of `l` that pairs with `t` by `ok`. -/
def takeMate (ok : Trip → Bool) : List Trip → Option (Trip × List Trip)
  | [] => none
  | x :: rest =>
    if ok x then some (x, rest)
    else (takeMate ok rest).map fun r => (r.1, x :: r.2)

/-- Pairs HS with LS trips by `mate`, in ascending leg order: the classes of `code` and the trips left (R251). -/
def pairTrips (mate : Trip → Trip → Bool) (code : Nat) : Nat → List Trip → List TripClass × List Trip
  | 0, l => ([], l)
  | _ + 1, [] => ([], [])
  | k + 1, x :: rest =>
    match takeMate (fun y => x.highSide ≠ y.highSide && mate x y) rest with
    | some (y, rest') => let r := pairTrips mate code k rest'; (⟨code, [x, y]⟩ :: r.1, r.2)
    | none => let r := pairTrips mate code k rest; (r.1, x :: r.2)

/-- The trips of a group in ascending leg order. -/
def sortTrips (l : List Trip) : List Trip := (List.finRange 192).flatMap fun m => l.filter fun t => t.leg = m

/-- The classification of the trips of one group and frame (R251). -/
def classify (l : List Trip) : List TripClass :=
  let a := pairTrips (fun x y => coilOfLeg x.leg = coilOfLeg y.leg) 3 32 (sortTrips l)
  let b := pairTrips (fun _ _ => true) 4 32 a.2
  a.1 ++ b.1 ++ b.2.map fun t => ⟨if t.highSide then 1 else 2, [t]⟩

/-- The DRIVE_FAULT word (R254). -/
def AxisProt.faultWord (p : AxisProt) : Word :=
  BitVec.ofNat 32 (p.cls + p.firstLeg * 2 ^ 8 + p.tries % 256 * 2 ^ 16 + bit p.hard * 2 ^ 24)

/-- LATCH: the axis is disabled with DRIVE_FAULT (R254). -/
def State.latch (s : State) (n : AxisId) : State :=
  let p := (s.ax n).prot
  let s1 := s.turnOff n .driveFault p.faultWord
  (s1.modProt n fun q => { q with latched := true, retry := .latch, tries := p.tries, partner := none }).shaleAxis n 23

/-- WAIT: legs off, brake inactive, the output held from this snapshot (R252, R253). -/
def State.retryWait (s : State) (n : AxisId) : State :=
  let s := (s.reeval n).ownedAlert n
  let s1 := (s.legsOff n).modDrv n fun d => { d with brake := false, brakeWait := false }
  let m7 := s.m7
  (s1.modMot n fun a => { a with held := some (a.held.getD (a.mProg, m7)) }).modProt n fun p =>
    { p with retry := .wait, waitDone := false }

/-- After failed tries an axis waits, or latches when its counter exceeds TRN (R252). -/
def State.afterTry (s : State) (n : AxisId) : State :=
  if (s.grp (groupOf n)).trnEff.toNat < (s.ax n).prot.tries then s.latch n else s.retryWait n

/-- A failed CHECK, or a loop that did not close: class code 5 and one more try (R252, R254). -/
def State.failedTry (s : State) (n : AxisId) (leg : LegId) : State :=
  let s1 := s.modProt n fun p => { p with cls := 5, firstLeg := leg.val, tries := min 255 (p.tries + 1), partner := none }
  s1.afterTry n

/-- The earliest of some trips, the lowest leg on a tie (R254). -/
def firstTrip (l : List Trip) : Option Trip :=
  l.foldl (fun w t => match w with
    | none => some t
    | some x => if t.t < x.t ∨ (t.t = x.t ∧ t.leg < x.leg) then some t else some x) none

/-- One axis after the classifications of its group: a try for each that involves it, then WAIT or LATCH (R251, R252). -/
def State.involve (s : State) (cl : List TripClass) (n : AxisId) : State :=
  let mine := cl.filter fun c => c.trips.any fun t => s.driver (axisOfLeg t.leg) = n
  match mine.getLast? with
  | none => s
  | some c =>
    if !(s.ax n).drv.enabled then s
    else
      let own := (mine.flatMap (·.trips)).filter fun t => s.driver (axisOfLeg t.leg) = n
      let other := mine.flatMap (·.trips) |>.find? fun t => s.driver (axisOfLeg t.leg) ≠ n
      let s1 := s.modProt n fun p =>
        { p with cls := c.code, firstLeg := ((firstTrip own).map (·.leg.val)).getD 0
                 hard := (mine.flatMap (·.trips)).any (·.hardShort), tries := min 255 (p.tries + mine.length)
                 partner := other.map fun t => s.driver (axisOfLeg t.leg) }
      s1.afterTry n

/-- The classification of a group's trips in step 3 (R251): the flags and the Shale entries. -/
def State.classifyGroup (s : State) (g : GroupId) : State :=
  s.forAll (classify (s.grp g).trips) fun s c => s.grpFaultSet g (3 + c.code) (BitVec.ofNat 8 c.code)

/-- What the classification means to one axis (R251, R252); a host-driven group records the class without retry (R257). -/
def State.classifyAxis (s : State) (n : AxisId) : State :=
  let x := s.grp (groupOf n)
  if x.hostDriven then s else s.involve (classify x.trips) n

/-! ### Retry sequence (R252, R253) -/

/-- The axis of the same OUT_SHORT that retries together with `n`, while both wait (R251). -/
def State.retryMate (s : State) (n : AxisId) : Option AxisId :=
  (s.ax n).prot.partner.filter fun k => (s.ax k).prot.partner = some n && (s.ax k).prot.retry = .wait

/-- RETRY_WAIT_END: TRW ms have passed, and CHECK begins; two axes of one OUT_SHORT begin at the later of their two ends (R251, R252). -/
def State.waitEnd (s : State) (n : AxisId) : State :=
  let check := fun (s : State) (k : AxisId) => s.modProt k fun p => { p with retry := .check, waitDone := false }
  if (s.ax n).prot.retry ≠ .wait then s
  else
    match s.retryMate n with
    | none => check s n
    | some k => if (s.ax k).prot.waitDone then check (check s n) k else s.modProt n fun p => { p with waitDone := true }

/-- RETRY_WAIT_END (R252). -/
def execRetryWaitEnd (n : AxisId) (s : State) : Host.Outcome State Fault Refusal := .next (s.waitEnd n)

/-- RETRY_CHECK_END: steps 1 and 2 of DIAGNOSE have run. Both pass: ENERGISE at the next boundary (R252); else a failed try in step 3 of
the next boundary, by the raw time `t` of the end (R256). -/
def State.retryCheckEnd (s : State) (n : AxisId) (failA failB : Bool) (t : Nat) : State :=
  if (s.ax n).prot.retry ≠ .check then s
  else if failA || failB then s.waitStep3 t 2 (.checkFail n (legOf n (if failA then 0 else 2)))
  else
    let s1 := s.modProt n fun p => { p with retry := .energise }
    { s1 with q := { s1.q with snapOps := s1.q.snapOps ++ [.energise n] } }

/-- RETRY_CHECK_END (R252). -/
def execRetryCheckEnd (n : AxisId) (failA failB : Bool) (s : State) (t : Nat := 0) : Host.Outcome State Fault Refusal :=
  .next (s.retryCheckEnd n failA failB t)

/-- A failed CHECK in step 3: a failed try, unless the retry has ended meanwhile (R252, R256). -/
def State.checkFailed (s : State) (n : AxisId) (leg : LegId) : State :=
  if (s.ax n).prot.retry = .check then s.failedTry n leg else s

/-- A 32-bit position shifted by `d` mc (R253); one whose low bits come to 0 stays a position. -/
def shift32 (d : Int) (w : BitVec 32) : BitVec 32 := w + BitVec.ofInt 32 d

/-- What an axis holds in the count of its master is shifted by `d`, and what it holds on M7 by `d7` (R253, R70). -/
def AxisMotion.shift (a : AxisMotion) (d d7 : Int) (alsoStarts : Bool) : AxisMotion :=
  let k := d / 65536
  let seg := fun (g : Segment) => { g with deadline := g.deadline.map (shift32 k)
                                           start := if alsoStarts then g.start.map (shift32 k) else g.start }
  { a with
    queue := a.queue.map seg
    runs := a.runs.map fun r => { r with seg := seg r.seg, ms := r.ms + (if r.onM7 then d7 else d)
                                         timeoutAt := r.timeoutAt.map (shift32 k) }
    stop := a.stop.map fun t => { t with ms := t.ms + (if t.onM7 then d7 else d) }
    jog := a.jog.map fun j => { j with ms := j.ms + d7 } }

/-- Segments that a retry held do not resume toward a limit that is active: they complete LIMIT without moving (R123). -/
def State.resumeLimit (s : State) (n : AxisId) : State :=
  let a := (s.ax n).mot
  if a.stop.isNone && a.runs.any (fun r => r.seg.kind.limited && r.dir ≠ 0 && s.limitOn n r.dir) then
    s.dropAll n .limit (some (s.limitWord n))
  else s

/-- RETRY_RUN_RESUME: the axis is energised and its brake delay over; its segments resume where they stopped (R252, R253). -/
def State.retryResume (s : State) (n : AxisId) : State :=
  let x := s.ax n
  match x.mot.held with
  | none => s
  | some (m1, m7) =>
    if x.prot.retry = .energise && x.drv.energised && !x.drv.brakeWait && (!x.cfg.setpoint || x.enc.closed || x.enc.fallback) then
      let d := x.mot.mProg - m1
      let d7 := s.m7 - m7
      let s1 := s.modMot n fun a => { a.shift d d7 false with held := none }
      let s2 := (s1.modProt n fun p => { p with retry := .run, partner := none }).setUnsure n
      let s3 := if x.drv.enabling then s2.endEnable n .ok 0 else s2
      (s3.resumeLimit n).refresh n
    else s

/-- RETRY_RUN_RESUME (R253). -/
def execRetryRunResume (n : AxisId) (s : State) : Host.Outcome State Fault Refusal := .next (s.retryResume n)

/-- RETRY_COUNTER_CLEAR: 1 s of RUN without a trip clears the try counter (R252). -/
def execRetryCounterClear (n : AxisId) (s : State) : Host.Outcome State Fault Refusal :=
  .next (s.modProt n fun p => if p.retry = .run then { p with retry := .none, tries := 0 } else p)

/-- ENCODER_SETTLE (R166, R234, R252): in ENERGISE a loop that did not close in 500 ms is a failed try. -/
def execEncoderSettle (n : AxisId) (stood : Bool) (s : State) : Host.Outcome State Fault Refusal :=
  let x := s.ax n
  .next (if x.prot.retry = .energise && x.cfg.setpoint && !x.enc.fallback && !stood && !x.enc.closed then s.failedTry n (legOf n 0)
    else s.encoderSettle n stood)

/-! ### DIAGNOSE (R244 to R247) -/

/-- The verdict mask (R246); a tie found open counts for a gang lead (R245). -/
def diagMask (r : DiagReading) (lead skipped : Bool) : BitVec 16 :=
  let isOpen := fun (x : Nat) => 1000000 < x
  let off := fun (x : Nat) => !isOpen x && (x < 300 || 100000 < x)
  BitVec.ofNat 16 (maskOf [r.shortVmA, r.shortGndA, r.shortVmB, r.shortGndB, isOpen r.raMilliohm, isOpen r.rbMilliohm,
    off r.raMilliohm, off r.rbMilliohm, r.coilToCoil, r.outToOut, lead && r.tieOpen, skipped])

/-- The next DIAGNOSE waiting in a group begins its steps, or is refused as R247 says; `k` bounds the rounds. -/
def State.nextDiag : Nat → State → GroupId → State
  | 0, s, _ => s
  | k + 1, s, g =>
    match (s.grp g).diagQueue with
    | [] => s
    | (n, act) :: rest =>
      let s1 := s.modGroup g fun x => { x with diagQueue := rest }
      if (s.ax n).drv.enabled || (s.ax n).drv.enabling || s.isPartner n then
        State.nextDiag k (s1.actionAxis act ⟨n, .rejectState, noField, none⟩ 0 false) g
      else if (s.grp g).lockout ≠ 0 then
        State.nextDiag k (s1.actionAxis act ⟨n, .supply, BitVec.ofNat 32 (s.grp g).lockout.toNat, none⟩ 0 false) g
      else s1.modGroup g fun x => { x with diag := some (n, act) }

/-- DIAGNOSE_END: the six steps of the running DIAGNOSE have ended with the reading given (R246, R247, R33). -/
def State.diagnoseEnd (s : State) (n : AxisId) (r : DiagReading) : State :=
  let g := groupOf n
  match (s.grp g).diag with
  | none => s
  | some (k, act) =>
    if k ≠ n then s
    else
      let skipped := (groupAxes g).any fun j => j ≠ n && (s.ax j).drv.enabled
      let m := diagMask r (s.ganged n) skipped
      let bad := m &&& 0x07FF ≠ 0
      let s1 := (s.modGroup g fun x => { x with diag := none }).modProt n fun p =>
        { p with verdict := m, ra := r.raMilliohm, rb := r.rbMilliohm, diagFail := bad
                 gangUntested := p.gangUntested && bad }
      let s2 := if bad then s1.shaleAxis n 22 else s1
      (s2.actionAxis act ⟨n, if bad then .driveFault else .ok, m.setWidth 32, none⟩ 0 false).nextDiag 64 g

/-- DIAGNOSE_END (R247). -/
def execDiagnoseEnd (n : AxisId) (r : DiagReading) (s : State) : Host.Outcome State Fault Refusal := .next (s.diagnoseEnd n r)

/-- A DIAGNOSE running in a group ends with SUPPLY when a lock-out arises (R247). -/
def State.abortDiag (s : State) (g : GroupId) : State :=
  match (s.grp g).diag with
  | none => s
  | some (n, act) =>
    let w := BitVec.ofNat 32 (s.grp g).lockout.toNat
    ((s.modGroup g fun x => { x with diag := none }).actionAxis act ⟨n, .supply, w, none⟩ 0 false).nextDiag 64 g

/-! ### Lock-outs (R241 to R243) -/

/-- Every EN line of a group goes low. -/
def State.groupLegsOff (s : State) (g : GroupId) : State :=
  (s.forAll ((List.finRange 16).map (legAt g)) fun s m => s.modLeg m Leg.turnOff).forAll (groupAxes g) fun s n =>
    s.modDrv n fun d => { d with energised := false }

/-- The axes of a group that are enabled, or whose ENABLE waits. -/
def State.liveAxes (s : State) (g : GroupId) : List AxisId :=
  (groupAxes g).filter fun n => (s.ax n).drv.enabled || (s.ax n).drv.enabling

/-- A pending energising of an axis is dropped. -/
def State.dropEnergise (s : State) (n : AxisId) : State :=
  { s with q := { s.q with snapOps := s.q.snapOps.filter fun o => o ≠ .energise n } }

/-- A lock-out of a group, by its number 0 VGD, 1 VCP, 2 VM under, 3 VM over (R241, R242): EN low at once, the sticky flag and a
Shale entry; its axes follow in step 3 of the next boundary, by the raw time `t`: the instant the threshold was crossed. -/
def State.lockOut (s : State) (g : GroupId) (k : Fin 4) (t : Nat) : State :=
  let s1 := s.modGroup g fun x => { x with lockout := x.lockout ||| BitVec.ofNat 4 (2 ^ k.val), supplyHold := true }
  let s2 := (s1.groupLegsOff g).grpFaultSet g k.val (Config.powerStageCode (16 + k.val))
  ((s2.forAll (groupAxes g) State.dropEnergise).waitStep3 t 1 (.supply g k)).abortDiag g

/-- Step 3 after a lock-out (R242): every enabled axis keeps its place with its segments completed SUPPLY. -/
def State.supplyStep (s : State) (g : GroupId) (k : Fin 4) : State :=
  let w := BitVec.ofNat 32 ((s.grp g).lockout ||| BitVec.ofNat 4 (2 ^ k.val)).toNat
  s.forAll (s.liveAxes g) fun s n => ((s.endAll n .supply w).setUnsure n).dropEnergise n

/-- GATE_SUPPLY_LOCKOUT: VGD or VCP under-voltage, acted on by the group die (R241). -/
def execGateSupplyLockout (g : GroupId) (vcp : Bool) (s : State) (t : Nat := 0) : Host.Outcome State Fault Refusal :=
  .next (s.lockOut g (if vcp then 1 else 0) t)

/-- VM_LOCKOUT: VM under-voltage or over-voltage, qualified for 10 µs; `t` is the instant VM first crossed its threshold in that excursion
(R241, R242). -/
def execVmLockout (g : GroupId) (overVoltage : Bool) (s : State) (t : Nat := 0) : Host.Outcome State Fault Refusal :=
  .next (s.lockOut g (if overVoltage then 3 else 2) t)

/-- LOCKOUT_RELEASE: every lock-out of the group has been clear for 10 ms; its enabled axes are energised at the next
boundary (R243). -/
def State.lockoutRelease (s : State) (g : GroupId) : State :=
  let s1 := s.modGroup g fun x => { x with lockout := 0, supplyHold := false }
  { s1 with q := { s1.q with snapOps := s1.q.snapOps ++
    ((groupAxes g).filter fun n => (s.ax n).drv.enabled && !(s.ax n).drv.energised && (s.ax n).prot.retry = .none).map SnapOp.energise } }

/-- LOCKOUT_RELEASE (R243). -/
def execLockoutRelease (g : GroupId) (s : State) : Host.Outcome State Fault Refusal := .next (s.lockoutRelease g)

/-! ### Thermal shutdown (R445, R446) -/

/-- The brake outputs of an axis go inactive at once. -/
def State.brakePinsOff (s : State) (n : AxisId) : State :=
  s.forAll allPins fun s p => s.modPin p fun x =>
    if x.func = 13 && x.axis? = some n then { x with active := false, sink := entryInv x.entry && !x.overloaded } else x

/-- The die of a group has reached 165 °C: every EN line low, the flags, and every enabled axis disabled with its brake output
inactive in the same boundary (R445). In a shutdown that stands already, only TEMP is new. -/
def State.thermalShutdown (s : State) (g : GroupId) (temp : BitVec 16) : State :=
  if (s.grp g).thermSd then s.modGroup g fun x => { x with temp := temp }
  else
    let s1 := s.modGroup g fun x => { x with temp := temp, thermSd := true, thermSticky := true, tlevel := 5 }
    let s2 := ((s1.groupLegsOff g).noteFault).shale 4 (Config.powerStageCode 25).toNat g.val (pageWord (4 + g.val) 2)
    s2.forAll (s2.liveAxes g) fun s n => (((s.turnOff n .thermal (temp.signExtend 32)).offNow n).setUnsure n).brakePinsOff n

/-- The TEMP that a frame brings for a group reaches 1,320: the shutdown stands after the other events of its step 3 (R445). -/
def State.thermalStep (s : State) (g : GroupId) : State :=
  if 1320 ≤ (s.grp g).temp.toInt then s.thermalShutdown g (s.grp g).temp else s

/-- THERMAL_SHUTDOWN (R445). -/
def execThermalShutdown (g : GroupId) (temp : BitVec 16) (s : State) : Host.Outcome State Fault Refusal :=
  .next (s.thermalShutdown g temp)

/-- THERMAL_SHUTDOWN_CLEAR: TEMP has stayed at or below 145 °C for 1 s on M7 (R446). -/
def execThermalShutdownClear (g : GroupId) (s : State) : Host.Outcome State Fault Refusal :=
  .next (s.modGroup g fun x => if x.thermSd && x.temp.toInt ≤ 1160 then { x with thermSd := false } else x)

/-- BASEPLATE_READING: tbase, with BP_ERR and 100 °C in its place outside −50 °C to +150 °C (R441). -/
def execBaseplateReading (value : BitVec 16) (s : State) : Host.Outcome State Fault Refusal :=
  let bad := value.toInt < -400 || 1200 < value.toInt
  .next { s with dev := { s.dev with tbase := if bad then 800 else value, bpErr := bad } }

/-! ### Group link (R17) -/

/-- GROUP_LINK_FAILURE. A repeated transfer has no effect; a sample lost twice is invalid in this frame; a configuration
write that failed three times turns the group off until CLEAR_FAULT. What runs on its axes then ends with DRIVE_FAULT, a
choice of this model (notes/assumptions/29.md). -/
def State.linkFailure (s : State) (g : GroupId) (what : LinkFailure) : State :=
  match what with
  | .repeatedOk => s
  | .sample c gap => s.modGroup g fun x => { x with linkLost := x.linkLost ++ [(c, gap)] }
  | .configWrite =>
    let s1 := (((s.modGroup g fun x => { x with link := true }).groupLegsOff g).noteFault).shale 4
      (Config.powerStageCode 24).toNat g.val (pageWord (4 + g.val) 2)
    s1.forAll (s1.liveAxes g) fun s n => s.turnOff n .driveFault (s.ax n).prot.faultWord

/-- GROUP_LINK_FAILURE (R17). -/
def execGroupLinkFailure (g : GroupId) (what : LinkFailure) (s : State) : Host.Outcome State Fault Refusal :=
  .next (s.linkFailure g what)

/-! ### Safe-off (R262 to R264) -/

/-- SAFE_OFF: a low level on SAFEA or SAFEB passes the filter. Every EN line goes low and every brake output goes inactive
at once, with no clocked element, and nothing is energised any more; step 3 of the next boundary does the rest, by the raw time `t`
(R262, R263). -/
def State.safeOff (s : State) (aLow bLow : Bool) (t : Nat) : State :=
  let s1 := s.forAll allGroups State.groupLegsOff
  let s2 := s1.forAll allAxes fun s n => (s.dropEnergise n).modDrv n fun d => { d with brake := false, brakeWait := false }
  let s3 := s2.forAll allPins fun s p => s.modPin p fun x =>
    if x.func = 13 then { x with active := false, sink := entryInv x.entry && !x.overloaded } else x
  State.waitStep3 { s3 with dev := { s3.dev with safeA := !aLow, safeB := !bLow, discNow := false
                                                 bothLow := s3.dev.bothLow || (s3.dev.safeDisc && aLow && bLow) } } t 0
    (.safe aLow bLow)

/-- SAFE_OFF (R262); an event with both inputs high is none. -/
def execSafeOff (aLow bLow : Bool) (s : State) (t : Nat := 0) : Host.Outcome State Fault Refusal :=
  .next (if aLow || bLow then s.safeOff aLow bLow t else s)

/-- Step 3 after a safe-off (R262): SAFE_ACT, its Shale entry, and every enabled axis is disabled with SAFE_OFF. -/
def State.safeStep (s : State) (a b : Bool) : State :=
  let w := bit a + 2 * bit b
  let s1 := { s with dev := { s.dev with safeAct := true } }.shale 7 0x4B 255 (BitVec.ofNat 24 w)
  s1.forAll (allGroups.flatMap s1.liveAxes) fun s n => (s.turnOff n .safeOff (BitVec.ofNat 32 w)).offNow n

/-- A safe-off waits for step 3. -/
def Step3.isSafe : Step3 → Bool
  | .safe _ _ => true
  | .supply _ _ => false
  | .trips _ => false
  | .tripAxis _ => false
  | .checkFail _ _ => false
  | .edge _ _ _ _ => false

/-- One event of step 3 (R256). -/
def State.faultStep (s : State) (e : Step3) : State :=
  match e with
  | .safe a b => s.safeStep a b
  | .supply g k => s.supplyStep g k
  | .trips g => s.classifyGroup g
  | .tripAxis n => s.classifyAxis n
  | .checkFail n m => s.checkFailed n m
  | .edge p l m nine => s.edgeStep p l m nine

/-- The events that waited for step 3, in their order (R61, R256); the trips of the frame are then done with. -/
def State.faultSteps (s : State) : State :=
  let s1 := ({ s with dev := { s.dev with step3 := [] } }).forAll s.dev.step3 fun s e => s.faultStep e.2
  { s1 with groups := s1.groups.map fun g => { g with trips := [] } }

/-- SAFE_ACT_CLEAR: both inputs have been high for 10 ms; after a discrepancy only once both had been low together
(R263, R264). -/
def execSafeActClear (s : State) : Host.Outcome State Fault Refusal :=
  .next { s with dev :=
    if s.dev.safeDisc && !s.dev.bothLow then { s.dev with safeA := true, safeB := true, discNow := false }
    else { s.dev with safeA := true, safeB := true, discNow := false, safeAct := s.dev.step3.any (fun e => e.2.isSafe), safeDisc := false, bothLow := false } }

/-- SAFE_DISC: one input has been low and the other high for more than 200 ms (R264); `aLow` tells which. Both having been low, one
of them has risen meanwhile. -/
def execSafeDisc (s : State) (aLow : Bool := true) : Host.Outcome State Fault Refusal :=
  .next (if s.dev.safeA && s.dev.safeB then s
    else State.gfaultSet { s with dev := { s.dev with safeA := !aLow, safeB := aLow, safeDisc := true, discNow := true, bothLow := false, safeAct := true } } 5)

end Sys2Proof.Machine
end

