-- ==== Sys2Proof/Machine/Frame.lean ====
section
/-! DEFINITION. The frame: the order of R59 at one boundary, with the effects that wait for a snapshot (02_master_time.md R37 to
R70; 03_motion_segments.md R85, R94 to R105; 04_axio_homing.md R119 to R122; 13_sideband.md R355 to R357). -/
namespace Sys2Proof.Machine
open Sys2Proof

/-- Frames pass while the module runs and its clock is present (R28, R59, R381). -/
def State.framing (s : State) : Bool := s.dev.stage = .running && !s.dev.gfault.getLsbD 0

/-- Some axis of the module is enabled. -/
def State.anyEnabled (s : State) : Bool := allAxes.any fun n => (s.ax n).drv.enabled

/-! ### Step 1: the boundary -/

/-- The ticks by which a follower lengthens or shortens the running frame (R65). -/
def State.slewNow (s : State) : Int :=
  if s.tb.roleEff = 2 && s.anyEnabled && 16 < |s.tb.slew| then sgn s.tb.slew else 0

/-- The frame number, the tick and what counts frames advance by one boundary (R58, R59). -/
def TimeBase.advance (t : TimeBase) (l : Nat) (adj : Int) : TimeBase :=
  { t with tick := ((t.tick : Int) + l + adj).toNat, frame := t.frame + 1, count := t.count + 1, slew := t.slew - adj
           sincePulse := min 1024 (t.sincePulse + 1), tsyncLow := false, pulseNow := t.pulseNext, pulseNext := false
           epoch := t.epoch.map fun e => { e with waited := e.waited + 1 } }

/-- A SYNC_EPOCH that has found no pulse boundary within 1,024 frames ends with TIMEOUT (R69). -/
def State.epochTimeout (s : State) : State :=
  match s.tb.epoch with
  | none => s
  | some e =>
    if 1024 < e.waited then
      ({ s with tb := { s.tb with epoch := none } }).complete e.ref .timeout 0 0xFF s.m7pos 0
    else s

/-- Settings of the time base written in the last frame come into force, a longer TSTILL with the standstill it no longer finds (R47); a
new role clears SYNC_LOCK and discards a pending
SYNC_EPOCH (R495, R497, R498). -/
def State.takeTime (s : State) : State :=
  let t := s.tb
  let still := fun (e : EdgeMaster) => { e with still := e.still && bits t.tbCfg 9 0 * 160000 ≤ t.tick / 2 - e.tLast }
  let t1 := { t with tbCfgEff := t.tbCfg, cprEff := t.cpr, tsepEff := t.tsep, roleEff := t.role, edge := t.edge.map still }
  if t.role = t.roleEff then { s with tb := t1 }
  else
    let s1 : State := { s with tb := { t1 with syncLock := false, lockRun := 0, slew := 0, sincePulse := 0, epoch := none } }
    match t.epoch with
    | none => s1
    | some e => s1.complete e.ref .rejectState 0 0xFF s.m7pos noField

/-- Settings of the groups written in the last frame come into force (R510). -/
def Group.takeSettings (g : Group) : Group :=
  { g with dtEff := g.dt, tblEff := g.tbl, octEff := g.oct, trwEff := g.trw, trnEff := g.trn }

/-- A position crosses or reaches a compare point PC + k·PCI on its way from `a` to `b` (R122). -/
def crosses (pc pci a b : Int) : Bool :=
  if pci = 0 then (a < pc ∧ pc ≤ b) ∨ (b ≤ pc ∧ pc < a)
  else
    let d := |pci|
    if a < b then (a - pc) / d < (b - pc) / d
    else if b < a then (pc - a) / d < (pc - b) / d
    else false

/-- A fault lamp's condition (R122). -/
def Axis.lamp (x : Axis) : Bool := x.prot.latched || x.prot.shareErr || x.mot.unsure

/-- A brake output whose PARAM is `par` ms: each pin waits its own PARAM after ENABLE, and all go inactive together (R121). -/
def Axis.brakeOut (x : Axis) (par : Nat) : Bool :=
  x.drv.brake || (x.drv.brakeWait && x.drv.energised && !x.drv.disabling && msTicks par ≤ x.drv.brakeT)

/-- An output pin at a boundary: what its function gave in the frame before, or two frames before for a position compare
(R112, R119, R120, R122). -/
def Pin.drivePin (p : Pin) (x : Axis) (l : Nat) : Pin :=
  let par := entryParam p.entry
  let q : Pin :=
    if p.func = 13 then { p with active := x.brakeOut par }
    else if p.func = 14 then
      let on := x.lamp && (par = 0 || p.blink / msTicks (10 * par) % 2 = 0)
      { p with active := on, blink := if x.lamp then p.blink + l else 0 }
    else if p.func = 15 then
      let el := x.mot.pos + x.mot.poff
      let hit := crosses x.cfg.pc x.cfg.pci (p.lastEl - x.mot.poff) x.mot.pos
      let pulse := if hit then par else p.pulse - 1
      { p with active := p.next, pulse := pulse, lastEl := el
               next := if par = 0 then x.cfg.pc ≤ x.mot.pos else 0 < pulse }
    else p
  { q with sink := q.demand && !q.overloaded }

/-- The output pins change at a boundary (R120). -/
def State.drivePins (s : State) : State :=
  s.forAll allPins fun s p =>
    match (s.pin p).axis? with
    | none => s
    | some n => if isOutput (s.pin p).func then s.modPin p fun x => x.drivePin (s.ax n) s.len else s

/-- A frame more in which EN of a leg is low, and in which its test current source is off (R208). -/
def Leg.restFrame (l : Leg) (len : Nat) (test : Bool) : Leg :=
  let l1 := { l with testTicks := if test then 0 else min (msTicks 1) (l.testTicks + len) }
  if l.en then l1 else { l1 with offTicks := min (msTicks 1) (l.offTicks + len) }

/-- The test current source of a leg may be on: while a DIAGNOSE runs in its group, or in the CHECK of its axis (R244, R252). -/
def State.testing (s : State) (m : LegId) : Bool :=
  (s.grp (groupOfLeg m)).diag.isSome || (s.ax (s.driver (axisOfLeg m))).prot.retry = .check

/-- At a boundary the module has itself written word `w` of the page of group `g`, and its parity with it: edge words and COMMIT where a
pair was transferred, and with HB_DIRECT where the group returned to Mica (R176, R194, R467, R507). -/
def State.moduleWrote (s0 s : State) (g : GroupId) (w : Nat) : Bool :=
  let moved := fun (m : Fin 16) =>
    let a := s0.leg (legAt g m)
    let b := s.leg (legAt g m)
    a.committed != b.committed || a.commitBit != b.commitBit
  let back := (s0.grp g).hostDriven && !(s.grp g).hostDriven
  if h : 0x20 ≤ w ∧ w < 0x40 then back || moved ⟨w % 16, by omega⟩
  else if w = 0x0B then back || (List.finRange 16).any moved
  else w = 0x0A && back

/-- Words that the module has written at a boundary hold their parity again (R467). -/
def State.healEdges (s0 s : State) : State :=
  { s with dev := { s.dev with parityBad := s.dev.parityBad.filter fun x =>
    if h : 4 ≤ x.1 ∧ x.1 < 16 then !s0.moduleWrote s ⟨x.1 - 4, by omega⟩ x.2 else true } }

/-- Edge words take effect, with the applied voltages and slots they mean; axes that were turned off go high-impedance
(R59 step 1, R121, R161, R176). -/
def State.boundary (s0 : State) (inp : FrameInputs) : State :=
  let s1 : State := { s0 with tb := s0.tb.advance s0.len s0.slewNow, dev := { s0.dev with addM := 0, addG := [], sramSeen := [] } }
  let s1 := s1.forAll allAxes fun s n => (s.disableBrake n).modDrv n fun d => { d with brakeT := if d.brakeWait then d.brakeT + s0.len else 0 }
  let s2 := s1.drivePins.takeTime.epochTimeout
  let s3 := s2.forAll allGroups fun s g => s.modGroup g fun x =>
    { x.takeSettings with temp := inp.temp[g.val], vm := inp.vm[g.val] }
  let s4 := State.healEdges s3 (s3.forAll allGroups fun s g => s.enterFrame s0.sl g)
  let s5 := s4.forAll (List.finRange 96) fun s c => s.applied (s0.grp (groupOf (axisOfCoil c))).vm.toNat c
  let s6 : State := s5.forAll (List.finRange 24) State.enterSlots
  let s7 := (s6.forAll (List.finRange 192) fun s m => s.modLeg m fun l => l.restFrame s0.len (s0.testing m)).forAll allAxes fun s n =>
    s.modObs n AxisObs.enterFrame
  s7.forAll allAxes fun s n => (s.offNow n).disableStep n

/-! ### Step 2: the snapshot -/

/-- A preset of a master takes effect at its boundary (R40, R501). -/
def TimeBase.presets (t : TimeBase) : TimeBase :=
  let f := t.frame.toNat
  let vp := fun (v : VirtMaster) (p : Option Int) =>
    match p with
    | none => v
    | some c => { v with vbase := c * 65536, fbase := f }
  { t with
    edge := Vector.ofFn fun (i : Fin 5) =>
      match t.preset[i.val] with
      | none => t.edge[i.val]
      | some c => { t.edge[i.val] with c := wrapS 48 c }.forget
    virt := Vector.ofFn fun (i : Fin 2) => vp t.virt[i.val] (t.preset[5 + i.val])
    preset := Vector.replicate 8 none
    index := if t.preset[0].isSome then none else t.index }

/-- What an axis takes over at a snapshot: its encoder count, m_prog, the descriptors written before it, and the output of
the frame before (R34, R49, R74, R107). -/
def Axis.atSnapshot (x : Axis) (m : Int) : Axis :=
  let a := x.mot
  { x with
    enc := { x.enc with snap := x.enc.count, loopPrev := x.enc.loop }
    drv := { x.drv with headNew := false, selPrev := x.drv.sel }
    mot := { a with mProgPrev := a.mProg, mProg := a.progress m
                    way := if a.out = a.outHist.headD a.out then a.way else sgn (a.out - a.outHist.headD a.out)
                    queue := a.queue.map fun g => { g with seen := true }
                    lastEnd := a.lastEnd.map fun e => { e with snaps := e.snaps + 1 }
                    outHist := (a.out :: a.outHist).take 4 } }

/-- The snapshot (R59 step 2). -/
def State.snapshot (s : State) : State :=
  let s1 : State := { s with tb := s.tb.presets }
  let s2 : State := { s1 with tb := { s1.tb with snap := s1.snapAll }, pins := s1.pins.map fun p => { p with snap := p.raw } }
  { s2 with axes := s2.axes.map fun (x : Axis) => x.atSnapshot s2.tb.snap[x.mot.master.val] }

/-! ### Step 3: the effects that wait for a snapshot -/

/-- The position of an axis is redefined as `p` (R142, R234, R319). -/
def AxisMotion.redefine (a : AxisMotion) (p : Int) : AxisMotion :=
  let add := p - a.pos
  { a with pos := p, out := a.out + add, outHist := a.outHist.map (· + add), poff := a.poff - add, eoff := a.eoff + add
           unsure := false }

/-- An axis takes a new master (R37, R49). -/
def State.bindNow (s : State) (n : AxisId) (m : MasterId) : State :=
  let p := s.tb.snap[m.val]
  s.modMot n fun a => { a with master := m, mProg := p, mProgPrev := p, lastEnd := a.lastEnd.map fun e => { e with e := none, blendAt := none } }

/-- The planning inputs of a segment with a new speed; the error is a rejection's WORD (R94, R324). -/
def SegKind.withSpeed (k : SegKind) (v : Int) : Except Nat SegKind :=
  match k with
  | .moveAbs t _ ah at' lj => .ok (.moveAbs t v ah at' lj)
  | .moveRel d _ ah at' lj => .ok (.moveRel d v ah at' lj)
  | .velocity vc ah at' lj => .ok (.velocity (if vc < 0 then -v else v) ah at' lj)
  | .dose t _ vd dl a => if v < vd then .error 16 else .ok (.dose t v vd dl a)
  | k => .ok k

/-- The planning inputs of a segment with new accelerations; 0 leaves one unchanged (R94, R324). -/
def SegKind.withAccel (k : SegKind) (acc dec : Int) : Except Nat SegKind :=
  let f := fun (x old : Int) => if x = 0 then old else x
  match k with
  | .moveAbs t v ah at' lj => .ok (.moveAbs t v (f acc ah) (f dec at') lj)
  | .moveRel d v ah at' lj => .ok (.moveRel d v (f acc ah) (f dec at') lj)
  | .velocity vc ah at' lj => .ok (.velocity vc (f acc ah) (f dec at') lj)
  | .dose t vb vd dl a => if dec ≠ 0 then .error 24 else .ok (.dose t vb vd dl (f acc a))
  | k => .ok k

/-- The plan of a re-based segment toward its unchanged target (R94). -/
def replan (k : SegKind) (p v : Int) (target : Option Int) : Plan :=
  match k with
  | .moveAbs t vmax ah at' lj => planMove p (target.getD t) v vmax ah at' lj
  | .moveRel d vmax ah at' lj => planMove p (target.getD (p + d)) v vmax ah at' lj
  | .velocity vc ah at' lj => planVelocity p v vc ah at' lj
  | .dose t vb vd dl a => planDose p v (target.getD (p + t) - p) vb vd dl a
  | k => planSeg k p v

/-- The running segment that SET_SPEED and SET_ACCEL may change (R95). -/
def AxisMotion.adjustable (a : AxisMotion) : Option Run :=
  match a.stop, a.held, a.runs with
  | none, none, [r] =>
    let tail := !r.unbounded && r.ms / 65536 + tailOffset r.phases ≤ a.mProg / 65536
    if r.seg.kind.takesOver && !tail && r.decided.isNone then some r else none
  | _, _, _ => none

/-- SET_SPEED or SET_ACCEL at its snapshot (R94, R95, R324). -/
def State.adjust (s : State) (n : AxisId) (f : SegKind → Except Nat SegKind) (act : Nat) : State :=
  let s := (s.reeval n).endDone n
  let a := (s.ax n).mot
  match a.adjustable with
  | none => s.actionAxis act ⟨n, .rejectState, noField, none⟩ 0 false
  | some r =>
    match f r.seg.kind with
    | .error w => s.actionAxis act ⟨n, .rejectParam, BitVec.ofNat 32 w, none⟩ 0 false
    | .ok k =>
      let mf := a.mProg / 65536 * 65536
      let (p, v) := r.eval mf s.m7
      let pl := replan k p v r.target
      if admitPlan k pl then
        let g := { r.seg with kind := k, flags := { r.seg.flags with accelClamped := r.seg.flags.accelClamped || pl.clamped } }
        let r' := { r with seg := g, ms := mf, ps := p, vs := v, phases := pl.phases, target := pl.target, unbounded := pl.unbounded }
        ((s.modMot n fun a => { a with runs := [r'] }).newHead n pl.phases).actionAxis act
          ⟨n, .ok, 0, none⟩ 0 pl.clamped
      else s.actionAxis act ⟨n, .rejectParam, noField, none⟩ 0 false

/-- DISABLE of one axis at its snapshot: a waiting ENABLE ends, what runs stops as by QUICKSTOP with the flush flag, and the
sequence of R121 follows (R255, R324, R325, R548). -/
def State.disableSnap (s : State) (n : AxisId) : State :=
  let s := (s.reeval n).endDone n
  let s := (if (s.ax n).drv.enabling then s.endEnable n .rejectState noField else s).endIdent n .rejectState noField
  let s1 := (s.modDrv n fun d => { d with disabling := true, brakeWait := d.brakeWait && d.brake }).modProt n fun p =>
    { p with retry := .none, tries := 0, partner := none }
  if (s1.ax n).mot.held.isSome then s1.dropAll n .stopped none
  else
    let held := match (s1.ax n).mot.runs with
      | [r] => match r.seg.kind with
        | .hold _ _ => 1
        | _ => 0
      | _ => 0
    ((s1.stopAxis n true none none none).flushQueue n .flushed).countDisable n held

/-- The quick stops of every STOP_ALL with a mark for this snapshot, `acts` (R98, R304, R306, R358): what ends of itself there has
ended before, each axis stops once, every command counts the axes that then move, and only a stopping axis takes the set-point of this
frame. -/
def State.stopAllNow (s : State) (acts : List Nat) : State :=
  let on := allAxes.filter fun n => (s.ax n).drv.enabled
  let s0 := s.forAll on fun s n => (s.reeval n).endDone n
  let moving := on.filter fun n => !(s0.ax n).mot.runs.isEmpty || (s0.ax n).mot.jog.isSome
  let counted := fun (a : Action) => if acts.contains a.id then { a with count := moving.length } else a
  let s1 : State := { s0 with q := { s0.q with actions := s0.q.actions.map counted } }
  let s2 := s1.forAll acts fun s act => s.forAll on fun s n => s.doStop n true true act
  let s3 := s2.forAll on fun s n => s.modDrv n fun d => { d with sameFrame := (s.ax n).mot.stop.isSome }
  s3.forAll (s3.q.batches.map (·.id)) State.closeBatch

/-- TAKE at its snapshot (R355). -/
def State.takeNow (s : State) (n : AxisId) : State :=
  let was := (s.ax n).prot.owner
  ((s.reeval n).modProt n fun p => { p with owner := .sideband, ownChg := p.ownChg || was = .localJog }).stopFlush n

/-- A custom table is installed between two frames (R330, R410). -/
def MicroTable.install (t : MicroTable) (entries : List Word) (faddr : Option Word) : MicroTable :=
  { t with custom := some entries, faddr := faddr, invalid := false, reloading := false, badEntries := [] }

/-- One effect that waited for the snapshot; reads latch at the end of the frame. -/
def State.snapOp (s : State) (o : SnapOp) : State :=
  match o with
  | .bind n m act => (s.bindNow n m).actionAxis act ⟨n, .ok, 0, none⟩ 0 false
  | .setPosition n p act => (s.modMot n fun a => a.redefine p).actionAxis act ⟨n, .ok, 0, none⟩ 0 false
  | .setSpeed n v act => s.adjust n (fun k => k.withSpeed v) act
  | .setAccel n acc dec act => s.adjust n (fun k => k.withAccel acc dec) act
  | .stop n quick flush act => s.doStop n quick flush act
  | .disable n _ => s.disableSnap n
  | .stopAll act => s.stopAllNow [act]
  | .closeBatch id => s.closeBatch id
  | .take n _ => s.takeNow n
  | .handBack n _ => if (s.ax n).mot.jog.isSome then s.stopAxis n false none none none else s
  | .installTable t es fa ref => (s.modTable t fun x => x.install es fa).complete ref .ok 0 0xFF s.m7pos 0
  | .energise n =>
    if !s.enAllowed n then s else if (s.ax n).drv.enabling then s.enableNow n else if (s.ax n).drv.enabled then s.energise n else s
  | .stallStop n => s.stallStop n
  | .readAxis _ _ _ => s
  | .readGroup _ _ _ => s

/-- A read-out that waits for the end of the frame (R329). -/
def SnapOp.isRead : SnapOp → Bool
  | .readAxis .. => true
  | .readGroup .. => true
  | .bind .. => false
  | .setPosition .. => false
  | .setSpeed .. => false
  | .setAccel .. => false
  | .stop .. => false
  | .disable .. => false
  | .stopAll .. => false
  | .closeBatch .. => false
  | .take .. => false
  | .handBack .. => false
  | .installTable .. => false
  | .energise .. => false
  | .stallStop .. => false

/-- The action of a STOP_ALL that waits for the snapshot. -/
def SnapOp.stopMark : SnapOp → Option Nat
  | .stopAll act => some act
  | _ => none

/-- One waiting effect, where `acts` are the STOP_ALLs that wait with it: all of them act on the same stop marks, with the first
(R358). -/
def State.snapEffect (acts : List Nat) (s : State) (o : SnapOp) : State :=
  match o.stopMark with
  | some act => if acts.head? = some act then s.stopAllNow acts else s
  | none => s.snapOp o

/-- Every waiting effect but the read-outs takes place, in the order in which they came (R37, R306). -/
def State.runSnapOps (s : State) : State :=
  let ops := s.q.snapOps
  ({ s with q := { s.q with snapOps := ops.filter SnapOp.isRead } }).forAll (ops.filter fun (o : SnapOp) => !o.isRead)
    (State.snapEffect (ops.filterMap SnapOp.stopMark))

/-- A parity fault of an axis block, or of a whole group, at the boundary after its detection (R414, R503). -/
def State.parityAxis (s : State) (n : AxisId) (code : Word) : State :=
  if (s.ax n).drv.enabled || (s.ax n).drv.enabling then (s.turnOff n .integrityLost code).offNow n else s

/-- The module enters SAFE_HOLD: every EN line low, READY 0 (R390); brakes of axes turned off so go inactive (R121). -/
def State.enterSafeHold (s : State) : State :=
  let s1 := s.forAll allGroups State.groupLegsOff
  let s2 := s1.forAll allAxes fun s n => (s.ownedAlert n).modDrv n fun d => { d with brake := false, brakeWait := false }
  { s2 with dev := { s2.dev with safeHold := true, ready := false } }

/-- The reaction to one mismatching word: of a group page by its scope (R414); of pages 0 to 3 its copy restores it, with GPAR_FIX and a
Shale entry, or the copy has failed too and SAFE_HOLD follows (R415). -/
def State.parityReact (s : State) (page word : Nat) (copyFailed : Bool) : State :=
  if h : 4 ≤ page ∧ page < 16 then
    let g : GroupId := ⟨page - 4, by omega⟩
    if word < 0x40 then
      let s1 := ((s.modGroup g fun x => { x with par := true }).noteFault).groupLegsOff g
      s1.forAll (groupAxes g) fun s n => s.parityAxis n 0x17
    else if hw : (word - 0x40) / 0x30 < 4 then
      let n := axisAt g ⟨(word - 0x40) / 0x30, hw⟩
      (s.modProt n fun p => { p with parity := true }).parityAxis n 0x16
    else s
  else if copyFailed then State.enterSafeHold { s with dev := { s.dev with gparFail := true } }
  else State.shale { s with dev := { s.dev with gparFix := true } } 6 0x21 255 (pageWord page word)

/-- Parity reactions that were due at this boundary (R414), and the axes whose table is invalid (R410). -/
def State.integrityStep (s : State) : State :=
  let s1 := ({ s with dev := { s.dev with parityPend := [] } }).forAll s.dev.parityPend fun s w => s.parityReact w.1 w.2.1 w.2.2
  s1.forAll allAxes fun s n =>
    if (s.ax n).drv.enabled && s.tables[(s.ax n).cfg.tsel].invalid then
      ((s.turnOff n .integrityLost 0x14).setUnsure n).offNow n
    else s

/-- A stop that holds no segment, a jog's, ends of itself (R134). -/
def State.endJogStop (s : State) (n : AxisId) : State :=
  let a := (s.ax n).mot
  if a.stop.isSome && a.runs.isEmpty then s.endDone n else s

/-- A side-band jog that waits for the rest of its axis starts, or is refused by a limit (R357). -/
def State.sbJogStart (s : State) (j : AxisId × Bool) : State :=
  let n := j.1
  let d : Int := if j.2 then 1 else -1
  let drop := fun (s : State) => { s with sb := { s.sb with jogWait := s.sb.jogWait.filter fun w => w.1 ≠ n } }
  if !(s.ax n).mot.atRest then s
  else if s.limitOn n d then (drop s).endActs n [.sbJog] .limit (s.limitWord n) 0
  else if s.jogReady n d then
    let s1 := (drop s).startJog n d
    ({ s1 with sb := { s1.sb with jogs := n :: s1.sb.jogs.filter (· ≠ n) } }).endActs n [.sbJog] .ok 0 0
  else s

/-- TAKE and HAND_BACK end at the rest of their axis (R355, R356). -/
def State.ownerEnds (s : State) (n : AxisId) : State :=
  if (s.ax n).mot.atRest then
    let s1 := if (s.waitingActs n [.handBack]).isEmpty then s else s.modProt n fun p => { p with owner := .host }
    s1.endActs n [.take, .handBack] .ok 0 0
  else s

/-- Step 3 of a frame for one axis, after the effects that waited (R59, R126, R128, R134). -/
def State.axisEvents (s : State) (n : AxisId) : State :=
  let s1 := (((s.endJogStop n).homeAdvance n).jogStep n).bidirLimit n
  s1.modMot n fun a => a.markTails s1.m7

/-- Entries after the first `k` stand in ascending order of AXIS; those of one axis keep the order in which they were decided
(R303). -/
def orderFrom (k : Nat) (l : List Completion) : List Completion :=
  let new := l.drop k
  if new.length < 2 then l
  else l.take k ++ (List.range 256).flatMap fun (a : Nat) => new.filter fun (c : Completion) => c.axis.toNat = a

/-- The entries that one step added to those of `before`, in the ring or in the staging buffer, stand in their order (R303, R420). -/
def State.ringOrder (s before : State) : State :=
  { s with q := { s.q with ring := orderFrom before.q.ring.length s.q.ring, staged := orderFrom before.q.staged.length s.q.staged } }

/-- Step 3 of a frame, after the effects that waited for its snapshot (R59). -/
def State.events (s : State) : State :=
  let s1 := s.faultSteps.forAll allGroups State.thermalStep
  let s2 := s1.integrityStep.forAll allAxes State.axisEvents
  let s3 := s2.forAll s2.sb.jogWait State.sbJogStart
  let s4 := s3.forAll allAxes State.ownerEnds
  { s4 with sb := { s4.sb with jogs := s4.sb.jogs.filter fun n => (s4.ax n).mot.jog.isSome } }

/-! ### Steps 5 to 7 -/

/-- Step 5: the governor, then every axis is evaluated, its amplitude selected and its set-points made (R59, R85, R440 to
R443); the loops of this frame use the set-points of the frame before (R156). -/
def State.evaluate (s : State) : State :=
  let s1 := s.forAll allGroups State.govGroup
  let s2 : State := { s1 with dev := { s1.dev with sumPg := (s1.groups.toList.map (·.pg)).sum } }
  (s2.forAll allAxes State.govAxis).forAll allAxes fun s n =>
    (s.modDrv n fun d => { d with iaUsed := d.ia, ibUsed := d.ib }).refresh n

/-- Step 6 for one axis (R151 to R169, R218 to R235, R328). -/
def State.loops (s0 : State) (s : State) (n : AxisId) : State :=
  let vm := (s0.grp (groupOf n)).vm.toNat
  (((s.loopAxis vm n).identFrame vm n).observe n).rcoilFrame n

/-- Step 6: samples of the frame that ended, calibration, loops and observers (R59); `s0` is the state before the boundary and
`s1` the state after its edge words took effect. -/
def State.regulate (s0 s1 : State) (inp : FrameInputs) (s : State) : State :=
  let a := s.forAll (List.finRange 24) fun s a => s.calibrate s0 inp a
  let a1 := a.forAll allAxes fun s n => s.sampleAxis s0 inp (edgesAround s0 s1 (groupOf n)) n
  let a2 := a1.forAll (List.finRange 24) State.noteRange
  let b := a2.forAll allGroups fun s g => s.stepGroup s0.frameNat g
  let c := b.forAll allAxes (State.loops s0)
  { c with groups := c.groups.map fun g => { g with linkLost := [] } }

/-- Step 7: every group places the edges of the next frame (R59, R189). -/
def State.placement (s s0 : State) : State := s.forAll allGroups fun s g => s.micaGroup (s0.grp g).vm.toNat g

/-- The read-outs of the frame (R329). -/
def State.readOut (s : State) (o : SnapOp) : State :=
  match o with
  | .readAxis n i ref =>
    let v := s.axisSet n
    (s.modProt n fun p => { p with latchSet := v }).complete ref .ok 0 (axByte n) (s.axMpos n) v[i.val]
  | .readGroup g i ref =>
    let l := s.groupSet g
    (s.modGroup g fun x => { x with latchSet := l }).complete ref .ok 0 0xFE s.m7pos (l.getD i 0)
  | _ => s

/-- Every read-out that waits is made. -/
def State.readOuts (s : State) : State :=
  (({ s with q := { s.q with snapOps := [] } }).forAll s.q.snapOps State.readOut).ringOrder s

/-- One whole frame: the completions of each step enter in their order (R59, R303). -/
def State.frame (s0 : State) (inp : FrameInputs) : State :=
  let s1 := s0.boundary inp
  let s2 := s1.snapshot.runSnapOps.events.ringOrder s1
  let s3 := s2.evaluate
  (((((State.regulate s0 s1 inp s3).ringOrder s2)).placement s0).readOuts).noteFault

end Sys2Proof.Machine
end

