-- ==== Sys2Proof/Machine/Blocks.lean ====
section
/-! DEFINITION. Resets of one block: the condition under which each of BLK_RST's blocks is idle, what its reset does, and how it
is refused (15_reset_lifecycle.md R396 to R399; 12_opcodes.md R338; 19_registers_device.md R478, R479). -/
namespace Sys2Proof.Machine
open Sys2Proof

/-- Whether a BLK_RST bit names a block (R398). -/
def blockBit (b : Nat) : Bool := b < 12 || (16 ≤ b && b < 20)

/-- The reset of a block runs: its BLK_RST bit reads 1 (R398). -/
def State.blockRunning (s : State) (b : Nat) : Bool :=
  if h : b < 12 then (s.grp ⟨b, h⟩).resetting else s.mp.blkRst.getLsbD (b - 16)

/-- BLK_RST as it reads (R478). -/
def State.blkRst (s : State) : Word :=
  fields [(0, maskOf (allGroups.map fun g => (s.grp g).resetting)), (16, s.mp.blkRst.toNat)]

/-- The table that a LOAD_TABLE waits to install. -/
def SnapOp.table? : SnapOp → Option (Fin 4)
  | .installTable t _ _ _ => some t
  | _ => none

/-- The memory port is idle: no operation, no stream, and no LOAD_TABLE that has not ended (R398). -/
def State.portIdle (s : State) : Bool :=
  s.mp.jobs.isEmpty && !s.mp.staging && s.mp.stream.isNone && s.mp.switch.isNone && (s.tables.toList.all fun t => !t.reloading)
    && s.q.snapOps.all fun (o : SnapOp) => o.table?.isNone

/-- Why a block refuses its reset, none when it is idle (R398, R399); `own` when the request came through the side-band. -/
def State.blockBusy (s : State) (b : Nat) (own : Bool) : Option Nat :=
  if s.dev.safeHold then some 4
  else if s.blockRunning b then some 2
  else if h : b < 12 then
    let g : GroupId := ⟨b, h⟩
    if (groupAxes g).any fun n => (s.ax n).drv.enabled || (s.ax n).drv.enabling then some 1
    else if (s.grp g).diag.isSome then some 2
    else none
  else if b = 16 then (if s.portIdle then none else some 2)
  else if b = 19 then (if own || s.sb.result = 0x80 then some 3 else none)
  else if s.anyEnabled then some 1
  else none

/-! ### What each reset clears (R396, R398) -/

/-- A group after its reset: the values of its page, with its lock-outs as they stand and the code table of Quartz (R396,
R509). -/
def Group.reset (g : Group) : Group :=
  { lockout := g.lockout, supplyHold := g.supplyHold, faults := g.lockout.setWidth 8, taps := g.taps, tapsNext := g.tapsNext
    fineLost := g.fineLost, fineGood := g.fineGood, lastS := g.lastS, pf := g.pf, pg := g.pg, tg := g.tg, resetting := true }

/-- A leg after its group's reset: edge words, carry and EN cleared, its calibration kept (R396). -/
def Leg.reset (l : Leg) : Leg :=
  { os := l.os, gs := l.gs, osTarget := l.osTarget, gsTarget := l.gsTarget, zhiz := l.zhiz, zring := l.zring
    offTicks := if l.en then 0 else l.offTicks, testTicks := l.testTicks }

/-- An axis after its group's reset: bound to M7, with its owner and the levels of its routed encoder pins kept (R396). -/
def Axis.reset (x : Axis) (m7 : Int) : Axis := 
  { mot := { mProg := m7, mProgPrev := m7 }, enc := { a := x.enc.a, b := x.enc.b }, prot := { owner := x.prot.owner } }

/-- The reset of group `g` (R396): its queued segments end FLUSHED, and its units take their reset values. -/
def State.resetGroup (s : State) (g : GroupId) : State :=
  let m7 := s.m7
  let s1 := s.forAll (groupAxes g) fun s n => (s.dropAll n .flushed none).modAxis n fun x => x.reset m7
  let s2 := s1.forAll ((List.finRange 16).map (legAt g)) fun s m => s.modLeg m Leg.reset
  let s3 := s2.forAll ((List.finRange 8).map (coilAt g)) fun s c => s.modCoil c fun _ => {}
  let s4 := s3.forAll (List.finRange 24) fun s a =>
    if groupOfAdc a = g then s.modAdc a fun x => { x with calForced := false, calStarved := false, calRange := false, gsRange := false }
    else s
  (s4.modGroup g Group.reset).noteFault |> fun s5 =>
    { s5 with dev := { s5.dev with parityBad := s5.dev.parityBad.filter fun w => w.1 ≠ 4 + g.val
                                   parityPend := s5.dev.parityPend.filter fun w => w.1 ≠ 4 + g.val } }

/-- A leg's sense offset and gain forget what was measured for them (R398). -/
def Leg.forgetTerms (l : Leg) : Leg := { l with osTarget := none, gsTarget := none, zhiz := none, zring := [], offTicks := 0, testTicks := 0 }

/-- A group's delay line forgets what was measured for it, with FINE_LOST clear (R398, R499). -/
def Group.forgetTaps (g : Group) : Group := { g with tapsNext := none, fineLost := false, fineGood := 0, lastS := 0 }

/-- The reset of Quartz: terms reload their trims, rings and counters clear (R398). -/
def State.resetQuartz (s : State) : State :=
  State.loadTrims { s with legs := s.legs.map Leg.forgetTerms, adcs := Vector.replicate 24 {}, groups := s.groups.map Group.forgetTaps }

/-- The reset of the frame sync logic: standalone, SYNC_LOCK clear, the frame counter kept; a pending SYNC_EPOCH completes as
at a change of role (R398, R497). -/
def State.resetSync (s : State) : State :=
  let t := s.tb
  let s1 : State := { s with tb := { t with
    role := 0, roleEff := 0, trim := 0, slew := 0, pherr := 0, lockRun := 0, sincePulse := 0, syncLock := false, tsyncLow := false
    pulseNow := false, pulseNext := false, epoch := none } }
  match t.epoch with
  | none => s1
  | some e => s1.complete e.ref .rejectState 0 0xFF s.m7pos noField

/-- The reset of the side-band port: latched causes cleared (R398); SB_CFG resets only at VSB power-on (R490). -/
def State.resetSideBand (s : State) : State :=
  { s with sb := { s.sb with causes := 0, announced := 0, shadow := [], holding := [], unlocked := false, regErr := 0
                             lastCmd := 0, result := 0, dataOut := [] } }

/-- The reset of the memory port: until discovery has run again no device is there, and so the banks lie on absent ones (R364, R366,
R398, R491). -/
def State.resetPort (s : State) : State :=
  { s with mp := { s.mp with flErr := false, dev0 := false, dev1 := false, cfgErr := true, lines := [], cont0 := false, cont1 := false
                             running := none } }

/-- The reset of a block starts: its bit reads 1 (R398). -/
def State.startBlock (s : State) (b : Nat) : State :=
  if h : b < 12 then s.resetGroup ⟨b, h⟩
  else
    let s1 := if b = 16 then s.resetPort else if b = 17 then s.resetQuartz else if b = 18 then s.resetSync else s.resetSideBand
    { s1 with mp := { s1.mp with blkRst := s1.mp.blkRst ||| BitVec.ofNat 4 (2 ^ (b - 16)) } }

/-- One block is asked for its reset: it starts, or BLK_RST_REFUSED records why not (R398, R399). -/
def State.requestBlock (s : State) (b : Nat) (own : Bool) : State :=
  match s.blockBusy b own with
  | none => s.startBlock b
  | some r => { s with dev := { s.dev with refReason := BitVec.ofNat 8 r, refBit := BitVec.ofNat 5 b } }

/-- A word written to BLK_RST: every block it names, in ascending bit order (R398, R479). -/
def State.writeBlkRst (s : State) (value : Word) (own : Bool) : State :=
  s.forAll ((List.range 20).filter fun b => blockBit b && bitOf value b) fun s b => s.requestBlock b own

/-- A block is again in operation; a BLOCK_RESET of it completes OK (R338, R398). -/
def State.blockEnd (s : State) (b : Fin 20) : State :=
  let s1 : State := if h : b.val < 12 then s.modGroup ⟨b.val, h⟩ fun x => { x with resetting := false }
    else if b.val < 16 then s
    else { s with mp := { s.mp with blkRst := s.mp.blkRst &&& ~~~ BitVec.ofNat 4 (2 ^ (b.val - 16)) } }
  let s2 : State := { s1 with dev := { s1.dev with blkCmds := s.dev.blkCmds.filter fun c => c.2 ≠ b.val } }
  s2.forAll (s.dev.blkCmds.filter fun c => c.2 = b.val) fun s c => s.complete c.1 .ok 0 0xFF s.m7pos 0

end Sys2Proof.Machine
end

