-- ==== Sys2Proof/Machine/Crypto.lean ====
section
/-! DEFINITION. The published codes and ciphers that the spec names: CRC-16/CCITT-FALSE (11_queues_packets.md R291), CRC-8/AUTOSAR
(16_integrity.md R405), CRC-32/ISO-HDLC, SHA-256, ECDSA on P-256 (14_memory_port.md R369 to R372) and AES-128 (R375). The spec
names the last three by their standards; their arithmetic is taken from there (PRESUMED, notes/assumptions/30.md). -/
namespace Sys2Proof.Machine
open Sys2Proof

/-! ### Cyclic redundancy checks -/

/-- One bit of a left-shifting CRC of `k` bits. -/
def crcShift {k : Nat} (poly c : BitVec k) : BitVec k := if c.msb then (c <<< 1) ^^^ poly else c <<< 1

/-- `n` applications of a function. -/
def times {α : Type} (f : α → α) : Nat → α → α
  | 0, x => x
  | n + 1, x => times f n (f x)

/-- CRC-16/CCITT-FALSE over bytes (R291). -/
def crc16 (l : List Byte) : BitVec 16 :=
  l.foldl (fun (c : BitVec 16) (b : Byte) => times (crcShift 0x1021) 8 (c ^^^ (b.setWidth 16 <<< 8))) 0xFFFF

/-- CRC-8/AUTOSAR over bytes (R405). -/
def crc8 (l : List Byte) : Byte := l.foldl (fun c b => times (crcShift 0x2F) 8 (c ^^^ b)) 0xFF ^^^ 0xFF

/-- The check of a 64-bit word of the SRAM at its index: over its eight bytes and the three of the index, least significant first
(R405). -/
def sramCheck (w : BitVec 64) (index : Nat) : Byte := crc8 (leBytes 8 w.toNat ++ leBytes 3 index)

/-- SMBus packet error code over bytes: CRC-8 with polynomial 0x07 and initial value 0 (R340). -/
def crc8Smbus (l : List Byte) : Byte := l.foldl (fun c b => times (crcShift 0x07) 8 (c ^^^ b)) 0

/-- One bit of a right-shifting CRC-32. -/
def crc32Shift (c : Word) : Word := if c.getLsbD 0 then (c >>> 1) ^^^ 0xEDB88320 else c >>> 1

/-- CRC-32/ISO-HDLC over bytes (R372). -/
def crc32 (l : List Byte) : Word := l.foldl (fun c b => times crc32Shift 8 (c ^^^ b.setWidth 32)) 0xFFFFFFFF ^^^ 0xFFFFFFFF

/-! ### SHA-256 -/

/-- A number below 361 is prime: no smaller number up to 18 divides it. -/
def smallPrime (n : Nat) : Bool := 2 ≤ n && (List.range 17).all fun d => n ≤ d + 2 || n % (d + 2) ≠ 0

/-- The largest `x` below 2^36 with `x ^ k ≤ n`, bit by bit from the top. -/
def rootDown (k n : Nat) : Nat := ((List.range 36).map (35 - ·)).foldl (fun r i => if (r + 2 ^ i) ^ k ≤ n then r + 2 ^ i else r) 0

/-- The first 32 bits of the fractional part of the `k`-th root of a number: so the standard makes every constant of SHA-256. -/
def rootBits (k n : Nat) : Word := BitVec.ofNat 32 (rootDown k (n * 2 ^ (32 * k)))

/-- The 64 primes from 2 to 311. -/
def shaPrimes : List Nat := (List.range 312).filter smallPrime

/-- Initial hash words: of the square roots of the first eight primes. -/
def shaStart : List Word := (shaPrimes.take 8).map (rootBits 2)

/-- Round constants: of the cube roots of the 64 primes. -/
def shaConstants : List Word := shaPrimes.map (rootBits 3)

/-- The word of four bytes, most significant first. -/
def beWord (l : List Byte) : Word := l.foldl (fun w b => (w <<< 8) ||| b.setWidth 32) 0

/-- The four bytes of a word, most significant first. -/
def beBytes (w : Word) : List Byte := (wordBytes w).reverse

/-- A list in pieces of `n` elements; `fuel` bounds their number. -/
def pieces {α : Type} (n : Nat) : Nat → List α → List (List α)
  | 0, _ => []
  | fuel + 1, l => if l.isEmpty then [] else l.take n :: pieces n fuel (l.drop n)

/-- The padded message. -/
def shaPad (l : List Byte) : List Byte :=
  let z := (119 - l.length % 64) % 64
  l ++ [0x80] ++ List.replicate z 0 ++ (leBytes 8 (8 * l.length)).reverse

/-- The next word of the message schedule, newest first. -/
def shaNext (w : List Word) : Word :=
  let a := w.getD 1 0
  let b := w.getD 14 0
  let s0 := b.rotateRight 7 ^^^ b.rotateRight 18 ^^^ (b >>> 3)
  let s1 := a.rotateRight 17 ^^^ a.rotateRight 19 ^^^ (a >>> 10)
  w.getD 15 0 + s0 + w.getD 6 0 + s1

/-- The eight working words. -/
structure ShaRegs where
  a : Word
  b : Word
  c : Word
  d : Word
  e : Word
  f : Word
  g : Word
  h : Word

/-- One round. -/
def ShaRegs.round (r : ShaRegs) (k w : Word) : ShaRegs :=
  let s1 := r.e.rotateRight 6 ^^^ r.e.rotateRight 11 ^^^ r.e.rotateRight 25
  let ch := (r.e &&& r.f) ^^^ (~~~ r.e &&& r.g)
  let t1 := r.h + s1 + ch + k + w
  let s0 := r.a.rotateRight 2 ^^^ r.a.rotateRight 13 ^^^ r.a.rotateRight 22
  let maj := (r.a &&& r.b) ^^^ (r.a &&& r.c) ^^^ (r.b &&& r.c)
  ⟨t1 + (s0 + maj), r.a, r.b, r.c, r.d + t1, r.e, r.f, r.g⟩

/-- One block of 64 bytes, with the round constants `ks`. -/
def shaBlock (ks h : List Word) (blk : List Byte) : List Word :=
  let w0 := ((pieces 4 16 blk).map beWord).reverse
  let w := (times (fun w => shaNext w :: w) 48 w0).reverse
  let r0 : ShaRegs := ⟨h.getD 0 0, h.getD 1 0, h.getD 2 0, h.getD 3 0, h.getD 4 0, h.getD 5 0, h.getD 6 0, h.getD 7 0⟩
  let r := (ks.zip w).foldl (fun r kw => r.round kw.1 kw.2) r0
  h.zipWith (· + ·) [r.a, r.b, r.c, r.d, r.e, r.f, r.g, r.h]

/-- SHA-256, in its output order. -/
def sha256 (l : List Byte) : List Byte :=
  let m := shaPad l
  ((pieces 64 m.length m).foldl (shaBlock shaConstants) shaStart).flatMap beBytes

/-! ### AES-128, encryption of one block -/

/-- Multiplication by x in the field of AES. -/
def aesX (b : Byte) : Byte := if b.msb then (b <<< 1) ^^^ 0x1B else b <<< 1

/-- Multiplication in the field of AES. -/
def aesMul (a b : Byte) : Byte :=
  ((List.range 8).foldl (fun (r : Byte × Byte) i => (if b.getLsbD i then r.1 ^^^ r.2 else r.1, aesX r.2)) (0, a)).1

/-- The inverse in the field of AES, as the power 254. -/
def aesInv (a : Byte) : Byte :=
  let sq := fun x => aesMul x x
  let x2 := sq a
  let x4 := sq x2
  let x8 := sq x4
  let x16 := sq x8
  let x32 := sq x16
  let x64 := sq x32
  let x128 := sq x64
  aesMul x128 (aesMul x64 (aesMul x32 (aesMul x16 (aesMul x8 (aesMul x4 x2)))))

/-- The substitution of a byte. -/
def aesSub (a : Byte) : Byte :=
  let b := aesInv a
  b ^^^ b.rotateLeft 1 ^^^ b.rotateLeft 2 ^^^ b.rotateLeft 3 ^^^ b.rotateLeft 4 ^^^ 0x63

/-- The next round key from one of 16 bytes. -/
def aesNextKey (k : List Byte) (rc : Byte) : List Byte :=
  let c := fun i => (k.drop (4 * i)).take 4
  let t := ((c 3).drop 1 ++ (c 3).take 1).map aesSub
  let w0 := (c 0).zipWith (· ^^^ ·) (t.zipWith (· ^^^ ·) [rc, 0, 0, 0])
  let w1 := (c 1).zipWith (· ^^^ ·) w0
  let w2 := (c 2).zipWith (· ^^^ ·) w1
  w0 ++ w1 ++ w2 ++ (c 3).zipWith (· ^^^ ·) w2

/-- ShiftRows on a block held column by column. -/
def aesShift (s : List Byte) : List Byte := (List.range 16).map fun i => byteAt s ((i + 4 * (i % 4)) % 16)

/-- MixColumns of one column. -/
def aesMix (c : List Byte) : List Byte :=
  (List.range 4).map fun i =>
    aesX (byteAt c i) ^^^ (aesX (byteAt c ((i + 1) % 4)) ^^^ byteAt c ((i + 1) % 4)) ^^^ byteAt c ((i + 2) % 4) ^^^ byteAt c ((i + 3) % 4)

/-- AES-128 of one block of 16 bytes. -/
def aes128 (key blk : List Byte) : List Byte :=
  let rcs : List Byte := [0x01, 0x02, 0x04, 0x08, 0x10, 0x20, 0x40, 0x80, 0x1B]
  let s0 := blk.zipWith (· ^^^ ·) key
  let r := rcs.foldl (fun (r : List Byte × List Byte) rc =>
    let k := aesNextKey r.1 rc
    let s := (pieces 4 4 (aesShift (r.2.map aesSub))).flatMap aesMix
    (k, s.zipWith (· ^^^ ·) k)) (key, s0)
  (aesShift (r.2.map aesSub)).zipWith (· ^^^ ·) (aesNextKey r.1 0x36)

/-! ### ECDSA on P-256 -/

/-- The prime of the field. -/
def p256 : Nat := 0xffffffff00000001000000000000000000000000ffffffffffffffffffffffff
/-- The order of the base point. -/
def n256 : Nat := 0xffffffff00000000ffffffffffffffffbce6faada7179e84f3b9cac2fc632551
/-- The coefficient b. -/
def b256 : Nat := 0x5ac635d8aa3a93e7b3ebbd55769886bc651d06b0cc53b0f63bce3c3e27d2604b
/-- The base point. -/
def g256 : Nat × Nat :=
  (0x6b17d1f2e12c4247f8bce6e563a440f277037d812deb33a0f4a13945d898c296,
   0x4fe342e2fe1a7f9b8ee7eb4a7c0f9e162bce33576b315ececbb6406837bf51f5)

/-- Power modulo `m`, over `k` bits of the exponent. -/
def powMod (m : Nat) : Nat → Nat → Nat → Nat
  | 0, _, _ => 1 % m
  | k + 1, b, e =>
    let r := powMod m k (b * b % m) (e / 2)
    if e % 2 = 1 then r * b % m else r

/-- The inverse modulo a prime. -/
def invMod (m a : Nat) : Nat := powMod m 256 (a % m) (m - 2)

/-- The sum of two points; none is the point at infinity. -/
def ecAdd (a b : Option (Nat × Nat)) : Option (Nat × Nat) :=
  match a, b with
  | none, q => q
  | q, none => q
  | some (x1, y1), some (x2, y2) =>
    if x1 = x2 ∧ (y1 + y2) % p256 = 0 then none
    else
      let l := if x1 = x2 then (3 * x1 * x1 + (p256 - 3)) * invMod p256 (2 * y1) % p256
        else (y2 + (p256 - y1)) * invMod p256 (x2 + (p256 - x1)) % p256
      let x3 := (l * l + (p256 - x1) + (p256 - x2)) % p256
      some (x3, (l * (x1 + (p256 - x3)) + (p256 - y1)) % p256)

/-- A multiple of a point, over `k` bits. -/
def ecMul : Nat → Nat → Option (Nat × Nat) → Option (Nat × Nat)
  | 0, _, _ => none
  | k + 1, e, q =>
    let r := ecMul k (e / 2) (ecAdd q q)
    if e % 2 = 1 then ecAdd r q else r

/-- A public key lies on the curve. -/
def onCurve (q : Nat × Nat) : Bool :=
  q.1 < p256 && q.2 < p256 && q.2 * q.2 % p256 = (q.1 * q.1 * q.1 + (p256 - 3) * q.1 + b256) % p256

/-- The signature (r, s) of a message verifies against a public key. -/
def ecdsaVerify (q : Nat × Nat) (msg : List Byte) (r s : Nat) : Bool :=
  let z := leNat (sha256 msg).reverse
  if onCurve q && 0 < r && r < n256 && 0 < s && s < n256 then
    let w := invMod n256 s
    match ecAdd (ecMul 256 (z * w % n256) (some g256)) (ecMul 256 (r * w % n256) (some q)) with
    | some (x, _) => x % n256 = r
    | none => false
  else false

end Sys2Proof.Machine
end

