-- ==== Sys2Proof/Machine/Options.lean ====
section
/-! DEFINITION. The option record and its fields (15_reset_lifecycle.md R386 to R389), and the reading of the Shale log
(16_integrity.md R424 to R426). -/
namespace Sys2Proof.Machine
open Sys2Proof

/-! ### The option record (R386) -/

/-- An option record of 64 words. -/
abbrev OptRecord := Vector Word 64

/-- Byte `i` of a record. -/
def optByte (r : OptRecord) (i : Fin 256) : Byte := (r[i.val / 4] >>> (8 * (i.val % 4))).setWidth 8

/-- The bytes of a record, 0 to 255. -/
def optBytes (r : OptRecord) : List Byte := r.toList.flatMap wordBytes

/-- MAGIC and FORMAT, without which a copy fails (R387). -/
def optHeader (r : OptRecord) : Bool := r[0] = 0x4F505431 && r[1].setWidth 16 = (1 : BitVec 16)

/-- A word of a record with each of its fields out of range replaced by its default (R386, R387). -/
def fixOption (i : Nat) (w : Word) : Word :=
  let b := fun (k : Nat) => bits w (8 * k + 7) (8 * k)
  match i with
  | 0 => w
  | 1 => w &&& 0xFFFF
  | 2 => fields [(0, if b 0 ≤ 63 then b 0 else 0), (8, if b 1 ≤ 3 then b 1 else 0), (16, if 0x08 ≤ b 2 ∧ b 2 ≤ 0x77 then b 2 else 0x50),
      (24, if b 3 = 1 ∨ b 3 = 2 ∨ b 3 = 4 then b 3 else 4)]
  | 3 => fields [(0, if b 0 ≤ 3 then b 0 else 1), (8, if b 1 ≤ 1 then b 1 else 0)]
  | 4 => if bits w 15 0 = 0 then w else 0
  | 5 => if bits w 15 0 = 0 then w else 0x00040000
  | 6 => if bits w 11 0 = 0 then w else 0
  | 7 => if w.toNat % 4096 = 0 ∧ w.toNat ≤ 0x1000000 then w else 0
  | 8 => w
  | 9 => w
  | _ => 0

/-- The record that an options load applies (R387). -/
def fixOptions (r : OptRecord) : OptRecord := Vector.ofFn fun (i : Fin 64) => fixOption i.val r[i.val]

/-- Every field of a record is in its range (R389). -/
def optionsOk (r : OptRecord) : Bool := optHeader r && fixOptions r = r

/-- The byte of an option in force. -/
def State.option (s : State) (i : Fin 256) : Byte := optByte s.dev.opts i

/-- A record with another boot bank (R389, R422, R361). -/
def withBootBank (r : OptRecord) (bankB : Bool) : OptRecord :=
  r.set 3 ((r[3] &&& 0xFFFF00FF) ||| (if bankB then 0x100 else 0))

/-- Writing a record into NVM begins: copy B, then copy A; its first pulse waits for the write margin (R384, R389). -/
def State.writeOptions (s : State) (r : OptRecord) : State :=
  { s with dev := { s.dev with optBusy := true, optWrite := some r }, nvm := { s.nvm with pulse := s.nvm.pulse || s.marginOk } }

/-! ### The Shale log (R424, R426) -/

/-- Bytes 0 to 14 of an entry. -/
def ShaleEntry.body (e : ShaleEntry) : List Byte :=
  [e.cls, e.code] ++ leBytes 2 e.seq.toNat ++ leBytes 3 e.poh.toNat ++ [e.src] ++ leBytes 4 e.frame.toNat ++ leBytes 3 e.data.toNat

/-- The 16 bytes of an entry, its CRC last. -/
def ShaleEntry.bytes (e : ShaleEntry) : List Byte := e.body ++ [crc8 e.body]

/-- The entries that pass their check, newest first: failing ones are skipped in the count (R426). -/
def State.shaleValid (s : State) : List ShaleEntry := s.nvm.shale.filter fun (e : ShaleEntry) => !e.broken

/-- COUNT (R484). -/
def State.shaleCount (s : State) : Nat := s.shaleValid.length

/-- The four words of the entry of an index; an index at or beyond COUNT gives zeros (R484). -/
def State.shaleWords (s : State) (i : Nat) : Vector Word 4 :=
  match s.shaleValid[i]? with
  | none => Vector.replicate 4 0
  | some e => Vector.ofFn fun (k : Fin 4) => wordAt e.bytes (4 * k.val)

end Sys2Proof.Machine
end

