-- ==== Sys2Proof/Machine/Registers.lean ====
section
/-! DEFINITION. Registers: what each word reads, what a write of it does, and the access rules of both ports
(10_host_port.md R274 to R281; 16_integrity.md R414 to R417; 19_registers_device.md; 20_registers_group.md). -/
namespace Sys2Proof.Machine
open Sys2Proof

/-! ### Reading -/

/-- KEY_UNLOCK holds for the port (R416, R475). -/
def State.unlockedBy (s : State) (p : Port) : Bool :=
  match p with
  | .host => s.hp.unlocked
  | .sideband => s.sb.unlocked

/-- Page 0 (R470 to R476). -/
def State.readPage0 (s : State) (p : Port) (w : Nat) : Word :=
  match w with
  | 0x00 => 0x00004896
  | 0x01 => s.idStep
  | 0x02 => BitVec.ofNat 32 ((s.option 8).toNat % 64)
  | 0x03 => s.gstat
  | 0x04 => s.dev.gfault.setWidth 32
  | 0x05 => fields [(16, bit (s.unlockedBy p))]
  | 0x08 => s.dev.axioOvl[0]
  | 0x09 => s.dev.axioOvl[1]
  | 0x0A => s.dev.axioOvl[2]
  | 0x0B => s.dev.swChat[0]
  | 0x0C => s.dev.swChat[1]
  | 0x0D => s.dev.swChat[2]
  | _ => 0

/-- The number of the lowest bit set; 0 where none is (R379). -/
def lowestBit (x : BitVec 7) : Nat := ((List.range 7).find? fun i => x.getLsbD i).getD 0

/-- RST_CAUSE (R477). -/
def State.rstCause (s : State) : Word :=
  fields [(0, s.dev.rstSrc.toNat), (8, lowestBit s.dev.rstSrc), (16, s.dev.restarts.toNat)]

/-- OPT_STAT (R480). -/
def State.optStat (s : State) : Word :=
  fields [(0, bit s.dev.aBad), (1, bit s.dev.fieldDef), (2, bit s.dev.defaults), (3, bit s.dev.copyB), (4, bit s.dev.optBusy),
    (5, bit s.dev.wrFail), (8, bit s.nvm.devKey.isSome), (9, bit s.nvm.fwKey.isSome)]

/-- INTEG_STAT, word 0 (R483). -/
def State.integStat (s : State) : Word :=
  fields [(0, s.dev.sramErr.toNat), (16, maskOf (s.tables.toList.map (·.invalid))), (20, bit s.dev.tagLost), (21, bit s.dev.gparFix),
    (22, bit s.dev.gparFail), (23, bit s.dev.suspended)]

/-- Page 1 (R477 to R485). -/
def State.readPage1 (s : State) (w : Nat) : Word :=
  match w with
  | 0x00 => s.rstCause
  | 0x01 => s.blkRst
  | 0x02 => fields [(0, s.dev.refReason.toNat), (8, s.dev.refBit.toNat)]
  | 0x03 => s.optStat
  | 0x05 => BitVec.ofNat 32 (lcCode s.nvm.lc)
  | 0x06 => s.integStat
  | 0x07 => fields [(0, s.dev.parWord.toNat), (8, s.dev.parPage.toNat), (12, bit s.dev.parValid)]
  | 0x08 => fields [(0, s.dev.shaleIdx.toNat), (16, s.shaleCount)]
  | 0x09 => s.dev.shaleD[0]
  | 0x0A => s.dev.shaleD[1]
  | 0x0B => s.dev.shaleD[2]
  | 0x0C => s.dev.shaleD[3]
  | w => if h : 0x40 ≤ w ∧ w < 0x80 then s.dev.staging[w - 0x40] else 0

/-- Slots that packets of a queue occupy until their command starts, and packets not yet taken up (R288, R492). -/
def State.queueLevel (s : State) (n : QueueId) : Nat × Nat :=
  let l := s.q.packets.filter fun (p : Packet) => p.queue = n
  ((l.map Packet.slots).sum, (l.filter fun (p : Packet) => p.core.isNone).length)

/-- MP_CFG (R491). -/
def State.mpCfg (s : State) : Word :=
  let enc := s.dev.opts[7] ≠ 0
  fields [(0, (s.option 11).toNat % 8), (4, (s.option 12).toNat % 4), (8, bit s.mp.dev0), (9, bit s.mp.dev1), (10, bit s.mp.cfgErr),
    (11, bit enc), (12, (s.option 13).toNat % 2), (13, bit s.mp.runBank), (14, bit s.mp.romOnly), (16, bit s.mp.flErr),
    (24, bit s.nvm.markA.isSome), (25, bit s.nvm.markB.isSome)]

/-- Page 2 (R486 to R492). -/
def State.readPage2 (s : State) (w : Nat) : Word :=
  match w with
  | 0x00 => fields [(0, (s.option 9).toNat % 4), (8, s.hp.ta.toNat)]
  | 0x01 => fields [(0, s.hp.regErr.toNat), (8, s.hp.fcause.toNat), (16, bit s.hp.frameErrS), (17, bit s.hp.pushRejS),
      (18, bit s.hp.frameLong)]
  | 0x02 => fields [(0, s.hp.pushCode.toNat), (8, s.hp.pushQueue.toNat), (16, s.hp.pushTag.toNat)]
  | 0x03 => fields [(0, s.q.thr.toNat), (8, s.q.tmo.toNat), (16, bit s.q.fie)]
  | 0x04 => fields [(0, s.q.ring.length), (16, s.q.live.length)]
  | 0x05 => fields [(0, bit s.sb.pecReq), (8, s.sb.amask.toNat), (16, s.sb.hsil.toNat), (24, s.sb.addr.toNat)]
  | 0x06 => s.mpCfg
  | w =>
    if h : 0x10 ≤ w ∧ w < 0x20 then (s.q.weight[w - 0x10]).setWidth 32
    else if h : 0x20 ≤ w ∧ w < 0x30 then
      let l := s.queueLevel ⟨w - 0x20, by omega⟩
      fields [(0, l.1), (8, l.2)]
    else 0

/-- Page 3 (R493 to R501). -/
def State.readPage3 (s : State) (w : Nat) : Word :=
  match w with
  | 0x00 => s.tb.flen.setWidth 32
  | 0x01 => s.tb.frame.setWidth 32
  | 0x02 => (s.tb.frame >>> 32).setWidth 32
  | 0x03 => s.tb.tbCfg
  | 0x04 => s.tb.cpr.setWidth 32
  | 0x05 => s.tb.virt[0].reg
  | 0x06 => s.tb.virt[1].reg
  | 0x07 => fields [(0, s.tb.role.toNat), (8, s.tb.trim.toNat), (16, bit s.tb.epoch.isSome), (24, low 8 s.tb.pherr)]
  | 0x08 => s.tb.tsep.setWidth 32
  | 0x09 => s.quartzStat
  | 0x0A => s.thermStat
  | w =>
    if h : 0x10 ≤ w ∧ w < 0x20 then
      let p := s.tb.snap[(w - 0x10) / 2]
      if w % 2 = 0 then loWord p else hiWord p
    else 0

/-- An axis block (R517 to R524). -/
def State.readAxisBlock (s : State) (n : AxisId) (o : Nat) : Word :=
  let x := s.ax n
  let c := x.cfg
  match o with
  | 0x00 => s.axCfg n
  | 0x01 => s.axStat n
  | 0x02 => loWord x.mot.pos
  | 0x03 => hiWord x.mot.pos
  | 0x04 => loWord x.mot.vel
  | 0x05 => hiWord x.mot.vel
  | 0x06 => if s.hasEncoder n then loWord x.enc.snap else 0
  | 0x07 => if s.hasEncoder n then hiWord x.enc.snap else 0
  | 0x08 => c.devWin.setWidth 32
  | 0x09 => fields [(0, c.irun.toNat), (16, s.irunE n)]
  | 0x0A => fields [(0, c.ihold.toNat), (16, s.iholdE n)]
  | 0x0B => fields [(0, c.iboost.toNat), (16, s.iboostE n)]
  | 0x0C => fields [(0, c.imin.toNat), (16, s.iminE n)]
  | 0x0D => fields [(0, c.obsK.toNat), (4, c.finj.toNat), (16, c.uinj.toNat)]
  | 0x0E => fields [(0, c.dmax.toNat), (14, c.react.toNat), (16, c.stallN.toNat), (24, c.eminp.toNat), (31, bit c.slEn)]
  | 0x0F => s.axOwner n
  | _ => 0

/-- A word of a group's own part of its page (R507 to R516). -/
def State.readGroupWord (s : State) (g : GroupId) (w : Nat) : Word :=
  let x := s.grp g
  let leg := fun (m : Fin 16) => s.leg (legAt g m)
  match w with
  | 0x00 => fields [(0, bit x.gang01), (1, bit x.gang23), (8, bit x.hostedge)]
  | 0x01 => x.stat
  | 0x02 => s.grpFault g
  | 0x03 => fields [(0, x.dt.toNat), (16, tmOf x.dtEff.toNat)]
  | 0x04 => x.tbl.setWidth 32
  | 0x05 => x.oct.setWidth 32
  | 0x06 => fields [(0, x.trw.toNat), (8, x.trn.toNat)]
  | 0x07 => s.adcStat g
  | 0x08 => x.temp.setWidth 32
  | 0x09 => x.vm.setWidth 32
  | 0x0A => x.hbDirect
  | 0x0B => flagWord ((List.finRange 16).map fun m => (leg m).commitBit)
  | w =>
    if h : 0x0C ≤ w ∧ w < 0x14 then
      fields [(0, (leg ⟨2 * (w - 0x0C), by omega⟩).miss.toNat), (16, (leg ⟨2 * (w - 0x0C) + 1, by omega⟩).miss.toNat)]
    else if h : 0x20 ≤ w ∧ w < 0x30 then
      let l := leg ⟨w - 0x20, by omega⟩
      fields [(0, l.on.toNat), (31, bit (x.hostDriven && l.hen))]
    else if h : 0x30 ≤ w ∧ w < 0x40 then (leg ⟨w - 0x30, by omega⟩).off.setWidth 32
    else 0

/-- Local axis of a word of a group page from 0x40 on, and its offset in the block (R502). -/
def blockOf (w : Nat) : Fin 4 × Nat := (⟨((w - 0x40) / 0x30) % 4, by omega⟩, (w - 0x40) % 0x30)

/-- A group page; while its group is reset, and in a gang partner's block, its words read their reset values (R32, R504), which show a
lock-out that is present (R508, R509). -/
def State.readGroup (s : State) (g : GroupId) (w : Nat) : Word :=
  let s := if (s.grp g).resetting && w ≠ 0x01 && w ≠ 0x02 then State.reset else s
  if w < 0x40 then s.readGroupWord g w
  else
    let (k, o) := blockOf w
    let n := axisAt g k
    if s.isPartner n then State.reset.readAxisBlock n o else s.readAxisBlock n o

/-- A word as it stands, without the latches of R280 (R465, R502). -/
def State.readWord (s : State) (p : Port) (page w : Nat) : Word :=
  match page with
  | 0 => s.readPage0 p w
  | 1 => s.readPage1 w
  | 2 => s.readPage2 w
  | 3 => s.readPage3 w
  | page => if h : 4 ≤ page ∧ page < 16 then s.readGroup ⟨page - 4, by omega⟩ w else 0

/-! ### Pairs (R280, R281) -/

/-- The _LO word of the pair a word belongs to. -/
def pairLo (page w : Nat) : Option Nat :=
  if page = 3 then
    if w = 1 ∨ w = 2 then some 1
    else if 0x10 ≤ w ∧ w < 0x20 then some (w - w % 2)
    else none
  else if 4 ≤ page ∧ 0x40 ≤ w then
    let o := (w - 0x40) % 0x30
    if 2 ≤ o ∧ o < 8 then some (w - o % 2) else none
  else none

/-- The key under which a pair's shadow and holding words are kept. -/
def pairKey (page lo : Nat) : Nat := page * 256 + lo

/-- The value kept for a key; 0 before the first. -/
def lookupWord (l : List (Nat × Word)) (k : Nat) : Word := ((l.find? fun x => x.1 = k).map (·.2)).getD 0

/-- The list with the value of one key replaced. -/
def storeWord (l : List (Nat × Word)) (k : Nat) (v : Word) : List (Nat × Word) := (k, v) :: l.filter fun x => x.1 ≠ k

/-- The shadow word of a pair at a port. -/
def State.shadowOf (s : State) (p : Port) (k : Nat) : Word :=
  match p with
  | .host => lookupWord s.hp.shadow k
  | .sideband => lookupWord s.sb.shadow k

/-- The holding word of a pair at a port. -/
def State.holdingOf (s : State) (p : Port) (k : Nat) : Word :=
  match p with
  | .host => lookupWord s.hp.holding k
  | .sideband => lookupWord s.sb.holding k

/-- The shadow word of a pair at a port is set. -/
def State.setShadow (s : State) (p : Port) (k : Nat) (v : Word) : State :=
  match p with
  | .host => { s with hp := { s.hp with shadow := storeWord s.hp.shadow k v } }
  | .sideband => { s with sb := { s.sb with shadow := storeWord s.sb.shadow k v } }

/-- The holding word of a pair at a port is set. -/
def State.setHolding (s : State) (p : Port) (k : Nat) (v : Word) : State :=
  match p with
  | .host => { s with hp := { s.hp with holding := storeWord s.hp.holding k v } }
  | .sideband => { s with sb := { s.sb with holding := storeWord s.sb.holding k v } }

/-- A register error code is recorded at a port (R274, R349). -/
def State.regError (s : State) (p : Port) (code : Nat) : State :=
  match p with
  | .host => { s with hp := { s.hp with regErr := BitVec.ofNat 8 code } }
  | .sideband => { s with sb := { s.sb with regErr := BitVec.ofNat 8 code } }

/-- One word is read through a port (R276, R278, R280): a word past 0xFF reads 0 and records OOR, a _LO latches its _HI, and a
_HI returns the latch. -/
def State.regRead (s : State) (p : Port) (page w : Nat) : Word × State :=
  if 0xFF < w then (0, s.regError p 1)
  else if s.nvm.lc = .retired ∧ ¬ (page = 0 ∧ w < 2) then (0, s)
  else
    match pairLo page w with
    | none => (s.readWord p page w, s)
    | some lo =>
      if w = lo then (s.readWord p page w, s.setShadow p (pairKey page lo) (s.readWord p page (lo + 1)))
      else (s.shadowOf p (pairKey page lo), s)

/-! ### Writing -/

/-- The answer to a write: an error code of R274, or the state after it. -/
abbrev Written := Except Nat State

/-- A GFAULT flag is set without the Shale entry of class 0x07: the flags of access have one of class 0x09 (R424, R474). -/
def State.accessFlag (s : State) (i : Nat) : State :=
  State.noteFault { s with dev := { s.dev with gfault := s.dev.gfault ||| BitVec.ofNat 8 (2 ^ i) } }

/-- The port as the DATA of a class 0x09 entry (R424). -/
def portData (p : Port) : BitVec 24 :=
  match p with
  | .host => 0
  | .sideband => 1

/-- WONCE_VIOL with its Shale entry (R402, R424). -/
def State.wonceViol (s : State) (p : Port) : State := (s.accessFlag 7).shale 9 3 255 (portData p)

/-- Page 0 (R474 to R476). -/
def State.writePage0 (s : State) (w : Nat) (v : Word) : Written :=
  let clr := fun (old : Word) => old &&& ~~~ v
  match w with
  | 0x04 =>
    let keep : BitVec 8 := if s.dev.discNow then 0x21 else 0x01
    .ok (State.noteFault { s with dev := { s.dev with gfault := s.dev.gfault &&& (~~~ v.setWidth 8 ||| keep) } })
  | 0x08 => .ok { s with dev := { s.dev with axioOvl := s.dev.axioOvl.set 0 (clr s.dev.axioOvl[0]) } }
  | 0x09 => .ok { s with dev := { s.dev with axioOvl := s.dev.axioOvl.set 1 (clr s.dev.axioOvl[1]) } }
  | 0x0A => .ok { s with dev := { s.dev with axioOvl := s.dev.axioOvl.set 2 (clr s.dev.axioOvl[2]) } }
  | 0x0B => .ok { s with dev := { s.dev with swChat := s.dev.swChat.set 0 (clr s.dev.swChat[0]) } }
  | 0x0C => .ok { s with dev := { s.dev with swChat := s.dev.swChat.set 1 (clr s.dev.swChat[1]) } }
  | 0x0D => .ok { s with dev := { s.dev with swChat := s.dev.swChat.set 2 (clr s.dev.swChat[2]) } }
  | _ => .ok s

/-- The staging words are cleared to 0 (R402). -/
def State.clearStaging (s : State) : State := { s with dev := { s.dev with staging := Vector.replicate 64 0 } }

/-- A key load (R402): once, in MANUFACTURE; else WONCE_VIOL and a state error. -/
def State.loadKey (s : State) (p : Port) (fw : Bool) : State :=
  let b := optBytes s.dev.staging
  if s.nvm.lc = .manufacture ∧ (if fw then s.nvm.fwKey.isNone else s.nvm.devKey.isNone) then
    State.clearStaging (if fw then { s with nvm := { s.nvm with fwKey := some (b.take 64) } }
      else { s with nvm := { s.nvm with devKey := some (b.take 16) } })
  else (s.wonceViol p).regError p 2

/-- OPT_CTL (R389, R402, R481). -/
def State.optCtl (s : State) (p : Port) (v : Word) : Written :=
  if s.dev.optBusy then .error 2
  else
    match bits v 1 0 with
    | 0 => .ok s
    | 1 =>
      if s.anyEnabled || s.nvm.lc = .retired then .error 2
      else if optionsOk s.dev.staging then .ok (s.writeOptions s.dev.staging)
      else .error 3
    | 2 => .ok (s.loadKey p false)
    | _ => .ok (s.loadKey p true)

/-- SHALE_IDX selects an entry; its data words are taken up at once (R484). -/
def State.selectShale (s : State) (i : BitVec 12) : State :=
  { s with dev := { s.dev with shaleIdx := i, shaleD := s.shaleWords i.toNat } }

/-- Page 1 (R478 to R485). -/
def State.writePage1 (s : State) (p : Port) (w : Nat) (v : Word) : Written :=
  match w with
  | 0x01 => .ok (s.writeBlkRst v (p = .sideband))
  | 0x03 => .ok (if bitOf v 5 then { s with dev := { s.dev with wrFail := false } } else s)
  | 0x04 => s.optCtl p v
  | 0x06 => .ok { s with dev := { s.dev with tagLost := s.dev.tagLost && !bitOf v 20, gparFix := s.dev.gparFix && !bitOf v 21 } }
  | 0x08 => .ok (s.selectShale (v.setWidth 12))
  | w =>
    if h : 0x40 ≤ w ∧ w < 0x80 then
      if s.dev.optBusy then .error 2 else .ok { s with dev := { s.dev with staging := s.dev.staging.set (w - 0x40) v } }
    else .ok s

/-- Page 2 (R486 to R492). -/
def State.writePage2 (s : State) (w : Nat) (v : Word) : Written :=
  match w with
  | 0x00 =>
    let ta := bits v 11 8
    if 1 ≤ ta ∧ ta ≤ 8 then .ok { s with hp := { s.hp with ta := BitVec.ofNat 4 ta } } else .error 3
  | 0x01 => .ok { s with hp := { s.hp with frameErrS := s.hp.frameErrS && !bitOf v 16, pushRejS := s.hp.pushRejS && !bitOf v 17
                                           frameLong := s.hp.frameLong && !bitOf v 18 } }
  | 0x03 =>
    if bits v 7 0 = 0 then .error 3
    else .ok { s with q := ({ s.q with thr := v.setWidth 8, tmo := (v >>> 8).setWidth 8, fie := bitOf v 16 }).request }
  | 0x05 => .ok { s with sb := { s.sb with pecReq := bitOf v 0, amask := (v >>> 8).setWidth 6, hsil := (v >>> 16).setWidth 8 } }
  | 0x06 => .ok (if bitOf v 16 then { s with mp := { s.mp with flErr := false } } else s)
  | w =>
    if h : 0x11 ≤ w ∧ w < 0x20 then
      if bits v 3 0 = 0 then .error 3 else .ok { s with q := { s.q with weight := s.q.weight.set (w - 0x10) (v.setWidth 4) } }
    else .ok s

/-- An enabled axis is bound to master `m` (R40, R495). -/
def State.boundEnabled (s : State) (m : Nat) : Bool := allAxes.any fun n => (s.ax n).drv.enabled && (s.ax n).mot.master.val = m

/-- Every EN line of the module is low (R57). -/
def State.allEnLow (s : State) : Bool := s.legs.toList.all fun l => !l.en

/-- FRAME_CFG (R57, R493). -/
def State.writeFlen (s : State) (v : Word) : Written :=
  if 6 ≤ bits v 2 0 then .error 3
  else if !s.allEnLow then .error 2
  else .ok { s with tb := { s.tb with flen := v.setWidth 3 } }

/-- TB_CFG word 0 (R495): a master's fields are refused while an enabled axis is bound to it. -/
def State.writeTbCfg (s : State) (v : Word) : Written :=
  let new := v &&& 0x11FF73FF
  let ch := fun (i : Nat) => bitOf new i != bitOf s.tb.tbCfg i
  let filt := bits new 14 12 ≠ bits s.tb.tbCfg 14 12
  let hit := (List.range 5).any fun m =>
    s.boundEnabled m && (filt || ch (20 + m) || (1 ≤ m && ch (15 + m)))
  if bits new 9 0 = 0 ∨ 1000 < bits new 9 0 then .error 3
  else if hit then .error 2
  else .ok { s with tb := { s.tb with tbCfg := new } }

/-- TB_CFG word 1: CPR; a change restarts the index record (R43, R495). -/
def State.writeCpr (s : State) (v : Word) : Written :=
  let c := bits v 24 0
  if c = 0 ∨ (4 ≤ c ∧ c ≤ 2 ^ 24) then
    .ok { s with tb := { s.tb with cpr := BitVec.ofNat 25 c, index := if c = s.tb.cpr.toNat then s.tb.index else none } }
  else .error 3

/-- A rate for a virtual master waits for its boundary (R53, R496). -/
def State.writeRate (s : State) (v : Fin 2) (w : Word) : State :=
  { s with tb := { s.tb with virt := upd s.tb.virt v fun x => { x with reg := w, pend := true } } }

/-- SYNC_CFG (R497). -/
def State.writeSync (s : State) (v : Word) : Written :=
  let r : BitVec 2 := v.setWidth 2
  if r = 3 then .error 3
  else if r ≠ s.tb.role ∧ s.anyEnabled then .error 2
  else .ok { s with tb := { s.tb with role := r, trim := (v >>> 8).setWidth 8 } }

/-- Page 3, without the pairs (R493 to R500). -/
def State.writePage3 (s : State) (w : Nat) (v : Word) : Written :=
  match w with
  | 0x00 => s.writeFlen v
  | 0x03 => s.writeTbCfg v
  | 0x04 => s.writeCpr v
  | 0x05 => .ok (s.writeRate 0 v)
  | 0x06 => .ok (s.writeRate 1 v)
  | 0x07 => s.writeSync v
  | 0x08 => if 40 < bits v 5 0 then .error 3 else .ok { s with tb := { s.tb with tsep := v.setWidth 6 } }
  | 0x0A => .ok (if bitOf v 17 then { s with dev := { s.dev with modLimit := false } } else s)
  | _ => .ok s

/-- The preset of a master (R40, R501): judged at the _HI word, in force at the next boundary. -/
def State.presetMaster (s : State) (m : MasterId) (lo hi : Word) : Written :=
  if m.val = 7 ∨ s.boundEnabled m.val then .error 2
  else
    let c := ofWords lo hi / 65536
    .ok { s with tb := { s.tb with preset := s.tb.preset.set m.val (some c)
                                   index := if m.val = 0 then none else s.tb.index } }

/-- A word of a pair is written (R280, R501): a _LO is held, a _HI commits both or ends the pair write. -/
def State.writePair (s : State) (p : Port) (page w lo : Nat) (v : Word) : Written × State :=
  let key := pairKey page lo
  if h : page = 3 ∧ 0x10 ≤ lo ∧ lo < 0x20 then
    if w = lo then let s1 := s.setHolding p key v; (.ok s1, s1)
    else
      let held := s.holdingOf p key
      match s.presetMaster ⟨(lo - 0x10) / 2, by omega⟩ held v with
      | .ok s1 => (.ok (s1.setHolding p key (held &&& 0xFFFF0000)), s)
      | .error e => (.error e, s.setHolding p key (s.readWord p page lo))
  else (.ok s, s)

/-! ### Group pages (R503 to R516) -/

/-- GRP_CFG.HOSTEDGE (R193, R507). -/
def State.writeHostedge (s : State) (g : GroupId) (v : Word) : Written :=
  let on := bitOf v 8
  let idle := !(groupAxes g).any fun n => (s.ax n).drv.enabled || (s.ax n).drv.enabling
  if on && !(s.nvm.lc = .service && idle) then .error 2
  else .ok (s.modGroup g fun x => { x with hostedge := on })

/-- GRP_FAULT: W1C bits whose condition has ended are cleared (R506, R509). -/
def State.clearGrpFault (s : State) (g : GroupId) (v : Word) : State :=
  let s1 := s.modGroup g fun x =>
    { x with faults := (x.faults &&& ~~~ (v >>> 16).setWidth 8) ||| x.lockout.setWidth 8
             thermSticky := (x.thermSticky && !bitOf v 25) || x.thermSd }
  let x := s.grp g
  State.noteFault (s1.forAll (List.finRange 16) fun s m =>
    if bitOf v m.val then s.modLeg (legAt g m) fun l => { l with intlk := l.intlk && x.direct m.val = (true, true) } else s)

/-- An EN line of the group is high. -/
def State.groupEn (s : State) (g : GroupId) : Bool := (List.finRange 16).any fun m => (s.leg (legAt g m)).en

/-- HB_DIRECT (R257, R258, R513): a leg asked for both switches is held off by the interlock. -/
def State.writeDirect (s : State) (g : GroupId) (v : Word) : Written :=
  let x := s.grp g
  if ¬ (s.nvm.lc = .service ∧ x.hostDriven) then .error 2
  else
    let s1 := s.modGroup g fun x => { x with hbDirect := v }
    let s2 := s1.forAll (List.finRange 16) fun s m =>
      let both := bitOf v (2 * m.val) && bitOf v (2 * m.val + 1)
      let none' := !bitOf v (2 * m.val) && !bitOf v (2 * m.val + 1)
      let m' := legAt g m
      if both then
        let was := (s.leg m').intlk
        let s1 := State.noteFault (s.modLeg m' fun l => { l with intlk := true, intlkHold := true })
        if was then s1 else s1.shale 4 (Config.powerStageCode m.val).toNat g.val (pageWord (4 + g.val) 2)
      else if none' then s.modLeg m' fun l => { l with intlkHold := false, tripped := false }
      else s
    .ok (s2.hostEnables g)

/-- COMMIT (R194, R514): `tick` is the commit instant in the running frame. -/
def State.writeCommit (s : State) (g : GroupId) (v : Word) (tick : Nat) : Written :=
  if bits v 15 0 = 0 then .ok s
  else if !(s.grp g).hostedge then .error 2
  else
    let late := s.len ≤ tick + 1
    .ok (s.forAll (List.finRange 16) fun s m =>
      if bitOf v m.val then
        s.modLeg (legAt g m) fun l => if l.commitBit then l else { l with commitBit := true, commitLate := late }
      else s)

/-- EDGE_ONm or EDGE_OFFm (R171, R193, R195): the shadow pair of a host-driven leg. -/
def State.writeEdge (s : State) (g : GroupId) (m : Fin 16) (off : Bool) (v : Word) : Written :=
  let e : BitVec 20 := v.setWidth 20
  if s.sl < e.toNat then .error 3
  else if !(s.grp g).hostDriven || (s.leg (legAt g m)).commitBit then .error 2
  else .ok (s.modLeg (legAt g m) fun l => if off then { l with offS := e } else { l with onS := e, henS := bitOf v 31 })

/-- A word of a group's own part of its page (R507 to R515). -/
def State.writeGroupWord (s : State) (g : GroupId) (w : Nat) (v : Word) (tick : Nat) : Written :=
  match w with
  | 0x00 => s.writeHostedge g v
  | 0x01 => .ok (s.modGroup g fun x => { x with quietLost := x.quietLost &&& ~~~ v.setWidth 8, tsepViol := x.tsepViol && !bitOf v 8
                                                edgeGuard := x.edgeGuard && !bitOf v 9 })
  | 0x02 => .ok (s.clearGrpFault g v)
  | 0x03 =>
    let d := bits v 5 0
    if d = 0 ∨ 32 < d then .error 3
    else if s.groupEn g then .error 2
    else .ok (s.modGroup g fun x => { x with dt := v.setWidth 6 })
  | 0x04 =>
    let d := bits v 4 0
    if d = 0 ∨ 16 < d then .error 3 else .ok (s.modGroup g fun x => { x with tbl := v.setWidth 5 })
  | 0x05 =>
    let d := bits v 5 0
    if d < 8 ∨ 32 < d then .error 3 else .ok (s.modGroup g fun x => { x with oct := v.setWidth 6 })
  | 0x06 =>
    if bits v 7 0 = 0 then .error 3
    else .ok (s.modGroup g fun x => { x with trw := v.setWidth 8, trn := (v >>> 8).setWidth 4 })
  | 0x07 =>
    .ok ((List.finRange 2).foldl (fun s h => if bitOf v (8 * h.val) then
      s.modAdc ⟨2 * g.val + h.val, by omega⟩ fun a => { a with calForced := false } else s) s)
  | 0x0A => s.writeDirect g v
  | 0x0B => s.writeCommit g v tick
  | w =>
    if h : 0x20 ≤ w ∧ w < 0x30 then s.writeEdge g ⟨w - 0x20, by omega⟩ false v
    else if h : 0x30 ≤ w ∧ w < 0x40 then s.writeEdge g ⟨w - 0x30, by omega⟩ true v
    else .ok s

/-- The W1C flags of AXk_STAT (R506, R519). -/
def State.clearAxStat (s : State) (n : AxisId) (v : Word) : State :=
  let s1 := s.modProt n fun p => { p with ownChg := p.ownChg && !bitOf v 16, plugChg := p.plugChg && !bitOf v 17 }
  let s2 := s1.modObs n fun o => { o with stall := o.stall && !bitOf v 18 }
  s2.modEnc n fun e => { e with err := e.err && !bitOf v 20 }

/-- A word of an axis block (R517 to R523); a change of KE or of the observer takes effect by itself (R223). -/
def State.writeAxisBlock (s : State) (n : AxisId) (o : Nat) (v : Word) : Written :=
  match o with
  | 0x01 => .ok (s.clearAxStat n v)
  | 0x08 => .ok (s.modCfg n fun c => { c with devWin := v.setWidth 20 })
  | 0x09 => .ok (s.modCfg n fun c => { c with irun := v.setWidth 16 })
  | 0x0A => .ok (s.modCfg n fun c => { c with ihold := v.setWidth 16 })
  | 0x0B => .ok (s.modCfg n fun c => { c with iboost := v.setWidth 16 })
  | 0x0C => .ok (s.modCfg n fun c => { c with imin := v.setWidth 16 })
  | 0x0D =>
    let f := bits v 12 4
    let u := bits v 27 16
    if f < 5 ∨ 500 < f ∨ ¬ (u = 0 ∨ (1000 ≤ u ∧ u ≤ 3000)) then .error 3
    else .ok (s.modCfg n fun c => { c with obsK := v.setWidth 3, finj := BitVec.ofNat 9 f, uinj := BitVec.ofNat 12 u })
  | 0x0E =>
    let d := bits v 13 0
    let e := bits v 30 24
    if d < 5461 ∨ 16000 < d ∨ bits v 15 14 = 3 ∨ bits v 23 16 = 0 ∨ ¬ (e = 0 ∨ (10 ≤ e ∧ e ≤ 90)) then .error 3
    else .ok (s.modCfg n fun c => { c with dmax := BitVec.ofNat 14 d, react := (v >>> 14).setWidth 2, stallN := (v >>> 16).setWidth 8
                                           eminp := BitVec.ofNat 7 e, slEn := bitOf v 31 })
  | _ => .ok s

/-- The words that the side-band host cannot write (R352). -/
def hostOnly (w : Nat) : Bool := w = 0x0A || w = 0x0B || (0x20 ≤ w && w < 0x40)

/-- A group page (R32, R352, R504). -/
def State.writeGroup (s : State) (p : Port) (g : GroupId) (w : Nat) (v : Word) (tick : Nat) : Written :=
  if (s.grp g).resetting then .error 2
  else if p = .sideband ∧ hostOnly w then .error 2
  else if w < 0x40 then s.writeGroupWord g w v tick
  else
    let (k, o) := blockOf w
    if s.isPartner (axisAt g k) then .ok s else s.writeAxisBlock (axisAt g k) o v

/-- What a write of one word does, keys and locks apart. -/
def State.writeWord (s : State) (p : Port) (page w : Nat) (v : Word) (tick : Nat) : Written :=
  match page with
  | 0 => s.writePage0 w v
  | 1 => s.writePage1 p w v
  | 2 => s.writePage2 w v
  | 3 => s.writePage3 w v
  | page => if h : 4 ≤ page ∧ page < 16 then s.writeGroup p ⟨page - 4, by omega⟩ w v tick else .ok s

/-- Words that are keyed (R478, R481, R513). -/
def keyedWord (page w : Nat) : Bool := (page = 1 && (w = 1 || w = 4)) || (4 ≤ page && w = 0x0A)

/-- The unlock of a port is set or removed (R416). -/
def State.setUnlock (s : State) (p : Port) (on : Bool) : State :=
  match p with
  | .host => { s with hp := { s.hp with unlocked := on } }
  | .sideband => { s with sb := { s.sb with unlocked := on } }

/-- A keyed word without an unlock (R417): KEY_VIOL, code KEY and a Shale entry, at most one per port per 1,000 frames. -/
def State.keyViolation (s : State) (p : Port) : State :=
  let last := match p with
    | .host => s.hp.keyFrame
    | .sideband => s.sb.keyFrame
  let s1 := (s.accessFlag 6).regError p 4
  let log := match last with
    | none => true
    | some f => f + 1000 ≤ s.tb.count
  if log then
    let s2 := s1.shale 9 1 255 (portData p)
    match p with
    | .host => { s2 with hp := { s2.hp with keyFrame := some s.tb.count } }
    | .sideband => { s2 with sb := { s2.sb with keyFrame := some s.tb.count } }
  else s1

/-- A word that was written holds its parity again (R414). -/
def State.healWord (s : State) (page w : Nat) : State :=
  { s with dev := { s.dev with parityBad := s.dev.parityBad.filter fun x => x ≠ (page, w) } }

/-- One word is written through a port (R276, R279, R416, R417): the write consumes the port's unlock whatever it does. -/
def State.regWrite (s : State) (p : Port) (page w : Nat) (v : Word) (tick : Nat) : State :=
  let open' := s.unlockedBy p
  let s1 := s.setUnlock p false
  if !s.dev.ready then s1.regError p 5
  else if 0xFF < w then s1.regError p 1
  else if page = 0 ∧ w = 5 then s1.setUnlock p (v = 0x0000C3A5)
  else if keyedWord page w && !(open' || (p = .sideband && 4 ≤ page)) then s1.keyViolation p
  else
    match pairLo page w with
    | some lo =>
      match s1.writePair p page w lo v with
      | (.ok s2, _) => s2.healWord page w
      | (.error e, s2) => s2.regError p e
    | none =>
      match s1.writeWord p page w v tick with
      | .ok s2 => s2.healWord page w
      | .error e => s1.regError p e

/-! ### Register words with a row of their own -/

/-- KEY_UNLOCK (R416). -/
def execKeyUnlock (port : Port) (value : Word) (s : State) : Host.Outcome State Fault Refusal :=
  .next (s.regWrite port 0 0x05 value 0)

/-- UNLOCK_LAPSE: 1 ms has passed since the write that unlocked the port (R416). -/
def execUnlockLapse (port : Port) (s : State) : Host.Outcome State Fault Refusal := .next (s.setUnlock port false)

/-- GROUP_BLOCK_RESET: BLK_RST bit g (R398). -/
def execGroupBlockReset (port : Port) (g : GroupId) (s : State) : Host.Outcome State Fault Refusal :=
  .next (s.regWrite port 1 0x01 (BitVec.ofNat 32 (2 ^ g.val)) 0)

/-- MPORT_BLOCK_RESET: BLK_RST bit 16 (R398). -/
def execMportBlockReset (port : Port) (s : State) : Host.Outcome State Fault Refusal :=
  .next (s.regWrite port 1 0x01 0x00010000 0)

/-- QUARTZ_BLOCK_RESET: BLK_RST bit 17 (R398). -/
def execQuartzBlockReset (port : Port) (s : State) : Host.Outcome State Fault Refusal :=
  .next (s.regWrite port 1 0x01 0x00020000 0)

/-- SYNC_BLOCK_RESET: BLK_RST bit 18 (R398). -/
def execSyncBlockReset (port : Port) (s : State) : Host.Outcome State Fault Refusal :=
  .next (s.regWrite port 1 0x01 0x00040000 0)

/-- SBAND_BLOCK_RESET: BLK_RST bit 19 (R398). -/
def execSbandBlockReset (port : Port) (s : State) : Host.Outcome State Fault Refusal :=
  .next (s.regWrite port 1 0x01 0x00080000 0)

/-- OPTIONS_WRITE: OPT_CTL CMD 1 (R389). -/
def execOptionsWrite (port : Port) (s : State) : Host.Outcome State Fault Refusal := .next (s.regWrite port 1 0x04 1 0)

/-- DEVICE_KEY_LOAD: OPT_CTL CMD 2 (R402). -/
def execDeviceKeyLoad (port : Port) (s : State) : Host.Outcome State Fault Refusal := .next (s.regWrite port 1 0x04 2 0)

/-- FIRMWARE_KEY_LOAD: OPT_CTL CMD 3 (R402). -/
def execFirmwareKeyLoad (port : Port) (s : State) : Host.Outcome State Fault Refusal := .next (s.regWrite port 1 0x04 3 0)

/-- SHALE_IDX (R484). -/
def execShaleIdx (port : Port) (value : Word) (s : State) : Host.Outcome State Fault Refusal :=
  .next (s.regWrite port 1 0x08 value 0)

/-- EDGE_WORD_WRITE (R171). -/
def execEdgeWordWrite (port : Port) (g : GroupId) (leg : Fin 16) (off : Bool) (value : Word) (s : State) :
    Host.Outcome State Fault Refusal :=
  .next (s.regWrite port (4 + g.val) ((if off then 0x30 else 0x20) + leg.val) value 0)

/-- COMMIT (R194). -/
def execCommit (port : Port) (g : GroupId) (value : Word) (tick : Nat) (s : State) : Host.Outcome State Fault Refusal :=
  .next (s.regWrite port (4 + g.val) 0x0B value tick)

/-- HOSTEDGE (R193). -/
def execHostedge (port : Port) (g : GroupId) (value : Word) (s : State) : Host.Outcome State Fault Refusal :=
  .next (s.regWrite port (4 + g.val) 0x00 value 0)

/-- HB_DIRECT (R257). -/
def execHbDirect (port : Port) (g : GroupId) (value : Word) (s : State) : Host.Outcome State Fault Refusal :=
  .next (s.regWrite port (4 + g.val) 0x0A value 0)

/-- FRAME_CFG (R57). -/
def execFrameCfg (port : Port) (value : Word) (s : State) : Host.Outcome State Fault Refusal :=
  .next (s.regWrite port 3 0x00 value 0)

/-- MPOS_PRESET: the _HI word of a master's pair, which commits it (R40, R280). -/
def execMposPreset (port : Port) (m : MasterId) (value : Word) (s : State) : Host.Outcome State Fault Refusal :=
  .next (s.regWrite port 3 (0x11 + 2 * m.val) value 0)

/-- VM_RATE (R53). -/
def execVmRate (port : Port) (v : Fin 2) (value : Word) (s : State) : Host.Outcome State Fault Refusal :=
  .next (s.regWrite port 3 (0x05 + v.val) value 0)

/-- SYNC_CFG (R497). -/
def execSyncCfg (port : Port) (value : Word) (s : State) : Host.Outcome State Fault Refusal :=
  .next (s.regWrite port 3 0x07 value 0)

/-- LO_READ_LATCH: one word is loaded for output at a port (R280). -/
def execLoReadLatch (port : Port) (page : BitVec 4) (word : BitVec 8) (s : State) : Host.Outcome State Fault Refusal :=
  .next (s.regRead port page.toNat word.toNat).2

/-- HI_WRITE_COMMIT: one word is written at a port (R280). -/
def execHiWriteCommit (port : Port) (page : BitVec 4) (word : BitVec 8) (value : Word) (s : State) :
    Host.Outcome State Fault Refusal :=
  .next (s.regWrite port page.toNat word.toNat value 0)

end Sys2Proof.Machine
end

