-- ==== Sys2Proof/Machine/Packets.lean ====
section
/-! DEFINITION. Packets in their rings: the checks of a core, the order in which commands start, flushing, and the start of a
STOP_ALL (11_queues_packets.md R287 to R299, R306; 12_opcodes.md R310, R331). -/
namespace Sys2Proof.Machine
open Sys2Proof

/-! ### The opcode summary (R310) -/

/-- What R310 says of an opcode: the AXIS forms it accepts, the flags it uses, and whether its class is M. -/
structure OpForm where
  single : Bool := false
  group : Bool := false
  module : Bool := false
  flush : Bool := false
  overlap : Bool := false
  classM : Bool := false

/-- The forms of an opcode, none where OPC is not defined (R310). -/
def opForm (opc : Nat) : Option OpForm :=
  match opc with
  | 0x01 => some { module := true }
  | 0x02 => some { module := true }
  | 0x08 => some { single := true, group := true, classM := true }
  | 0x09 => some { group := true, classM := true }
  | 0x0A => some { single := true, group := true, classM := true }
  | 0x0B => some { module := true }
  | 0x0C => some { single := true, classM := true }
  | 0x10 => some { single := true, overlap := true, classM := true }
  | 0x11 => some { single := true, overlap := true, classM := true }
  | 0x12 => some { single := true, classM := true }
  | 0x13 => some { single := true, overlap := true, classM := true }
  | 0x14 => some { single := true, overlap := true, classM := true }
  | 0x15 => some { single := true, classM := true }
  | 0x16 => some { single := true, classM := true }
  | 0x18 => some { single := true, classM := true }
  | 0x19 => some { single := true, classM := true }
  | 0x1A => some { single := true, group := true, flush := true }
  | 0x1B => some { single := true, group := true, flush := true }
  | 0x1C => some { single := true, group := true }
  | 0x1D => some { single := true, group := true, classM := true }
  | 0x1E => some { single := true, group := true, classM := true }
  | 0x20 => some { module := true }
  | 0x28 => some { single := true, group := true, classM := true }
  | 0x29 => some { single := true, classM := true }
  | 0x2A => some { single := true }
  | 0x2B => some { group := true }
  | 0x30 => some { module := true }
  | 0x31 => some { module := true }
  | 0x38 => some { single := true, group := true, module := true }
  | 0x39 => some { single := true }
  | 0x40 => some { module := true }
  | 0x41 => some { module := true }
  | 0x48 => some { module := true }
  | 0x49 => some { module := true }
  | 0x4F => some { module := true }
  | 0x50 => some { module := true }
  | 0x58 => some { module := true }
  | 0x7F => some { single := true, group := true, module := true }
  | _ => none

/-- Whether PLEN is a length that the opcode allows (R310, R293 row 3); `par` is the parameter area. -/
def plenOk (opc plen : Nat) (par : List Byte) : Bool :=
  match opc with
  | 0x01 => plen ≤ 240
  | 0x02 => plen = 4
  | 0x08 =>
    let sect := (byteAt par 0).toNat
    1 ≤ plen && (match sect with
      | 0 => plen = 16
      | 1 => plen = 20
      | 2 => plen = 20
      | 3 => plen = 48
      | 4 => plen = 16
      | _ => plen = 16 || plen = 20 || plen = 48)
  | 0x09 => plen = 8
  | 0x0A => plen = 4
  | 0x0B => 3 ≤ plen && plen = 4 + 6 * (byteAt par 2).toNat
  | 0x0C => plen = 8
  | 0x10 => plen = 40
  | 0x11 => plen = 40
  | 0x12 => plen = 32
  | 0x13 => plen = 28
  | 0x14 => plen = 48
  | 0x15 => plen = 12
  | 0x16 => plen = 56
  | 0x18 => plen = 8
  | 0x19 => plen = 16
  | 0x20 => plen = 24
  | 0x29 => plen = 4
  | 0x2A => plen = 4
  | 0x2B => plen = 4
  | 0x30 => 2 ≤ plen && (if (byteAt par 1).getLsbD 0 then plen = 12 else 6 ≤ plen && plen = 8 + 4 * uAt par 4 2)
  | 0x31 => plen = 12
  | 0x39 => plen = 4
  | 0x40 =>
    let long := 12 ≤ plen && plen ≤ 240 && plen % 4 = 0
    match (byteAt par 0).toNat with
    | 0 => plen = 4
    | 1 => long
    | 2 => plen = 4
    | _ => plen = 4 || long
  | 0x41 => plen = 4
  | 0x48 => plen = 8
  | 0x49 => 3 ≤ plen && plen = 4 + 2 * (byteAt par 2).toNat
  | 0x4F => plen = 4
  | 0x50 => plen = 4
  | 0x58 => plen = 12
  | 0x7F => true
  | _ => plen = 0

/-! ### The checks of a core (R293) -/

/-- Row 4 of R293: the first field, in ascending offset, that is not allowed. -/
def headerFault (p : Packet) (f : OpForm) : Option Nat :=
  let all := p.axis = 0xFE
  if p.flags.getLsbD 4 || (!all && p.group ≠ 0) || (all && 11 < p.group) || (p.overlap && !f.overlap) || (p.flush && !f.flush) then
    some 1
  else if byteAt p.bytes 7 ≠ 0 then some 7
  else if p.deadline ≠ 0 && (all || p.axis = 0xFF) then some 8
  else if p.batch ≠ 0 && (all || p.axis = 0xFF) then some 12
  else none

/-- Row 5 of R293: AXIS names no usable axis, or a form the opcode does not accept. -/
def State.axisFault (s : State) (p : Packet) (f : OpForm) : Bool :=
  match axisOfByte p.axis with
  | some n => !f.single || s.isPartner n
  | none => if p.axis = 0xFE then !f.group else if p.axis = 0xFF then !f.module else true

/-- The verdict of R293 rows 1 to 5 on a packet, and of its memory check (R408, R412); STOP_ALL is exempt from rows 2 to 5. -/
def State.asyncCheck (s : State) (p : Packet) : Option (Status × Word) :=
  if p.bad then some (.integrityLost, 0x11)
  else if p.opc = 0x7F then none
  else
    match opForm p.opc with
    | none => some (.rejectOpcode, 0)
    | some f =>
      if p.slots * 32 - 16 < p.plen then some (.rejectLength, 6)
      else if !plenOk p.opc p.plen p.params then some (.rejectLength, 6)
      else
        match headerFault p f with
        | some o => some (.rejectParam, BitVec.ofNat 32 o)
        | none => if s.axisFault p f then some (.rejectAxis, 4) else none

/-- MPOS of a packet's completion (R302). -/
def State.packetMpos (s : State) (p : Packet) : Word :=
  match axisOfByte p.axis with
  | some n => s.axMpos n
  | none => s.m7pos

/-- A packet completes with FLAGS 0 and the AXIS of its header. -/
def State.answer (s : State) (p : Packet) (st : Status) (w : Word) : State := s.complete p.ref st 0 p.axis (s.packetMpos p) w

/-! ### The order of starting (R297, R298) -/

/-- A module command: AXIS 0xFF, or a STOP_ALL whatever its AXIS. -/
def Packet.isModule (p : Packet) : Bool := p.axis = 0xFF || p.opc = 0x7F

/-- An earlier packet `o` must start before `p` (R297, R298). -/
def Packet.holds (o p : Packet) : Bool :=
  o.seq < p.seq &&
    ((o.queue = p.queue && (o.isModule || p.isModule || (o.axis = p.axis && (o.axis ≠ 0xFE || o.group = p.group))))
      || (o.queue ≠ 0 && p.queue ≠ 0 && (o.barrier || p.barrier)))

/-- The byte that names the axis of a side-band command, none where it acts on the module (R348). -/
def sbTarget : Instr → Option Byte
  | .axisStop a _ _ => some a
  | .axisEnable a _ => some a
  | .sbJog a _ _ => some a
  | .take a _ => some a
  | .handBack a _ => some a
  | _ => none

/-- A side-band command and a packet of Q0 must start in the order of their acceptance (R297, R359). -/
def sbMeets (c : Instr) (p : Packet) : Bool := p.queue = 0 && (p.isModule || sbTarget c = none || sbTarget c = some p.axis)

/-- Nothing that must start before a packet is still in its ring, or waits from the side-band port (R297, R359). -/
def State.canStart (s : State) (p : Packet) : Bool :=
  (s.q.packets.all fun (o : Packet) => !o.holds p) && s.sb.waiting.all fun w => !(w.1 < p.seq && sbMeets w.2 p)

/-- A packet is eligible for a core: every packet that R298 sets before it has been taken (R295). -/
def State.eligible (s : State) (p : Packet) : Bool :=
  p.queue = 0 || s.q.packets.all fun (o : Packet) =>
    !(o.queue ≠ 0 && o.seq < p.seq && (o.barrier || p.barrier)) || o.core.isSome

/-- A packet leaves its ring: its command starts (R288, R297). -/
def State.dropPacket (s : State) (seq : Nat) : State :=
  { s with q := { s.q with packets := s.q.packets.filter fun (o : Packet) => o.seq ≠ seq } }

/-- The packets that cores hold with a verdict complete, as far as the order of starting lets them; `k` bounds the rounds. -/
def State.settle : Nat → State → State
  | 0, s => s
  | k + 1, s =>
    match s.q.packets.find? fun (p : Packet) => p.core.isSome && p.verdict.isSome && s.canStart p with
    | none => s
    | some p =>
      let (st, w) := p.verdict.getD (.ok, 0)
      State.settle k ((s.dropPacket p.seq).answer p st w)

/-! ### Flushing (R299, R331) -/

/-- The opcodes whose unstarted packets a STOP_ALL, or a flushing stop that covers them, flushes (R299). -/
def flushable (opc : Nat) : Bool := (0x10 ≤ opc && opc ≤ 0x16) || opc = 0x18 || opc = 0x19 || opc = 0x1D

/-- Unstarted packets accepted before `seq` that `covers` takes in complete FLUSHED, in acceptance order (R299). -/
def State.flushPackets (s : State) (seq : Nat) (covers : Packet → Bool) : State :=
  let hit := fun (p : Packet) => p.seq < seq && flushable p.opc && covers p
  ({ s with q := { s.q with packets := s.q.packets.filter fun (p : Packet) => !hit p } }).forAll (s.q.packets.filter hit)
    fun s p => s.answer p .flushed 0

/-! ### STOP_ALL (R98, R299, R304, R306) -/

/-- A STOP_ALL accepted with number `seq` starts: earlier unstarted packets are flushed, a stream ends, and the stop marks are
set for the next boundary; with no axis enabled it completes at once. -/
def State.startStopAll (s : State) (ref : CmdRef) (seq : Nat) : State :=
  let s1 := (s.flushPackets seq fun _ => true).endStream
  let wait := allAxes.filter fun n => (s1.ax n).drv.enabled
  let act := s1.q.nextAct
  let s2 := s1.addAction ref 0xFF .stopAll wait
  let s3 := if wait.isEmpty then s2.finishAction ⟨act, ref, 0xFF, .stopAll, [], [], 0, 0⟩ else s2
  { s3 with q := { s3.q with snapOps := s3.q.snapOps ++ [.stopAll act] } }

end Sys2Proof.Machine
end

