-- ==== Sys2Proof/Machine/HostPort.lean ====
section
/-! DEFINITION. The host port: frames, the status word, register, push and pull frames, and the arbiter that hands packets to
cores (10_host_port.md R267 to R286; 11_queues_packets.md R292, R295, R296, R305; 16_integrity.md R412, R420). -/
namespace Sys2Proof.Machine
open Sys2Proof

/-! ### Frames (R267 to R273) -/

/-- The width of a frame in lanes (R272); the reserved code has none. -/
def frameWidth (f : HostFrame) : Nat :=
  match f.lanes.toNat with
  | 0 => 2
  | 1 => 4
  | 2 => 8
  | _ => 0

/-- Sampling edges before the data phase: the command, one or two turnarounds and the status (R268). -/
def frameHead (f : HostFrame) (ta turns : Nat) : Nat := 8 + turns * ta + 16 / frameWidth f

/-- Bits of the data phase (R268, R269). -/
def dataBits (f : HostFrame) (ta turns : Nat) : Nat := (f.edges - frameHead f ta turns) * frameWidth f

/-- The whole bytes that your host drove in the data phase of a write or push (R268, R269). -/
def frameData (f : HostFrame) (ta : Nat) : List Byte :=
  bytesOfLanes (frameWidth f) (dataBits f ta 2 / 8) (f.levels.drop (frameHead f ta 2))

/-- The lanes of a frame that carry some bytes: no lane outside its width is driven (R269, R270). -/
def lanesOut (f : HostFrame) (l : List Byte) : List (BitVec 8) := l.flatMap (lanesOfByte (frameWidth f))

/-- The module answers on its host port: from the end of the options load on (R276). -/
def State.portUp (s : State) : Bool :=
  match s.dev.stage with
  | .fuseSensing => false
  | .nvmDeferral => false
  | .optionsLoad => false
  | .nrstWait => true
  | .ramWipe => true
  | .running => true

/-- Free slots of a queue (R288). -/
def State.freeSlots (s : State) (n : QueueId) : Nat := 64 - (s.queueLevel n).1

/-- The status word as latched in a frame (R273). -/
def State.statusWord (s : State) (op : FrameOp) (f : HostFrame) : BitVec 16 :=
  let free := s.freeSlots ⟨f.pq.toNat, f.pq.isLt⟩
  let info := match op with
    | .push => free
    | .pull => min 255 s.q.ring.length
    | .read => s.hp.regErr.toNat
    | .write => s.hp.regErr.toNat
  let full := match op with
    | .push => free = 0
    | _ => false
  (fields [(0, info), (8, lcCode s.nvm.lc), (10, bit s.hp.pushRej), (11, bit s.hp.frameErr), (12, bit full), (13, bit (!s.q.ring.isEmpty)),
    (14, bit s.faultBit), (15, bit s.dev.ready)]).setWidth 16

/-- The lowest of some FCAUSE codes, each with its condition; 0 where none holds (R286). -/
def cause (l : List (Nat × Bool)) : Nat := ((l.find? fun c => c.2).map (·.1)).getD 0

/-- A frame error is set with its cause; code 0 sets none (R286). -/
def State.frameError (s : State) (code : Nat) : State :=
  if code = 0 then s
  else { s with hp := { s.hp with frameErr := true, frameErrS := true, fcause := BitVec.ofNat 4 code } }

/-- The status word is latched: what it reports once is consumed. It is driven from the first edge of the status phase for as long
as the frame lasts, and on a push to Q0 not at all (R270, R273, R275, R283). -/
def State.latchStatus (s : State) (op : FrameOp) (f : HostFrame) : State :=
  let silent := op = .push && f.pq = 0
  let w := s.statusWord op f
  let out := if silent || f.edges < frameHead f s.hp.ta.toNat 1 then none else some w
  let lanes := if silent then [] else (lanesOut f (leBytes 2 w.toNat)).take (f.edges - (8 + s.hp.ta.toNat))
  let err := match op with
    | .read => 0
    | .write => 0
    | .push => s.hp.regErr
    | .pull => s.hp.regErr
  { s with hp := { s.hp with statusOut := out, lanesOut := lanes, dataOut := [], frameErr := false, pushRej := false, regErr := err } }

/-- The bytes that the module drives in the data phase of a read or pull, a byte cut by the release in part (R268 to R270). -/
def State.driveData (s : State) (f : HostFrame) (ta : Nat) (l : List Byte) : State :=
  let past := f.edges - frameHead f ta 1
  { s with hp := { s.hp with dataOut := l.take (past * frameWidth f / 8), lanesOut := s.hp.lanesOut ++ (lanesOut f l).take past } }

/-- One frame: nothing without a sampling edge, before the port is up or where the command byte has the OP of another row; a
reserved lane code and a frame that ends in its header are errors; otherwise the status is latched and `body` follows (R267, R272,
R273, R286). -/
def State.hostFrame (s : State) (op : FrameOp) (f : HostFrame) (body : State → State) : State :=
  if f.edges = 0 || !s.portUp || f.op ≠ op then s
  else
    let bare : State := { s with hp := { s.hp with
      statusOut := none, lanesOut := [], dataOut := [], frameErr := false, pushRej := false } }
    if f.lanes = 3 && 2 ≤ f.edges then bare.frameError 1
    else if f.edges < 8 then bare.frameError 2
    else body (s.latchStatus op f)

/-! ### Register frames (R277 to R280) -/

/-- `k` words from `w` on are loaded for output: the words, and the state after the latches of R280. -/
def State.readWords (page : Nat) : Nat → Nat → State → List Word × State
  | 0, _, s => ([], s)
  | k + 1, w, s =>
    let (x, s1) := s.regRead .host page w
    let (l, s2) := State.readWords page k (w + 1) s1
    (x :: l, s2)

/-- REGISTER_READ_FRAME (R278): a word is loaded when an edge of it is clocked. -/
def State.readFrame (s : State) (f : HostFrame) : State :=
  let ta := s.hp.ta.toNat
  s.hostFrame .read f fun s =>
    let b := dataBits f ta 1
    let (l, s1) := State.readWords f.pq.toNat ((b + 31) / 32) f.addr.toNat s
    (s1.driveData f ta (l.flatMap wordBytes)).frameError (cause [(3, b % 8 ≠ 0)])

/-- REGISTER_READ_FRAME (R278). -/
def execRegisterReadFrame (f : HostFrame) (s : State) : Host.Outcome State Fault Refusal := .next (s.readFrame f)

/-- `k` words from `w` on are committed, each at the tick given (R279, R194). -/
def State.writeWords (f : HostFrame) (data : List Byte) (k : Nat) (s : State) : State :=
  s.forAll (List.range k) fun s i =>
    s.regWrite .host f.pq.toNat (f.addr.toNat + i) (wordAt data (4 * i)) (f.ticks.getD i 0)

/-- REGISTER_WRITE (R279): whole words are committed in order; a partial one is discarded. -/
def State.writeFrame (s : State) (f : HostFrame) : State :=
  let ta := s.hp.ta.toNat
  s.hostFrame .write f fun s =>
    let b := dataBits f ta 2
    (State.writeWords f (frameData f ta) (b / 32) s).frameError (cause [(3, b % 8 ≠ 0), (4, b % 32 ≠ 0)])

/-- REGISTER_WRITE (R279). -/
def execRegisterWrite (f : HostFrame) (s : State) : Host.Outcome State Fault Refusal := .next (s.writeFrame f)

/-! ### Push frames (R282, R283, R291, R292, R296) -/

/-- PCRC holds over the span of a packet (R291). -/
def pcrcOk (b : List Byte) : Bool := crc16 (b.take 14 ++ b.drop 16) = BitVec.ofNat 16 (uAt b 14 2)

/-- The synchronous checks of a push, in their order: the code of the first that fails (R292). -/
def State.pushFault (s : State) (n : QueueId) (b : List Byte) : Option Nat :=
  let slots := (byteAt b 5).toNat
  let tag : BitVec 16 := BitVec.ofNat 16 (uAt b 2 2)
  if !s.dev.ready then some 7
  else if slots = 0 ∨ 8 < slots then some 2
  else if !pcrcOk (b.take (32 * slots)) then some 1
  else if s.freeSlots n < slots then some 3
  else if tag = 0 then some 6
  else if s.q.live.any fun t => t.1 = tag then some 5
  else if 512 ≤ s.q.live.length then some 4
  else none

/-- A push is refused (R292). -/
def State.refusePush (s : State) (n : QueueId) (b : List Byte) (code : Nat) : State :=
  { s with hp := { s.hp with pushRej := true, pushRejS := true, pushCode := BitVec.ofNat 3 code, pushQueue := BitVec.ofNat 4 n.val
                             pushTag := BitVec.ofNat 16 (uAt b 2 2) } }

/-- A core is free. -/
def State.coreFree (s : State) (c : CoreId) : Bool := !s.q.packets.any fun (p : Packet) => p.core = some c

/-- With no core free, the one whose packet of Q1 to Q15 was accepted last gives it back untaken (R296). -/
def State.preempt (s : State) : State :=
  if (List.finRange 4).any s.coreFree then s
  else
    match (s.q.packets.filter fun (p : Packet) => p.core.isSome && p.queue ≠ 0).getLast? with
    | none => s
    | some v => { s with q := { s.q with packets := s.q.packets.map fun (p : Packet) =>
        if p.seq = v.seq then { p with core := none, verdict := none } else p } }

/-- An accepted packet enters its ring and its tag becomes live (R292, R294); a STOP_ALL on Q0 acts at once while dispatch is
suspended (R420), and any other packet of Q0 may pre-empt a core (R296). -/
def State.acceptPush (s : State) (n : QueueId) (b : List Byte) : State :=
  let seq := s.q.nextSeq
  let p : Packet := ⟨b, n, seq, none, none, false⟩
  let s1 : State := { s with q := { s.q with
    packets := s.q.packets ++ [p], nextSeq := seq + 1, live := s.q.live ++ [(p.tag, BitVec.ofNat 4 n.val, p.axis)] } }
  if n ≠ 0 then s1
  else if s1.dev.suspended then (if p.opc = 0x7F then (s1.dropPacket seq).startStopAll p.ref seq else s1)
  else s1.preempt

/-- The packet of a push is offered to the checks (R292). -/
def State.offer (s : State) (n : QueueId) (b : List Byte) : State :=
  match s.pushFault n b with
  | some c => s.refusePush n b c
  | none => s.acceptPush n (b.take (32 * (byteAt b 5).toNat))

/-- PACKET_PUSH: a frame released before its data phase is no error, whatever its address byte (R282, R286). -/
def State.pushFrame (s : State) (f : HostFrame) : State :=
  let ta := s.hp.ta.toNat
  let n : QueueId := ⟨f.pq.toNat, f.pq.isLt⟩
  s.hostFrame .push f fun s =>
    let bitsIn := dataBits f ta 2
    let b := frameData f ta
    let slots := (byteAt b 5).toNat
    let odd := bitsIn % 8 ≠ 0
    let span := 32 * slots
    let whole := 6 ≤ b.length && (slots = 0 || 8 < slots || span ≤ b.length)
    let long := whole && 1 ≤ slots && slots ≤ 8 && 8 * span < bitsIn
    if bitsIn = 0 then s
    else if !whole || f.addr ≠ 0 then s.frameError (cause [(3, odd), (5, !whole), (6, f.addr ≠ 0)])
    else
      let s1 : State := { s with hp := { s.hp with frameLong := s.hp.frameLong || long } }
      (s1.offer n b).frameError (cause [(3, odd)])

/-- PACKET_PUSH (R282). -/
def execPacketPush (f : HostFrame) (s : State) : Host.Outcome State Fault Refusal := .next (s.pushFrame f)

/-! ### Pull frames (R284, R285, R300, R412) -/

/-- The 16 bytes of a completion entry (R300). -/
def Completion.bytes (c : Completion) : List Byte :=
  leBytes 2 c.tag.toNat ++ [c.status.code, c.flags, c.axis, 0x80 ||| c.queue.setWidth 8, 0, 0] ++ wordBytes c.mpos ++ wordBytes c.word

/-- An entry as it is sent: one that fails its check is replaced by one built from its tag's record (R412). -/
def State.sentEntry (s : State) (c : Completion) : Completion :=
  if c.bad then
    match s.q.live.find? fun t => t.1 = c.tag with
    | some (t, q, a) => ⟨t, .integrityLost, 0, a, q, 0, 0x12, false⟩
    | none => ⟨c.tag, .integrityLost, 0, c.axis, c.queue, 0, 0x12, false⟩
  else c

/-- The valid entries a pull may return, fixed when its status is latched (R276, R284, R286). -/
def State.pullCount (s : State) (f : HostFrame) : Nat :=
  if !s.dev.ready || f.pq ≠ 0 then 0
  else min s.q.ring.length (if f.addr = 0 then 64 else f.addr.toNat)

/-- The first `k` entries leave the ring, and their tags cease to be live (R285, R294). -/
def State.removeEntries (s : State) (k : Nat) : State :=
  let gone := (s.q.ring.take k).map (·.tag)
  { s with q := ({ s.q with ring := s.q.ring.drop k
                            live := s.q.live.filter fun (t : BitVec 16 × BitVec 4 × Byte) => !gone.contains t.1 }).request }

/-- COMPLETION_PULL: a frame released before its data phase is no error, whatever its PQ (R284, R285, R286). -/
def State.pullFrame (s : State) (f : HostFrame) : State :=
  let ta := s.hp.ta.toNat
  s.hostFrame .pull f fun s =>
    let b := dataBits f ta 1
    let v := s.pullCount f
    let k := min v (b / 128)
    let inside := k < v && 128 * k < b
    let sent := ((s.q.ring.take v).flatMap fun c => (s.sentEntry c).bytes) ++ List.replicate (b / 8 + 1) 0
    ((s.removeEntries k).driveData f ta sent).frameError (cause [(3, b % 8 ≠ 0), (7, f.pq ≠ 0 && b ≠ 0), (8, inside)])

/-- COMPLETION_PULL (R284). -/
def execCompletionPull (f : HostFrame) (s : State) : Host.Outcome State Fault Refusal := .next (s.pullFrame f)

/-- HIRQ_AGE_TIMEOUT: an entry has been in the ring for TMO × 10 µs, and the completion request is raised (R305). -/
def execHirqAgeTimeout (s : State) : Host.Outcome State Fault Refusal :=
  .next (if s.q.tmo ≠ 0 && !s.q.ring.isEmpty then { s with q := { s.q with cplReq := true } } else s)

/-! ### The arbiter (R295) -/

/-- The oldest untaken packet of a queue, when it is eligible. -/
def State.candidate (s : State) (n : QueueId) : Option Packet :=
  match s.q.packets.find? fun (p : Packet) => p.queue = n && p.core.isNone with
  | none => none
  | some p => if s.eligible p then some p else none

/-- The queue after `p` in the turn of Q1 to Q15. -/
def nextQueue (p : QueueId) : QueueId := ⟨p.val % 15 + 1, by omega⟩

/-- The choice among Q1 to Q15, over `k` turns: the packet, and the current queue and credit after it (R295). -/
def State.chooseTurn (s : State) : Nat → QueueId → Nat → Option Packet × QueueId × Nat
  | 0, p, cr => (none, p, cr)
  | k + 1, p, cr =>
    match s.candidate p with
    | some x => if 0 < cr then (some x, p, cr - 1) else s.chooseTurn k (nextQueue p) (s.q.weight[(nextQueue p).val]).toNat
    | none => s.chooseTurn k (nextQueue p) (s.q.weight[(nextQueue p).val]).toNat

/-- The arbiter's choice (R295). -/
def State.choose (s : State) : Option Packet × QueueId × Nat :=
  match s.candidate 0 with
  | some x => (some x, s.q.p, s.q.cr)
  | none => s.chooseTurn 16 s.q.p s.q.cr

/-- The chosen packet goes to a core, which checks it by R293 (R295). -/
def State.give (s : State) (c : CoreId) (p : Packet) : State :=
  let v := s.asyncCheck p
  { s with q := { s.q with packets := s.q.packets.map fun (x : Packet) =>
    if x.seq = p.seq then { x with core := some c, verdict := v } else x } }

/-- Verdicts that may now be given are, and a free core takes the next packet (R295, R297). -/
def State.dispatch (s : State) (c : CoreId) : State :=
  if !s.dispatching then s
  else
    let s1 := State.settle 8 s
    if !s1.coreFree c then s1
    else
      let (x, p, cr) := s1.choose
      let s2 : State := { s1 with q := { s1.q with p := p, cr := cr } }
      match x with
      | none => s2
      | some k => State.settle 8 (s2.give c k)

end Sys2Proof.Machine
end

