-- ==== Sys2Proof/Machine/Commands.lean ====
section
/-! DEFINITION. What every opcode shares: the packet a core holds, the checks of ownership and of fields, and the answer
(12_opcodes.md R309 to R315; 15_reset_lifecycle.md R399). -/
namespace Sys2Proof.Machine
open Sys2Proof

/-! ### Checks in order (R309, R313) -/

/-- One check: whether it fails, with its status and WORD. -/
abbrev Check := Bool × Status × Word

/-- A field at parameter offset `o` is not allowed (R309). -/
def badField (o : Nat) (fails : Bool) : Check := (fails, .rejectParam, BitVec.ofNat 32 (16 + o))

/-- Reserved bytes must be 0; the field is named at its first byte (R309). -/
def reserved (par : List Byte) (o k : Nat) : Check := badField o (uAt par o k ≠ 0)

/-- A condition of the module or of an axis does not allow the command (R302). -/
def badState (fails : Bool) : Check := (fails, .rejectState, noField)

/-- A field's value is not allowed in the present state (R302). -/
def stateField (o : Nat) (fails : Bool) : Check := (fails, .rejectState, BitVec.ofNat 32 (16 + o))

/-- KEY must be 0xC3A5 (R335 to R338). -/
def badKey (par : List Byte) (o : Nat) : Check := (uAt par o 2 ≠ 0xC3A5, .rejectKey, BitVec.ofNat 32 (16 + o))

/-- The first check that fails decides the status and WORD (R313). -/
def firstFailure (l : List Check) : Option (Status × Word) := (l.find? fun c => c.1).map (·.2)

/-! ### The packet of a command (R297, R312) -/

/-- The packet that a core holds, that passed R293, may start now and is the one its row acts on. -/
def State.heldPacket (s : State) (core : CoreId) (mine : Packet → Bool) : Option Packet :=
  s.q.packets.find? fun (p : Packet) => p.core = some core && mine p && p.verdict.isNone && s.canStart p

/-- A packet has an opcode. -/
def isOpc (opc : Nat) (p : Packet) : Bool := p.opc = opc

/-- A group the packet addresses is in reset (R399). -/
def State.groupClosed (s : State) (p : Packet) : Bool :=
  match axisOfByte p.axis with
  | some n => (s.grp (groupOf n)).resetting
  | none =>
    match p.groupId with
    | some g => p.axis = 0xFE && (s.grp g).resetting
    | none => false

/-- The lowest addressed axis that HOST does not own (R312). -/
def State.ownerFault (s : State) (p : Packet) : Option AxisId := (s.addressed p).find? fun n => (s.ax n).prot.owner ≠ .host

/-- Whether an opcode is of class M (R310, R312). -/
def classM (opc : Nat) : Bool := ((opForm opc).map (·.classM)).getD false

/-- A packet completes with a refusal; a broadcast's entry names the axis that failed (R304, R312, R315). -/
def State.refuse (s : State) (p : Packet) (r : Status × Word) (n : Option AxisId) : State :=
  s.complete p.ref r.1 0 ((n.map axByte).getD p.axis) (s.packetMpos p) r.2

/-- DEADLINE belongs to the seven segment opcodes, and BATCH to five of them (R314). A module command with either non-zero
has failed R293 before. -/
def headerChecks (p : Packet) : List Check :=
  let segment := 0x10 ≤ p.opc && p.opc ≤ 0x16
  let batched := segment && p.opc ≠ 0x12 && p.opc ≠ 0x16
  let exempt := p.opc = 0x7F
  [(!exempt && !segment && p.deadline ≠ 0, .rejectParam, 8), (!exempt && !batched && p.batch ≠ 0, .rejectParam, 12)]

/-- What no opcode's own rule decides: a group in reset, ownership, DEADLINE and BATCH (R312, R313, R314, R399). -/
def State.opening (s : State) (p : Packet) : Option ((Status × Word) × Option AxisId) :=
  if s.groupClosed p && p.opc ≠ 0x7F then some ((.rejectState, noField), none)
  else
    match (if classM p.opc then s.ownerFault p else none) with
    | some n => some ((.rejectOwner, 4), some n)
    | none => (firstFailure (headerChecks p)).map fun r => (r, none)

/-- A packet that passed R293 is acted on: it is refused by ownership, or its opcode's own rule `body` decides. -/
def State.act (s : State) (p : Packet) (body : State → Packet → State) : State :=
  match s.opening p with
  | some (r, n) => s.refuse p r n
  | none => body s p

/-- A core starts the command it holds: its packet leaves the ring and the opcode's rule acts (R297). -/
def State.runPacket (s : State) (core : CoreId) (mine : Packet → Bool) (body : State → Packet → State) : State :=
  if s.dispatching then
    match s.heldPacket core mine with
    | none => s
    | some p => (s.dropPacket p.seq).act p body
  else s

/-- A core starts a command by its opcode. -/
def State.runOpcode (s : State) (core : CoreId) (opc : Nat) (body : State → Packet → State) : State :=
  s.runPacket core (isOpc opc) body

/-- Checks that settle a whole packet, then its effect. -/
def State.guarded (s : State) (p : Packet) (checks : List Check) (effect : State → State) : State :=
  match firstFailure checks with
  | some r => s.refuse p r none
  | none => effect s

/-- Checks that settle a whole packet, and so fail on every axis, then checks of every addressed axis in ascending order: when
one fails no axis is changed, and the entry names the lowest that failed (R315). -/
def State.guardedEach (s : State) (p : Packet) (checks : List Check) (each : AxisId → List Check)
    (effect : State → State) : State :=
  match firstFailure checks with
  | some r => s.refuse p r (s.addressed p).head?
  | none =>
    match (s.addressed p).find? fun n => (firstFailure (each n)).isSome with
    | some n => s.refuse p ((firstFailure (each n)).getD (.ok, 0)) (some n)
    | none => effect s

/-- A command completes OK at its start. -/
def State.done (s : State) (p : Packet) (w : Word) : State := s.answer p .ok w

/-- An effect joins those that wait for the next snapshot. -/
def State.addSnap (s : State) (o : SnapOp) : State := { s with q := { s.q with snapOps := s.q.snapOps ++ [o] } }

/-- A command that waits for axes at the next snapshot: the action, then one effect for each axis (R304). -/
def State.atSnapshot (s : State) (p : Packet) (kind : ActKind) (op : AxisId → Nat → SnapOp) : State :=
  let act := s.q.nextAct
  let l := s.addressed p
  let s1 := s.addAction p.ref p.axis kind l
  { s1 with q := { s1.q with snapOps := s1.q.snapOps ++ l.map fun n => op n act } }

end Sys2Proof.Machine
end

