-- ==== Sys2Proof/Machine/Configure.lean ====
section
/-! DEFINITION. ECHO, IDENTIFY, CONFIG_AXIS, CONFIG_GROUP, BIND_MASTER, SET_POSITION and ROUTE_AXIO (12_opcodes.md R316 to
R320; 04_axio_homing.md R112, R113). -/
namespace Sys2Proof.Machine
open Sys2Proof

/-! ### ECHO and IDENTIFY (R316) -/

/-- ECHO: WORD holds parameter bytes 0 to 3, absent ones 0. -/
def echoBody (s : State) (p : Packet) : State := s.done p (wordAt (p.params.take p.plen) 0)

/-- ECHO. -/
def execEcho (core : CoreId) (s : State) : Host.Outcome State Fault Refusal := .next (s.runOpcode core 0x01 echoBody)

/-- IDENTIFY item 4 (R316). -/
def State.bankWord (s : State) : Word :=
  fields [(0, bit (s.mp.runBank && !s.mp.romOnly)), (1, bit s.mp.romOnly), (8, Config.patchLevel.toNat)]

/-- An IDENTIFY item (R316). -/
def State.identifyWord (s : State) (item : Nat) : Word :=
  match item with
  | 0 => 0x00004896
  | 1 => s.idStep
  | 2 => (s.option 8).setWidth 32
  | 3 => s.mp.version
  | 4 => s.bankWord
  | _ => BitVec.ofNat 32 (lcCode s.nvm.lc)

/-- IDENTIFY (R316). -/
def identifyBody (s : State) (p : Packet) : State :=
  let item := (byteAt p.params 0).toNat
  s.guarded p [badField 0 (5 < item), reserved p.params 1 3] fun s => s.done p (s.identifyWord item)

/-- IDENTIFY (R316). -/
def execIdentify (core : CoreId) (s : State) : Host.Outcome State Fault Refusal := .next (s.runOpcode core 0x02 identifyBody)

/-! ### CONFIG_AXIS (R317) -/

/-- The bits of byte 1 that a section leaves reserved, and the top value of a field in it. -/
def sectionFlagsBad (sect : Nat) (b : Byte) : Bool :=
  match sect with
  | 0 => b &&& 0xEC ≠ 0
  | 1 => b &&& 0xFE ≠ 0
  | 2 => b &&& 0xC0 ≠ 0 || 2 < (b.toNat / 16) % 4
  | 3 => b &&& 0xFC ≠ 0
  | _ => 1 < b.toNat

/-- An encoder is routed and DEV_WIN is set while CPRM is 0 (R234). -/
def State.devWinBad (s : State) (n : AxisId) (devWin cprm : Nat) : Bool := s.hasEncoder n && devWin ≠ 0 && cprm = 0

/-- A field outside its range, where 0 leaves the setting unchanged. -/
def outsideOrZero (x lo hi : Nat) : Bool := x ≠ 0 && (x < lo || hi < x)

/-- The checks of a CONFIG_AXIS section that the packet alone settles, in ascending offset (R309, R317). -/
def configChecks (par : List Byte) : List Check :=
  let u := uAt par
  let sect := u 0 1
  let head := [badField 0 (4 < sect), badField 1 (sectionFlagsBad sect (byteAt par 1))]
  match sect with
  | 0 => head ++ [badField 2 (u 2 1 = 0), badField 3 (u 3 1 = 0 || 15 < u 3 1)]
  | 1 => head ++ [reserved par 2 2, badField 4 (1048575 < u 4 4), reserved par 10 2, badField 12 (outsideOrZero (u 12 4) 100 100000),
      badField 16 (outsideOrZero (u 16 4) 10 100000)]
  | 2 => head ++ [badField 2 (u 2 1 = 0), badField 3 (outsideOrZero (u 3 1) 10 90), badField 4 (u 4 2 < 5 || 500 < u 4 2),
      badField 6 (outsideOrZero (u 6 2) 1000 3000), badField 8 (2 ^ 24 ≤ u 8 4 && u 8 4 ≠ 0xFFFFFFFF),
      badField 12 (u 12 2 < 5461 || 16000 < u 12 2), reserved par 14 2, badField 16 (1048575 < u 16 4)]
  | 3 => head ++ [reserved par 2 6, badField 8 (sAt par 8 8 ≤ 0), badField 16 (sAt par 16 8 ≤ 0 || 4611686018427 < sAt par 16 8),
      badField 24 (sAt par 24 8 ≤ 0)]
  | 4 => head ++ [badField 2 (u 2 2 = 0 || 1024 < u 2 2), badField 4 ((u 4 4 = 0 && u 1 1 = 1) || outsideOrZero (u 4 4) 800 (2 ^ 24))]
  | _ => head

/-- The checks of a CONFIG_AXIS section against one axis (R144, R234, R317). -/
def State.configAxisChecks (s : State) (par : List Byte) (n : AxisId) : List Check :=
  let u := uAt par
  let lim := s.ampLimit n
  match u 0 1 with
  | 0 => [badField 4 (lim < u 4 2), badField 6 (u 4 2 < u 6 2), badField 8 (u 8 2 ≠ 0 && (u 8 2 < u 4 2 || lim < u 8 2)),
      badField 10 (u 4 2 < u 10 2), badField 12 (2550 < u 12 2 || u 12 2 % 10 ≠ 0), badField 14 (10000 < u 14 2),
      stateField 1 ((s.ax n).drv.enabled && (byteAt par 1).toNat % 4 ≠ (s.ax n).cfg.tsel.val)]
  | 2 => [badField 16 (s.devWinBad n (u 16 4) (s.ax n).cfg.cprm)]
  | 4 => [badField 4 (s.devWinBad n (s.ax n).cfg.devWin.toNat (u 4 4)), reserved par 14 2, badState (s.ax n).drv.enabled]
  | _ => []

/-- The settings of an axis after a CONFIG_AXIS section (R317). -/
def AxisCfg.config (c : AxisCfg) (par : List Byte) : AxisCfg :=
  let u := uAt par
  let b1 := (byteAt par 1).toNat
  let w16 := fun (o : Nat) => BitVec.ofNat 16 (u o 2)
  match u 0 1 with
  | 0 => { c with tsel := ⟨b1 % 4, by omega⟩, laEn := b1 / 16 % 2 = 1, islew := u 2 1, laDown := u 3 1, irun := w16 4, ihold := w16 6
                  iboost := w16 8, imin := w16 10, tboost := u 12 2, tstand := u 14 2 }
  | 1 => { c with rlive := b1 % 2 = 1, kp := u 4 4, ki := u 8 2, rcoil := if u 12 4 = 0 then c.rcoil else u 12 4
                  lcoil := if u 16 4 = 0 then c.lcoil else u 16 4 }
  | 2 => { c with obsK := BitVec.ofNat 3 b1, slEn := b1 / 8 % 2 = 1, react := BitVec.ofNat 2 (b1 / 16), stallN := BitVec.ofNat 8 (u 2 1)
                  eminp := BitVec.ofNat 7 (u 3 1), finj := BitVec.ofNat 9 (u 4 2), uinj := BitVec.ofNat 12 (u 6 2)
                  ke := if u 8 4 = 0xFFFFFFFF then c.ke else u 8 4, dmax := BitVec.ofNat 14 (u 12 2)
                  devWin := BitVec.ofNat 20 (u 16 4) }
  | 3 => { c with jogEn := b1 % 2 = 1, plugEn := b1 / 2 % 2 = 1, qsdec := sAt par 8 8, jogv := sAt par 16 8, joga := sAt par 24 8
                  pc := sAt par 32 8, pci := sAt par 40 8 }
  | 4 => { c with setpoint := b1 = 1, fspr := u 2 2, cprm := u 4 4, kpp := u 8 2, kip := u 10 2, kdp := u 12 2 }
  | _ => c

/-- KE as a section 2 leaves the learning of it: 0 learns, another value ends learning (R232). -/
def AxisObs.config (o : AxisObs) (par : List Byte) : AxisObs :=
  if uAt par 0 1 = 2 && uAt par 8 4 ≠ 0xFFFFFFFF then
    { o with keLearning := uAt par 8 4 = 0, keSumE := 0, keSumF := 0, keCount := 0 }
  else o

/-- The words of an axis block that a section writes (R414). -/
def sectionWords (sect : Nat) : List Nat :=
  match sect with
  | 0 => [0x09, 0x0A, 0x0B, 0x0C]
  | 2 => [0x08, 0x0D, 0x0E]
  | _ => []

/-- Words of an axis block are written: their parity holds again (R414). -/
def State.healAxis (s : State) (n : AxisId) (l : List Nat) : State :=
  s.forAll l fun s w => s.healWord (4 + (groupOf n).val) (0x40 + 0x30 * (n.val % 4) + w)

/-- One axis takes the settings of a section. -/
def State.configAxis (s : State) (par : List Byte) (n : AxisId) : State :=
  ((s.modCfg n fun c => c.config par).modObs n fun o => o.config par).healAxis n (sectionWords (uAt par 0 1))

/-- CONFIG_AXIS (R317, R315). -/
def configAxisBody (s : State) (p : Packet) : State :=
  s.guardedEach p (configChecks p.params) (s.configAxisChecks p.params) fun s =>
    (s.forAll (s.addressed p) (State.configAxis · p.params)).done p 0

/-- CONFIG_AXIS (R317). -/
def execConfigAxis (core : CoreId) (s : State) : Host.Outcome State Fault Refusal := .next (s.runOpcode core 0x08 configAxisBody)

/-! ### CONFIG_GROUP (R318) -/

/-- The axes of the pairs whose gang setting a CONFIG_GROUP changes (R33). -/
def State.gangChanges (s : State) (g : GroupId) (gang : Byte) : List AxisId :=
  (if (s.grp g).gang01 ≠ gang.getLsbD 0 then [axisAt g 0, axisAt g 1] else [])
    ++ (if (s.grp g).gang23 ≠ gang.getLsbD 1 then [axisAt g 2, axisAt g 3] else [])

/-- The checks of CONFIG_GROUP: the fields that APPLY names, then the state each of them needs (R33, R179, R249, R318). -/
def State.configGroupChecks (s : State) (par : List Byte) (g : GroupId) : List Check :=
  let u := uAt par
  let ap := fun (i : Nat) => (byteAt par 1).getLsbD i
  [badField 0 (ap 0 && 3 < u 0 1), badField 1 (u 1 1 = 0 || 31 < u 1 1), badField 2 (ap 1 && (u 2 1 = 0 || 32 < u 2 1)),
    badField 3 (ap 2 && (u 3 1 < 8 || 32 < u 3 1)), badField 4 (ap 3 && (u 4 1 = 0 || 16 < u 4 1)), badField 5 (ap 4 && u 5 1 = 0),
    badField 6 (ap 4 && 15 < u 6 1), reserved par 7 1,
    stateField 0 (ap 0 && (s.gangChanges g (byteAt par 0)).any fun n => (s.ax n).drv.enabled || (s.ax n).drv.enabling),
    stateField 2 (ap 1 && s.groupEn g)]

/-- A group after CONFIG_GROUP (R318). -/
def Group.config (x : Group) (par : List Byte) : Group :=
  let ap := fun (i : Nat) => (byteAt par 1).getLsbD i
  { x with gang01 := if ap 0 then (byteAt par 0).getLsbD 0 else x.gang01
           gang23 := if ap 0 then (byteAt par 0).getLsbD 1 else x.gang23
           dt := if ap 1 then BitVec.ofNat 6 (uAt par 2 1) else x.dt
           oct := if ap 2 then BitVec.ofNat 6 (uAt par 3 1) else x.oct
           tbl := if ap 3 then BitVec.ofNat 5 (uAt par 4 1) else x.tbl
           trw := if ap 4 then byteAt par 5 else x.trw
           trn := if ap 4 then BitVec.ofNat 4 (uAt par 6 1) else x.trn }

/-- The words of a group page that an APPLY mask writes (R414). -/
def applyWords (apply : Byte) : List Nat :=
  ((List.finRange 5).filter fun i => apply.getLsbD i.val).map fun i => if i.val = 0 then 0x00 else if i.val = 1 then 0x03
    else if i.val = 2 then 0x05 else if i.val = 3 then 0x04 else 0x06

/-- The settings of a group are written; a lead that becomes ganged awaits its DIAGNOSE (R33). -/
def State.configGroup (s : State) (par : List Byte) (g : GroupId) : State :=
  let changed := if (byteAt par 1).getLsbD 0 then s.gangChanges g (byteAt par 0) else []
  let s1 := s.modGroup g fun x => x.config par
  let s2 := s1.forAll changed fun s n => s.modProt n fun p => { p with gangUntested := s.ganged n && n.val % 2 = 0 }
  s2.forAll (applyWords (byteAt par 1)) fun s w => s.healWord (4 + g.val) w

/-- CONFIG_GROUP (R318). -/
def configGroupBody (s : State) (p : Packet) : State :=
  match p.groupId with
  | none => s.refuse p (.rejectAxis, 4) none
  | some g => s.guarded p (s.configGroupChecks p.params g) fun s => (s.configGroup p.params g).done p 0

/-- CONFIG_GROUP (R318). -/
def execConfigGroup (core : CoreId) (s : State) : Host.Outcome State Fault Refusal := .next (s.runOpcode core 0x09 configGroupBody)

/-! ### BIND_MASTER and SET_POSITION (R37, R319) -/

/-- The axis has a running or queued segment. -/
def AxisMotion.hasSegments (a : AxisMotion) : Bool := !a.runs.isEmpty || !a.queue.isEmpty

/-- BIND_MASTER (R37, R319): the binding changes at the next snapshot. -/
def bindBody (s : State) (p : Packet) : State :=
  let m := (byteAt p.params 0).toNat
  s.guardedEach p [badField 0 (7 < m), reserved p.params 1 3] (fun n => [badState (s.ax n).mot.hasSegments]) fun s =>
    s.atSnapshot p .bind fun n act => .bind n (Fin.ofNat 8 m) act

/-- BIND_MASTER (R319). -/
def execBindMaster (core : CoreId) (s : State) : Host.Outcome State Fault Refusal := .next (s.runOpcode core 0x0A bindBody)

/-- SET_POSITION (R319): the position changes at the next snapshot. -/
def setPositionBody (s : State) (p : Packet) : State :=
  s.guardedEach p [] (fun n => [badState ((s.ax n).mot.hasSegments || (s.ax n).mot.jog.isSome)]) fun s =>
    s.atSnapshot p .setPosition fun n act => .setPosition n (sAt p.params 0 8) act

/-- SET_POSITION (R319). -/
def execSetPosition (core : CoreId) (s : State) : Host.Outcome State Fault Refusal :=
  .next (s.runOpcode core 0x0C setPositionBody)

/-! ### ROUTE_AXIO (R112, R113, R320) -/

/-- One routing record: its number, its pin byte, its reserved byte and its entry (R320). -/
structure RouteRecord where
  index : Nat
  pin : Nat
  rsv : Byte
  entry : Word
deriving DecidableEq, Repr

/-- The records of a ROUTE_AXIO, in their order. -/
def routeRecords (par : List Byte) : List RouteRecord :=
  (List.range (byteAt par 2).toNat).map fun i => ⟨i, (byteAt par (4 + 6 * i)).toNat, byteAt par (5 + 6 * i), wordAt par (6 + 6 * i)⟩

/-- The routing table as it would stand after some records (R320). -/
def State.routedTable (s : State) (l : List RouteRecord) : Vector Word 96 :=
  l.foldl (fun t r => if h : r.pin < 96 then t.set r.pin r.entry else t) (s.pins.map fun p => p.entry)

/-- An entry has a reserved bit set, or a reserved AXIS (R113, R309). -/
def entryBad (e : Word) : Bool := bitOf e 7 || bits e 23 17 ≠ 0 || (48 ≤ entryAxis e && entryAxis e ≠ 127)

/-- The pins of a table that serve an axis with a function that passes. -/
def tablePins (t : Vector Word 96) (n : Nat) (f : Nat → Bool) : List PinId :=
  allPins.filter fun p => entryAxis t[p.val] = n && f (entryFunc t[p.val])

/-- The input functions of a pin that no other pin of the axis may name: its own, and 4, 7 and 8 together (R113). -/
def sameInput (f k : Nat) : Bool := f ≠ 0 && f < 13 && (k = f || (isHome f && isHome k))

/-- Whether the functions of an axis in a table break R113: two pins alike, half a quadrature pair, or a home switch that is a
limit beside the limit of the same end. -/
def axisRouteBad (t : Vector Word 96) (n : Nat) : Bool :=
  let has := fun (k : Nat) => !(tablePins t n (· = k)).isEmpty
  ((List.range 13).any fun f => 1 < (tablePins t n (sameInput f)).length && !(tablePins t n (· = f)).isEmpty)
    || has 1 != has 2 || (has 7 && has 5) || (has 8 && has 6)

/-- Whether a record takes part in a failure of the table that stands after the command (R113, R320). -/
def State.recordBad (s : State) (t : Vector Word 96) (r : RouteRecord) : Bool :=
  let old := if h : r.pin < 96 then s.pins[r.pin].entry else 0x7F
  let part := fun (n f : Nat) => f ≠ 0 && n < 48 && axisRouteBad t n &&
    (let has := fun (k : Nat) => !(tablePins t n (· = k)).isEmpty
     (1 < (tablePins t n (sameInput f)).length) || ((f = 1 || f = 2) && has 1 != has 2)
      || ((f = 5 || f = 7) && has 7 && has 5) || ((f = 6 || f = 8) && has 8 && has 6))
  entryBad r.entry || (1 ≤ entryFunc r.entry && entryFunc r.entry ≤ 3 && entryDeb r.entry ≠ 0)
    || part (entryAxis r.entry) (entryFunc r.entry)
    || ((entryFunc old = 1 || entryFunc old = 2) && part (entryAxis old) (entryFunc old))

/-- The checks of one record; a broken routing rule names the record (R113, R320). -/
def State.recordChecks (s : State) (t : Vector Word 96) (l : List RouteRecord) (r : RouteRecord) : List Check :=
  let o := 4 + 6 * r.index
  [badField o (95 < r.pin || (l.take r.index).any fun q => q.pin = r.pin), badField (o + 1) (r.rsv ≠ 0), badField o (s.recordBad t r)]

/-- An entry names an enabled axis, or a pin that serves an enabled axis is to serve another or none (R113). -/
def State.routeBusy (s : State) (r : RouteRecord) : Bool :=
  let on := fun (n : Nat) => if h : n < 48 then (s.ax ⟨n, h⟩).drv.enabled else false
  let old := if h : r.pin < 96 then entryAxis s.pins[r.pin].entry else 127
  on (entryAxis r.entry) || (on old && entryAxis r.entry ≠ old)

/-- A bank whose threshold changes holds a pin that serves an enabled axis (R320). -/
def State.bankBusy (s : State) (mask hv : Byte) : Bool :=
  (List.finRange 6).any fun b => mask.getLsbD b.val && hv.getLsbD b.val != s.dev.bankHv.getLsbD b.val &&
    allPins.any fun p => p.val / 16 = b.val &&
      (match (s.pin p).axis? with
      | some n => (s.ax n).drv.enabled
      | none => false)

/-- The checks of ROUTE_AXIO (R113, R320). -/
def State.routeChecks (s : State) (par : List Byte) : List Check :=
  let l := routeRecords par
  let t := s.routedTable l
  [badField 0 (63 < uAt par 0 1), badField 1 (63 < uAt par 1 1), badField 2 (39 < uAt par 2 1), reserved par 3 1]
    ++ l.flatMap (s.recordChecks t l)
    ++ [badState (l.any s.routeBusy), badState (s.bankBusy (byteAt par 0) (byteAt par 1))]

/-- A pin takes a new entry. A change that was pending on an output is forgotten; an input that comes from an output takes
its raw level as qualified, and routing is no edge (R111, R116). -/
def Pin.route (p : Pin) (e : Word) : Pin :=
  let out := isOutput p.func
  let q := { p with entry := e, routed := p.routed || entryAxis e < 48 }
  if isOutput q.func then { q with tFirst := none, active := false, pulse := 0, blink := 0, next := false }
  else if out then
    { q with qual := p.raw, acted := p.raw, tFirst := none, active := false, sink := false, pulse := 0, blink := 0, next := false }
  else { q with acted := p.qual }

/-- A bank takes its threshold. -/
def routeBanks (old : BitVec 6) (mask hv : Byte) : BitVec 6 :=
  (old &&& ~~~ mask.setWidth 6) ||| (hv.setWidth 6 &&& mask.setWidth 6)

/-- One pin takes its entry; a quadrature input starts from the level its pin has (R114), a position compare from the position of its
axis (R122), and an inactive plug-sense pin sets UNPLUGGED (R137). -/
def State.routePin (s : State) (pin : PinId) (e : Word) : State :=
  let s1 := s.modPin pin fun p => p.route e
  let q := s1.pin pin
  match q.axis? with
  | none => s1
  | some n => if q.func = 1 then s1.modEnc n fun x => { x with a := q.level }
    else if q.func = 2 then s1.modEnc n fun x => { x with b := q.level }
    else if q.func = 15 then s1.modPin pin fun x => { x with lastEl := (s.ax n).mot.pos + (s.ax n).mot.poff }
    else if q.func = 11 && !q.isOn then s1.setPlug n .unplugged
    else s1

/-- ROUTE_AXIO takes effect (R320). -/
def State.route (s : State) (par : List Byte) : State :=
  let s1 := s.forAll (routeRecords par) fun s r => if h : r.pin < 96 then s.routePin ⟨r.pin, h⟩ r.entry else s
  { s1 with dev := { s1.dev with bankHv := routeBanks s1.dev.bankHv (byteAt par 0) (byteAt par 1) } }

/-- ROUTE_AXIO (R320). -/
def routeBody (s : State) (p : Packet) : State := s.guarded p (s.routeChecks p.params) fun s => (s.route p.params).done p 0

/-- ROUTE_AXIO (R320). -/
def execRouteAxio (core : CoreId) (s : State) : Host.Outcome State Fault Refusal := .next (s.runOpcode core 0x0B routeBody)

end Sys2Proof.Machine
end

