-- ==== Sys2Proof/Machine/Segments.lean ====
section
/-! DEFINITION. The seven segment opcodes, SET_SPEED, SET_ACCEL and the two operations of BATCH_DEFINE (12_opcodes.md R321 to
R324; 03_motion_segments.md R71, R80, R103 to R105). -/
namespace Sys2Proof.Machine
open Sys2Proof

/-! ### BATCH_DEFINE (R103, R105, R321) -/

/-- The first non-zero byte among `k` reserved bytes is named (R321). -/
def reservedByte (par : List Byte) (o k : Nat) : List Check := (List.range k).map fun i => reserved par (o + i) 1

/-- A live batch by its id. -/
def State.batch? (s : State) (id : Nat) : Option Batch := s.q.batches.find? fun (b : Batch) => b.id.toNat = id

/-- The checks of a declaration, in ascending offset and then by state and resources (R321). -/
def State.declareChecks (s : State) (par : List Byte) : List Check :=
  let u := uAt par
  let mask : BitVec 48 := BitVec.ofNat 48 (u 16 6)
  let otherMaster := match s.batch? (u 2 2) with
    | some b => b.master.val ≠ u 4 1
    | none => false
  [badField 5 (1 < u 5 1), badField 0 (u 0 2 = 0), badField 2 (u 2 2 ≠ 0 && (u 2 2 = u 0 2 || otherMaster)), badField 4 (7 < u 4 1)]
    ++ reservedByte par 6 2
    ++ [badField 16 (u 16 6 = 0 || allAxes.any fun n => inMask mask n && s.isPartner n)]
    ++ reservedByte par 22 2
    ++ [stateField 0 (s.batch? (u 0 2)).isSome, (64 ≤ s.q.batches.length, .busy, 0)]

/-- A declared batch (R103). -/
def declared (par : List Byte) : Batch :=
  { id := BitVec.ofNat 16 (uAt par 0 2), pred := BitVec.ofNat 16 (uAt par 2 2), master := Fin.ofNat 8 (uAt par 4 1)
    start := if uAt par 8 4 = 0 then none else some (wordAt par 8), ovlMax := wordAt par 12, mask := BitVec.ofNat 48 (uAt par 16 6)
    contributed := 0, closed := false, tails := [], ends := [], emptyAt := none }

/-- A declared batch whose predecessor is not live has none (R321). -/
def State.declaredIn (s : State) (par : List Byte) : Batch :=
  let b := declared par
  if (s.batch? b.pred.toNat).isSome then b else { b with pred := 0 }

/-- BATCH_DEFINE with OP 0, or with an OP that is refused (R103, R321). -/
def batchDefineBody (s : State) (p : Packet) : State :=
  s.guarded p (s.declareChecks p.params) fun s =>
    ({ s with q := { s.q with batches := s.q.batches ++ [s.declaredIn p.params] } }).done p 0

/-- The checks of a close: every field but ID and OP is 0, and ID is live (R321). -/
def State.closeChecks (s : State) (par : List Byte) : List Check :=
  [reserved par 2 2, reserved par 4 1, reserved par 6 2, reserved par 8 4, reserved par 12 4, reserved par 16 6, reserved par 22 2,
    stateField 0 (s.batch? (uAt par 0 2)).isNone]

/-- BATCH_DEFINE with OP 1: the batch closes at the next snapshot (R105, R321). -/
def batchCloseBody (s : State) (p : Packet) : State :=
  s.guarded p (s.closeChecks p.params) fun s => (s.addSnap (.closeBatch (BitVec.ofNat 16 (uAt p.params 0 2)))).done p 0

/-- A BATCH_DEFINE packet that closes a batch. -/
def isClose (p : Packet) : Bool := isOpc 0x20 p && byteAt p.params 5 = 1

/-- BATCH_DEFINE (R103). -/
def execBatchDefine (core : CoreId) (s : State) : Host.Outcome State Fault Refusal :=
  .next (s.runPacket core (fun p => isOpc 0x20 p && !isClose p) batchDefineBody)

/-- BATCH_CLOSE (R105). -/
def execBatchClose (core : CoreId) (s : State) : Host.Outcome State Fault Refusal := .next (s.runPacket core isClose batchCloseBody)

/-! ### The parameters of segments (R80, R322) -/

/-- A magnitude must be positive (R80, R309). -/
def notPositive (par : List Byte) (o : Nat) : Check := badField o (sAt par o 8 ≤ 0)

/-- A length in mc is at most 2^31 − 1 (R80). -/
def tooLong (par : List Byte) (o least : Nat) : Check := badField o (uAt par o 4 < least || 2 ^ 31 ≤ uAt par o 4)

/-- The field checks of a segment opcode, in ascending offset (R80, R131, R322). -/
def segmentFields (opc : Nat) (par : List Byte) : List Check :=
  match opc with
  | 0x10 => [notPositive par 8, notPositive par 16, notPositive par 24, tooLong par 32 0]
  | 0x11 => [notPositive par 8, notPositive par 16, notPositive par 24, tooLong par 32 0]
  | 0x12 => [badField 0 (sAt par 0 8 = 0), notPositive par 8, notPositive par 16, tooLong par 24 0]
  | 0x13 => [badField 0 (sAt par 0 8 = 0), tooLong par 8 1, tooLong par 12 0, tooLong par 16 0, badField 24 (1 < uAt par 24 1), reserved par 25 3]
  | 0x14 => [badField 0 (sAt par 0 8 = 0), notPositive par 8, badField 16 (sAt par 16 8 ≤ 0 || sAt par 8 8 < sAt par 16 8),
      badField 24 (sAt par 24 8 < 1 || |sAt par 0 8| < sAt par 24 8), notPositive par 32, reserved par 44 4]
  | 0x15 => [tooLong par 0 1, badField 8 (1 < uAt par 8 1), reserved par 9 3]
  | 0x16 => [badField 0 (1 < uAt par 0 1), reserved par 1 3, tooLong par 4 0, notPositive par 8,
      badField 16 (sAt par 16 8 ≤ 0 || sAt par 8 8 < sAt par 16 8), notPositive par 24, notPositive par 32, badField 40 (sAt par 40 8 < 0)]
  | _ => []

/-- The planning inputs a segment opcode carries (R322). -/
def segmentKind (opc : Nat) (par : List Byte) : SegKind :=
  let s := fun (o : Nat) => sAt par o 8
  let u := fun (o : Nat) => uAt par o 4
  match opc with
  | 0x10 => .moveAbs (s 0) (s 8) (s 16) (s 24) (u 32)
  | 0x11 => .moveRel (s 0) (s 8) (s 16) (s 24) (u 32)
  | 0x12 => .velocity (s 0) (s 8) (s 16) (u 24)
  | 0x13 => .gear (s 0) (u 8) (u 12) (u 16) ((byteAt par 24).getLsbD 0)
  | 0x14 => .dose (s 0) (s 8) (s 16) (s 24) (s 32)
  | 0x15 => .hold (u 0) ((byteAt par 8).getLsbD 0)
  | _ => .home ((byteAt par 0).getLsbD 0) (u 4) (s 8) (s 16) (s 24) (s 32) (s 40) (s 48)

/-- The parameter offset of START; a HOME has none (R322). -/
def startOffset (opc : Nat) : Option Nat :=
  match opc with
  | 0x10 => some 36
  | 0x11 => some 36
  | 0x12 => some 28
  | 0x13 => some 20
  | 0x14 => some 40
  | 0x15 => some 4
  | _ => none

/-- START of a segment; 0 means none (R63, R322). -/
def segmentStart (opc : Nat) (par : List Byte) : Option Word :=
  match startOffset opc with
  | none => none
  | some o => if wordAt par o = 0 then none else some (wordAt par o)

/-! ### The conditions of a segment (R103, R322, R548) -/

/-- A DISABLE of the axis is in progress, from its start (R548). -/
def State.disablingNow (s : State) (n : AxisId) : Bool :=
  (s.ax n).drv.disabling || s.q.snapOps.any fun o => match o with
    | .disable k _ => k = n
    | _ => false

/-- SUPPLY with its word, while the axis's group is in SUPPLY_HOLD (R243, R327). -/
def State.supplyCheck (s : State) (n : AxisId) : Check :=
  let g := s.grp (groupOf n)
  (g.supplyHold, .supply, BitVec.ofNat 32 g.lockout.toNat)

/-- THERMAL with its word, while the axis's group is shut down (R327, R445). -/
def State.thermalCheck (s : State) (n : AxisId) : Check :=
  let g := s.grp (groupOf n)
  (g.thermSd, .thermal, g.temp.signExtend 32)

/-- A segment may not name the batch: it is not defined, the axis is not in its mask, or has contributed already (R103, R105). -/
def State.notMember (s : State) (n : AxisId) (id : Nat) : Bool :=
  id ≠ 0 && (match s.batch? id with
    | none => true
    | some b => b.closed || !inMask b.mask n || inMask b.contributed n)

/-- The batch is on another master than the axis (R103). -/
def State.otherMaster (s : State) (n : AxisId) (id : Nat) : Bool :=
  match s.batch? id with
  | none => false
  | some b => b.master ≠ (s.ax n).mot.master

/-- The routing checks of a HOME (R126, R322). -/
def State.homeChecks (s : State) (n : AxisId) (opc : Nat) (positive : Bool) : List Check :=
  if opc ≠ 0x16 then []
  else
    match s.homePin n with
    | none => [badState true]
    | some q => [badField 0 (((s.pin q).func = 7 && positive) || ((s.pin q).func = 8 && !positive))]

/-- Occupied entries of an axis's segment queue (R71). -/
def AxisMotion.occupied (a : AxisMotion) : Nat := a.queue.length + a.runs.length

/-- Every check of a segment opcode on axis `n` (R313, R322). -/
def State.segmentChecks (s : State) (p : Packet) (n : AxisId) : List Check :=
  let id := p.batch.toNat
  let x := s.ax n
  ([(s.notMember n id, .rejectParam, 12)] : List Check) ++ segmentFields p.opc p.params
    ++ ([s.supplyCheck n, s.thermalCheck n, badState (!x.drv.enabled || s.disablingNow n),
      (s.otherMaster n id, .rejectState, 12)] : List Check)
    ++ s.homeChecks n p.opc ((byteAt p.params 0).getLsbD 0)
    ++ ([(16 ≤ x.mot.occupied, .busy, outWord x.mot.out)] : List Check)

/-- The segment a packet describes (R73). -/
def Packet.segment (p : Packet) : Segment :=
  { ref := p.ref, kind := segmentKind p.opc p.params, overlap := p.overlap
    deadline := if p.deadline = 0 then none else some p.deadline, start := segmentStart p.opc p.params, batch := p.batch
    flags := {}, seen := false, blendOk := false }

/-- A batch gains its member (R103). -/
def State.contribute (s : State) (n : AxisId) (id : BitVec 16) : State :=
  if id = 0 then s
  else { s with q := { s.q with batches := s.q.batches.map fun (b : Batch) =>
    if b.id = id then { b with contributed := b.contributed ||| BitVec.ofNat 48 (2 ^ n.val) } else b } }

/-- A descriptor is written into the axis's segment queue (R71, R297). -/
def State.enqueue (s : State) (n : AxisId) (g : Segment) : State :=
  (s.modMot n fun a => { a with queue := a.queue ++ [g] }).contribute n g.batch

/-- A segment opcode on its axis (R322). -/
def segmentBody (s : State) (p : Packet) : State :=
  match axisOfByte p.axis with
  | none => s.refuse p (.rejectAxis, 4) none
  | some n => s.guarded p (s.segmentChecks p n) fun s => s.enqueue n p.segment

/-- MOVE_ABS (R322). -/
def execMoveAbs (core : CoreId) (s : State) : Host.Outcome State Fault Refusal := .next (s.runOpcode core 0x10 segmentBody)

/-- MOVE_REL (R322). -/
def execMoveRel (core : CoreId) (s : State) : Host.Outcome State Fault Refusal := .next (s.runOpcode core 0x11 segmentBody)

/-- VELOCITY (R322). -/
def execVelocity (core : CoreId) (s : State) : Host.Outcome State Fault Refusal := .next (s.runOpcode core 0x12 segmentBody)

/-- GEAR (R322). -/
def execGear (core : CoreId) (s : State) : Host.Outcome State Fault Refusal := .next (s.runOpcode core 0x13 segmentBody)

/-- DOSE (R322). -/
def execDose (core : CoreId) (s : State) : Host.Outcome State Fault Refusal := .next (s.runOpcode core 0x14 segmentBody)

/-- HOLD (R322). -/
def execHold (core : CoreId) (s : State) : Host.Outcome State Fault Refusal := .next (s.runOpcode core 0x15 segmentBody)

/-- HOME (R322). -/
def execHome (core : CoreId) (s : State) : Host.Outcome State Fault Refusal := .next (s.runOpcode core 0x16 segmentBody)

/-! ### SET_SPEED and SET_ACCEL (R324) -/

/-- SET_SPEED: V is positive; the running segment is checked and changed at the next snapshot (R94, R95, R324). -/
def setSpeedBody (s : State) (p : Packet) : State :=
  s.guarded p [notPositive p.params 0] fun s => s.atSnapshot p .setSpeed fun n act => .setSpeed n (sAt p.params 0 8) act

/-- SET_SPEED (R324). -/
def execSetSpeed (core : CoreId) (s : State) : Host.Outcome State Fault Refusal := .next (s.runOpcode core 0x18 setSpeedBody)

/-- SET_ACCEL: ACC and DEC are positive or 0, and not both 0 (R94, R95, R324). -/
def setAccelBody (s : State) (p : Packet) : State :=
  let a := sAt p.params 0 8
  let d := sAt p.params 8 8
  s.guarded p [badField 0 (a < 0), badField 8 (d < 0), (a = 0 && d = 0, .rejectParam, noField)] fun s =>
    s.atSnapshot p .setAccel fun n act => .setAccel n a d act

/-- SET_ACCEL (R324). -/
def execSetAccel (core : CoreId) (s : State) : Host.Outcome State Fault Refusal := .next (s.runOpcode core 0x19 setAccelBody)

end Sys2Proof.Machine
end

