-- ==== Sys2Proof/Machine/Actions.lean ====
section
/-! DEFINITION. STOP, QUICKSTOP, DISABLE, ENABLE, FLUSH, DIAGNOSE, IDENTIFY_MOTOR, STOP_ALL and the read-outs (12_opcodes.md
R324 to R329, R339, R548; 11_queues_packets.md R299). -/
namespace Sys2Proof.Machine
open Sys2Proof

/-! ### STOP and QUICKSTOP (R96 to R99, R299, R324) -/

/-- The packets that a STOP or QUICKSTOP with FLUSH covers: the single-axis ones of its axis, or of every axis of its group, a gang
partner's too, and for a broadcast the broadcasts to its group (R299). -/
def Packet.covers (p o : Packet) : Bool :=
  match axisOfByte o.axis with
  | some n => axisOfByte p.axis = some n || (p.axis = 0xFE && p.group = (groupOf n).val)
  | none => p.axis = 0xFE && o.axis = 0xFE && o.group = p.group

/-- STOP or QUICKSTOP: unstarted packets are flushed at once, the axes stop at the next snapshot (R96, R97, R299). -/
def stopBody (quick : Bool) (s : State) (p : Packet) : State :=
  let l := s.addressed p
  let s1 := if p.flush then (s.flushPackets p.seq p.covers).endStreamOn l else s
  s1.atSnapshot p (if quick then .quickstop else .stop) fun n act => .stop n quick p.flush act

/-- STOP (R324). -/
def execStop (core : CoreId) (s : State) : Host.Outcome State Fault Refusal := .next (s.runOpcode core 0x1A (stopBody false))

/-- QUICKSTOP (R324). -/
def execQuickstop (core : CoreId) (s : State) : Host.Outcome State Fault Refusal := .next (s.runOpcode core 0x1B (stopBody true))

/-! ### DISABLE (R324, R325, R548) -/

/-- DISABLE of one axis starts: an axis that is enabled, or whose ENABLE waits, is taken up at the next snapshot; another ends
at once (R324, R325). -/
def State.startDisable (s : State) (n : AxisId) (act : Nat) : State :=
  let d := (s.ax n).drv
  if s.disablingNow n then s
  else if d.enabled then s.addSnap (.disable n act)
  else if d.enabling then (s.dropEnergise n).addSnap (.disable n act)
  else s.actionAxis act ⟨n, .ok, 0, none⟩ 0 false

/-- DISABLE (R324): it ends a stream as a flushing stop does. -/
def disableBody (s : State) (p : Packet) : State :=
  let l := s.addressed p
  let act := s.q.nextAct
  ((s.endStreamOn l).addAction p.ref p.axis .disable l).forAll l fun s n => s.startDisable n act

/-- DISABLE (R324). -/
def execDisable (core : CoreId) (s : State) : Host.Outcome State Fault Refusal := .next (s.runOpcode core 0x1C disableBody)

/-! ### ENABLE (R325) -/

/-- A DIAGNOSE of the axis waits or runs (R244). -/
def State.diagnosing (s : State) (n : AxisId) : Bool :=
  let g := s.grp (groupOf n)
  (g.diag.map (·.1)) = some n || g.diagQueue.any fun d => d.1 = n

/-- What makes ENABLE of an axis complete REJECT_STATE (R33, R138, R165, R244, R247, R390, R410, R548); a link fault and a parity
fault keep an axis off until CLEAR_FAULT too (R17, R414; notes/assumptions/32.md). A host-driven group is no such ground: the axis is
enabled and its EN follows HEN (R193; DEDUCED, notes/assumptions/114.md). -/
def State.enableBarred (s : State) (n : AxisId) : Bool :=
  let x := s.ax n
  (s.ganged n && x.prot.gangUntested) || (x.cfg.plugEn && (x.prot.plug = .unplugged || x.prot.plug = .plugFault))
    || (x.cfg.setpoint && !s.hasEncoder n) || x.prot.diagFail || s.diagnosing n || s.disablingNow n
    || s.tables[x.cfg.tsel].invalid || s.dev.safeHold || x.prot.parity || (s.grp (groupOf n)).link || (s.grp (groupOf n)).par

/-- The state conditions of ENABLE, in their order (R325). -/
def State.enableChecks (s : State) (n : AxisId) : List Check :=
  let p := (s.ax n).prot
  [(s.dev.safeAct, .safeOff, BitVec.ofNat 32 (bit (!s.dev.safeA) + 2 * bit (!s.dev.safeB))), s.supplyCheck n, s.thermalCheck n,
    (p.latched || p.shareErr, .driveFault, p.faultWord), badState (s.enableBarred n)]

/-- ENABLE of one axis starts (R325): it is refused, or ends at once on an enabled axis, or the axis is energised at the next
boundary; one that waits already is joined. -/
def State.startEnable (s : State) (n : AxisId) (act : Nat) : State :=
  match firstFailure (s.enableChecks n) with
  | some (st, w) => s.actionAxis act ⟨n, st, w, none⟩ 0 false
  | none =>
    let d := (s.ax n).drv
    if d.enabling then s
    else if d.enabled then s.actionAxis act ⟨n, .ok, 0, none⟩ 0 false
    else (s.modDrv n fun d => { d with enabling := true }).addSnap (.energise n)

/-- ENABLE (R325). -/
def enableBody (s : State) (p : Packet) : State :=
  let l := s.addressed p
  let act := s.q.nextAct
  (s.addAction p.ref p.axis .enable l).forAll l fun s n => s.startEnable n act

/-- ENABLE (R325). -/
def execEnable (core : CoreId) (s : State) : Host.Outcome State Fault Refusal := .next (s.runOpcode core 0x1D enableBody)

/-! ### FLUSH and DIAGNOSE (R98, R244, R326) -/

/-- FLUSH: every queued segment completes FLUSHED, and a stream onto the axis ends (R98, R331). -/
def flushBody (s : State) (p : Packet) : State :=
  let l := s.addressed p
  ((s.endStreamOn l).forAll l fun s n => s.flushQueue n .flushed).done p 0

/-- FLUSH (R98). -/
def execFlush (core : CoreId) (s : State) : Host.Outcome State Fault Refusal := .next (s.runOpcode core 0x1E flushBody)

/-- DIAGNOSE of one axis waits for its group; where none runs, its steps begin (R244). -/
def State.startDiagnose (s : State) (n : AxisId) (act : Nat) : State :=
  let g := groupOf n
  let s1 := s.modGroup g fun x => { x with diagQueue := x.diagQueue ++ [(n, act)] }
  if (s1.grp g).diag.isNone then s1.nextDiag 64 g else s1

/-- DIAGNOSE (R244, R326). -/
def diagnoseBody (s : State) (p : Packet) : State :=
  let l := s.addressed p
  let act := s.q.nextAct
  (s.addAction p.ref p.axis .diagnose l).forAll l fun s n => s.startDiagnose n act

/-- DIAGNOSE (R244). -/
def execDiagnose (core : CoreId) (s : State) : Host.Outcome State Fault Refusal := .next (s.runOpcode core 0x28 diagnoseBody)

/-! ### IDENTIFY_MOTOR (R328) -/

/-- The checks of IDENTIFY_MOTOR (R328). -/
def State.identChecks (s : State) (par : List Byte) (n : AxisId) : List Check :=
  let x := s.ax n
  [badField 0 (uAt par 0 2 < 100 || 4000 < uAt par 0 2), badField 2 (1 < uAt par 2 1), reserved par 3 1,
    badState (!x.drv.enabled || x.cfg.setpoint || x.mot.hasSegments || x.mot.jog.isSome
      || x.prot.ident.isSome)]

/-- IDENTIFY_MOTOR starts: 300 frames follow (R328). -/
def identifyMotorBody (s : State) (p : Packet) : State :=
  match axisOfByte p.axis with
  | none => s.refuse p (.rejectAxis, 4) none
  | some n => s.guarded p (s.identChecks p.params n) fun s =>
      let i : IdentState := { ref := p.ref, itest := uAt p.params 0 2, wgain := (byteAt p.params 2).getLsbD 0, frame := 0, suA := 0
                              siA := 0, suB := 0, siB := 0, i0A := 0, i0B := 0, diA := 0, diB := 0, amp := (s.ax n).drv.sel.amp }
      s.modProt n fun x => { x with ident := some i }

/-- IDENTIFY_MOTOR (R328). -/
def execIdentifyMotor (core : CoreId) (s : State) : Host.Outcome State Fault Refusal :=
  .next (s.runOpcode core 0x29 identifyMotorBody)

/-! ### READ_AXIS and READ_GROUP (R329) -/

/-- The checks of a read: `bound` is the number of values ARG may take, none for an unlisted ITEM (R329). -/
def readChecks (par : List Byte) (bound : Option Nat) : List Check :=
  [badField 0 bound.isNone, badField 1 (1 < uAt par 1 1), badField 2 (bound.getD 1 ≤ uAt par 2 1), reserved par 3 1]

/-- READ_AXIS: SNAP 1 answers from the set latched last, SNAP 0 latches at the next frame (R329). -/
def readAxisBody (s : State) (p : Packet) : State :=
  match axisOfByte p.axis with
  | none => s.refuse p (.rejectAxis, 4) none
  | some n =>
    let item := uAt p.params 0 1
    s.guarded p (readChecks p.params (if item < 28 then some 1 else none)) fun s =>
      let i : Fin 28 := Fin.ofNat 28 item
      if (byteAt p.params 1).getLsbD 0 then s.done p (s.ax n).prot.latchSet[i.val] else s.addSnap (.readAxis n i p.ref)

/-- READ_AXIS (R329). -/
def execReadAxis (core : CoreId) (s : State) : Host.Outcome State Fault Refusal := .next (s.runOpcode core 0x2A readAxisBody)

/-- READ_GROUP (R329). -/
def readGroupBody (s : State) (p : Packet) : State :=
  match p.groupId with
  | none => s.refuse p (.rejectAxis, 4) none
  | some g =>
    let item := groupItem (uAt p.params 0 1)
    s.guarded p (readChecks p.params (item.map fun i => max 1 i.2)) fun s =>
      let i := (item.map (·.1)).getD 0 + uAt p.params 2 1
      if (byteAt p.params 1).getLsbD 0 then s.done p ((s.grp g).latchSet.getD i 0) else s.addSnap (.readGroup g i p.ref)

/-- READ_GROUP (R329). -/
def execReadGroup (core : CoreId) (s : State) : Host.Outcome State Fault Refusal := .next (s.runOpcode core 0x2B readGroupBody)

/-! ### STOP_ALL (R98, R299, R306, R339) -/

/-- STOP_ALL (R98). -/
def execStopAll (core : CoreId) (s : State) : Host.Outcome State Fault Refusal :=
  .next (s.runOpcode core 0x7F fun s p => s.startStopAll p.ref p.seq)

end Sys2Proof.Machine
end

