-- ==== Sys2Proof/Machine/Memory.lean ====
section
/-! DEFINITION. The flash contents as a list of cells in one canonical form: addresses strictly rising, and no cell that holds
what an unlisted address reads as, the erased value (14_memory_port.md R365, R368; notes/assumptions/16.md). -/
namespace Sys2Proof.Machine
open Sys2Proof

/-- What an unlisted address of a present device reads as: an erased byte. -/
def erasedByte : Byte := 0xFF

/-- The byte at an address. -/
def cellGet (m : List Host.Cell) (a : Nat) : Byte :=
  match m with
  | [] => erasedByte
  | (b, v) :: rest => if a < b then erasedByte else if a = b then v else cellGet rest a

/-- The contents with one byte written; the erased value is not listed. -/
def cellSet (m : List Host.Cell) (a : Nat) (v : Byte) : List Host.Cell :=
  match m with
  | [] => if v = erasedByte then [] else [(a, v)]
  | (b, w) :: rest =>
    if a < b then (if v = erasedByte then (b, w) :: rest else (a, v) :: (b, w) :: rest)
    else if a = b then (if v = erasedByte then rest else (a, v) :: rest)
    else (b, w) :: cellSet rest a v

/-- The bytes of a list written from an address on. -/
def cellWrite (m : List Host.Cell) (a : Nat) (l : List Byte) : List Host.Cell :=
  match l with
  | [] => m
  | v :: vs => cellWrite (cellSet m a v) (a + 1) vs

/-- `k` bytes from an address on are erased. -/
def cellErase (m : List Host.Cell) (a k : Nat) : List Host.Cell := m.filter fun c => c.1 < a || a + k ≤ c.1

/-- Every address of a list of cells is above `a`. -/
def above (a : Nat) (m : List Host.Cell) : Bool := m.all fun c => a < c.1

/-- The canonical form. -/
def Memory.wf (m : List Host.Cell) : Bool :=
  match m with
  | [] => true
  | (a, v) :: rest => above a rest && v ≠ erasedByte && Memory.wf rest

end Sys2Proof.Machine
end

