-- ==== Sys2Proof/Machine/Flash.lean ====
section
/-! DEFINITION. The memory port: flash reads with the encrypted region, firmware images, microstep tables and recipe libraries
(14_memory_port.md R363 to R376; 12_opcodes.md R330, R331; 16_integrity.md R408, R410). -/
namespace Sys2Proof.Machine
open Sys2Proof

/-! ### Access to the flash (R365, R366, R375) -/

/-- Bytes of a device as its table gives them; none where no table was read (R364). -/
def density (t : Option Sfdp) : Nat := (t.map (·.density)).getD 0

/-- `k` bytes at a flash address lie on a present device, within its density (R365). -/
def State.flashThere (s : State) (a k : Nat) : Bool :=
  if a < 2 ^ 31 then s.mp.dev0 && a + k ≤ density s.mp.chip0 else s.mp.dev1 && a - 2 ^ 31 + k ≤ density s.mp.chip1

/-- A flash address lies in the encrypted region (R375). -/
def State.encrypted (s : State) (a : Nat) : Bool := s.dev.opts[6].toNat ≤ a && a < s.dev.opts[6].toNat + s.dev.opts[7].toNat

/-- The key of the encrypted region; open while none is loaded (notes/assumptions/31.md). -/
def State.regionKey (s : State) : List Byte := s.nvm.devKey.getD ((List.range 16).map Config.absentKey)

/-- The counter block of the 16 bytes at a flash address (R375). -/
def State.counterBlock (s : State) (a : Nat) : List Byte :=
  wordBytes s.dev.opts[8] ++ wordBytes s.dev.opts[9] ++ (leBytes 8 (a % 2 ^ 31 / 16)).reverse

/-- One byte as the prefetch path gives it (R375). -/
def State.flashByte (s : State) (a : Nat) : Byte :=
  let c := cellGet s.mp.flash a
  if s.encrypted a then c ^^^ byteAt (aes128 s.regionKey (s.counterBlock a)) (a % 16) else c

/-- A read of `k` bytes; none where it fails (R365). -/
def State.flashRead (s : State) (a k : Nat) : Option (List Byte) :=
  if s.flashThere a k then some ((List.range k).map fun i => s.flashByte (a + i)) else none

/-- FL_ERR is set (R491). -/
def State.flashError (s : State) : State := { s with mp := { s.mp with flErr := true } }

/-- The base address of a bank (R366). -/
def State.bankBase (s : State) (bankB : Bool) : Nat := (if bankB then s.dev.opts[5] else s.dev.opts[4]).toNat

/-- Bytes of a bank (R366). -/
def bankSize : Nat := 0x40000

/-- Two stretches of addresses overlap. -/
def rangesMeet (a k b l : Nat) : Bool := a < b + l && b < a + k

/-- CFG_ERR: the banks overlap each other or the encrypted region, or one lies on an absent device (R366). -/
def State.layoutBad (s : State) : Bool :=
  let a := s.bankBase false
  let b := s.bankBase true
  let e := s.dev.opts[6].toNat
  let k := s.dev.opts[7].toNat
  let absent := fun (x : Nat) => if x < 2 ^ 31 then !s.mp.dev0 else !s.mp.dev1
  rangesMeet a bankSize b bankSize || (k ≠ 0 && (rangesMeet a bankSize e k || rangesMeet b bankSize e k)) || absent a || absent b

/-! ### Discovery, lanes and addresses (R363 to R365) -/

/-- A device qualifies: a valid signature, both erase sizes, pages of 256 bytes (R364). -/
def qualifies (t : Sfdp) : Bool := t.signature && t.erase4k.isSome && t.erase64k.isSome && t.pageSize = 256

/-- Discovery: a select with no qualifying device is absent, and the layout is judged (R364, R366). -/
def State.discover (s : State) : State :=
  let ok := fun (t : Option Sfdp) => (t.map qualifies).getD false
  let s1 : State := { s with mp := { s.mp with dev0 := ok s.mp.chip0, dev1 := ok s.mp.chip1 } }
  { s1 with mp := { s1.mp with cfgErr := s1.layoutBad } }

/-- The device that a flash address selects, false device 0 (R365). -/
def flashDevice (a : Nat) : Bool := 2 ^ 31 ≤ a

/-- The table of the device at an address. -/
def MemPort.chip (m : MemPort) (a : Nat) : Option Sfdp := if flashDevice a then m.chip1 else m.chip0

/-- The widest width that MP_LANES and a device's table both allow (R363). -/
def flashWidth (lanes : Nat) (t : Sfdp) : Nat :=
  if 4 ≤ lanes && (t.read114.isSome || t.read144.isSome) then 4
  else if 2 ≤ lanes && (t.read112.isSome || t.read122.isSome) then 2
  else 1

/-- The fast read of a width: with the address on all its lanes where the device has that one (R363, R364). -/
def fastReadOf (t : Sfdp) (width : Nat) : Option FastRead :=
  match width with
  | 4 => t.read144 <|> t.read114
  | 2 => t.read122 <|> t.read112
  | _ => t.read111

/-- Bytes of an address on a device (R365). -/
def addressBytes (t : Sfdp) : Nat := if t.density ≤ 0x1000000 then 3 else 4

/-- The lanes FD0 to FD3 that carry data, to the device or from it (R363). -/
def flashLanes (width : Nat) (toDevice : Bool) : BitVec 4 :=
  match width with
  | 4 => 0b1111
  | 2 => 0b0011
  | _ => if toDevice then 0b0001 else 0b0010

/-- FCK in Hz by MP_FREQ (R366). -/
def fckHertz (freq : Nat) : Nat :=
  match freq with
  | 0 => 20000000
  | 1 => 40000000
  | 2 => 53330000
  | _ => 80000000

/-- How the port reads a device: the levels of FSS0 and FSS1, low on the selected one; the width, FCK and the bytes of an address; the
command byte, omitted in continuous-read mode; the dummy cycles. FCK idles low, and data are taken at its rise (SPI mode 0)
(R363 to R367). -/
structure FlashAccess where
  fss0 : Bool
  fss1 : Bool
  width : Nat
  fck : Nat
  addressBytes : Nat
  command : Option Byte
  dummy : Nat
deriving DecidableEq, Repr

/-- Every discovery access: one lane at 20 MHz, with the SFDP read command; the three address bytes and eight dummy cycles of that
command are PRESUMED (notes/assumptions/115.md) (R363, R364). -/
def discoveryAccess (device : Bool) : FlashAccess := ⟨device, !device, 1, 20000000, 3, some 0x5A, 8⟩

/-- A read at a flash address; a device without a fast read of its width is read by command 0x03 (PRESUMED,
notes/assumptions/115.md). -/
def State.readAccess (s : State) (a : Nat) : Option FlashAccess :=
  (s.mp.chip a).map fun t =>
    let d := flashDevice a
    let w := flashWidth ((s.option 11).toNat % 8) t
    let r := (fastReadOf t w).getD ⟨0x03, 0⟩
    ⟨d, !d, w, fckHertz ((s.option 12).toNat % 4), addressBytes t, if (if d then s.mp.cont1 else s.mp.cont0) then none else some r.command,
      r.dummy⟩

/-! ### Prefetch and continuous reads (R367) -/

/-- A line becomes the most recently used of the four. -/
def touchLine (l : List Nat) (n : Nat) : List Nat := (n :: l.filter (· ≠ n)).take 4

/-- One line is read: a miss fills it and then the next sequential line of the device (R367); that the next line then counts as the more
recently used is a DESIGN CHOICE (notes/assumptions/62.md). -/
def State.readLine (s : State) (l : List Nat) (n : Nat) : List Nat :=
  let next := 64 * (n + 1)
  if l.contains n then touchLine l n
  else if flashDevice next = flashDevice (64 * n) && s.flashThere next 64 then touchLine (touchLine l n) (n + 1)
  else touchLine l n

/-- A device is kept in continuous-read mode, or leaves it (R367). -/
def MemPort.setCont (m : MemPort) (device on : Bool) : MemPort := if device then { m with cont1 := on } else { m with cont0 := on }

/-- A read of `k` bytes has passed through the buffer: its lines are in it, and the device stays in continuous-read mode where it has
one; a read that fails leaves both (R367). -/
def State.fetched (s : State) (a k : Nat) : State :=
  if k = 0 || !s.flashThere a k then s
  else
    let mode := ((s.mp.chip a).map (·.modeBits.isSome)).getD false
    let l := (List.range ((a + k - 1) / 64 - a / 64 + 1)).foldl (fun l i => s.readLine l (a / 64 + i)) s.mp.lines
    { s with mp := { s.mp.setCont (flashDevice a) mode with lines := l } }

/-- The lines whose addresses a program or erase of `k` bytes has touched are invalidated (R367). -/
def MemPort.dropLines (m : MemPort) (a k : Nat) : MemPort := { m with lines := m.lines.filter fun n => !rangesMeet (64 * n) 64 a k }

/-! ### Firmware images (R369 to R371) -/

/-- The fields of an image header that the module uses (R369). -/
structure Image where
  version : Word
  raiseFloor : Bool
  clen : Nat
  digest : List Byte
deriving DecidableEq, Repr

/-- The 128 bytes before the code of a bank's image (R369). -/
def State.imageHeader (s : State) (bankB : Bool) : Option (List Byte) := s.flashRead (s.bankBase bankB) 128

/-- The fields of a header (R369). -/
def imageOf (h : List Byte) : Image :=
  ⟨wordAt h 8, (byteAt h 6).getLsbD 0, uAt h 20 4, (h.drop 32).take 32⟩

/-- CLEN is allowed (R369). -/
def clenOk (n : Nat) : Bool := n % 64 = 0 && 64 ≤ n && n ≤ 131072

/-- The code of a bank's image (R369). -/
def State.imageCode (s : State) (bankB : Bool) (i : Image) : Option (List Byte) := s.flashRead (s.bankBase bankB + 128) i.clen

/-- The code of a bank hashes to its digest (R370, R371). -/
def State.codeOk (s : State) (bankB : Bool) (i : Image) : Bool :=
  clenOk i.clen && (match s.imageCode bankB i with
    | some c => sha256 c = i.digest
    | none => false)

/-- The signature of a header holds against the firmware public key (R369). -/
def State.signatureOk (s : State) (h : List Byte) : Bool :=
  match s.nvm.fwKey with
  | none => false
  | some k => ecdsaVerify (leNat (k.take 32), leNat ((k.drop 32).take 32)) (h.take 64) (leNat ((h.drop 64).take 32))
      (leNat ((h.drop 96).take 32))

/-- The failure code of a bank's image, 0 where it verifies (R370). -/
def State.verifyCode (s : State) (bankB : Bool) : Nat :=
  match s.imageHeader bankB with
  | none => 8
  | some h =>
    let i := imageOf h
    if clenOk i.clen && (s.imageCode bankB i).isNone then 8
    else if uAt h 0 4 ≠ 0x5746504F || uAt h 4 2 ≠ 1 || 1 < uAt h 6 2 || uAt h 17 3 ≠ 0 || uAt h 24 8 ≠ 0 || i.version = 0 then 1
    else if uAt h 12 4 ≠ 0x4896 then 2
    else if s.dev.step.toNat < uAt h 16 1 then 3
    else if !clenOk i.clen then 4
    else if !s.signatureOk h then 6
    else if !s.codeOk bankB i then 5
    else if i.version.toNat < s.nvm.floor.toNat then 7
    else 0

/-- The verified mark of a bank (R370). -/
def State.mark (s : State) (bankB : Bool) : Option (List Byte × BitVec 32) := if bankB then s.nvm.markB else s.nvm.markA

/-- A bank's verified mark is written or cleared (R370). -/
def State.setMark (s : State) (bankB : Bool) (m : Option (List Byte × BitVec 32)) : State :=
  { s with nvm := if bankB then { s.nvm with markB := m } else { s.nvm with markA := m } }

/-- At boot a bank's image is accepted: its mark matches its header, and it passes the checks of R370, among them the floor and the
digest of its code (R370, R371). -/
def State.bootImage (s : State) (bankB : Bool) : Option Image :=
  match s.imageHeader bankB with
  | none => none
  | some h =>
    let i := imageOf h
    if s.mark bankB = some (i.digest, i.version) && s.verifyCode bankB = 0 then some i else none

/-- The port has read a bank's header and, where CLEN is allowed, its code; a read that fails sets FL_ERR (R365, R367, R491). -/
def State.bankRead (s : State) (bankB : Bool) : State :=
  let a := s.bankBase bankB
  match s.imageHeader bankB with
  | none => s.flashError
  | some h =>
    let k := (imageOf h).clen
    let s1 := s.fetched a 128
    if !clenOk k then s1
    else if s.flashThere (a + 128) k then s1.fetched (a + 128) k
    else s1.flashError

/-- The bank that does not run; bank B while none does (R316, R334). -/
def State.inactiveBank (s : State) : Bool := !s.mp.runBank

/-! ### LOAD_TABLE (R139, R141, R330, R372) -/

/-- The entries a packet of LOAD_TABLE carries. -/
def tableEntries (par : List Byte) : List Word := (List.range (uAt par 4 2)).map fun i => wordAt par (8 + 4 * i)

/-- An enabled axis selects a table (R141). -/
def State.tableBusy (s : State) (t : Fin 4) : Bool := allAxes.any fun n => (s.ax n).drv.enabled && (s.ax n).cfg.tsel = t

/-- The table a packet names. -/
def tableOf (par : List Byte) : Fin 4 := Fin.ofNat 4 (uAt par 0 1)

/-- The checks of LOAD_TABLE (R141, R330). -/
def State.tableChecks (s : State) (par : List Byte) : List Check :=
  let flash := (byteAt par 1).getLsbD 0
  let commit := (byteAt par 1).getLsbD 1
  let count := uAt par 4 2
  let es := tableEntries par
  [badField 0 (3 < uAt par 0 1), badField 1 (3 < uAt par 1 1),
    badField 4 (!flash && (56 < count || 1024 < uAt par 2 2 + count || (count = 0 && !commit))), reserved par 6 2]
    ++ (if flash then [] else (List.range es.length).map fun i => badField (8 + 4 * i) (!entryOk (es.getD i 0)))
    ++ [stateField 0 (s.tableBusy (tableOf par))]

/-- The entries a table gives now (R139, R140). -/
def MicroTable.entries (t : MicroTable) : List Word := (List.range 1024).map t.entry

/-- A list of entries with others written from an index on. -/
def writeEntries (old new : List Word) (first : Nat) : List Word := old.take first ++ new ++ old.drop (first + new.length)

/-- LOAD_TABLE from a packet: the staging copy takes the entries, and with COMMIT the whole table is installed between two
frames (R330). -/
def State.loadPacketTable (s : State) (p : Packet) : State :=
  let t := tableOf p.params
  let base := (s.tables[t]).staging.getD (s.tables[t]).entries
  let l := writeEntries base (tableEntries p.params) (uAt p.params 2 2)
  if (byteAt p.params 1).getLsbD 1 then
    (s.modTable t fun x => { x with staging := none }).addSnap (.installTable t l none p.ref)
  else (s.modTable t fun x => { x with staging := some l }).done p 0

/-- Who is answered when a flash job ends. -/
def FlashJob.ref : FlashJob → CmdRef
  | .table r _ _ => r
  | .library r _ _ _ _ _ => r
  | .erase r _ => r
  | .program r _ _ => r
  | .verify r => r

/-- The job is an erase or a program of FW_STAGE (R368). -/
def FlashJob.writes : FlashJob → Bool
  | .erase _ _ => true
  | .program _ _ _ => true
  | .table _ _ _ => false
  | .library _ _ _ _ _ _ => false
  | .verify _ => false

/-- The job is an operation of FW_STAGE (R368). -/
def FlashJob.isStage : FlashJob → Bool
  | .table _ _ _ => false
  | .library _ _ _ _ _ _ => false
  | .erase _ _ => true
  | .program _ _ _ => true
  | .verify _ => true

/-- The code-cache load of a firmware switch has the port (R368, R422). -/
def MemPort.loading (m : MemPort) : Bool :=
  match m.switch with
  | some (.loading _ _) => true
  | some (.waitQuiescent _) => false
  | some (.waitBoundary _ _) => false
  | none => false

/-- The read that the port serves first: a table's, then a library's, one at a time (R368). -/
def MemPort.nextRead (m : MemPort) : Option FlashJob :=
  (m.jobs.find? fun j => match j with
    | .table _ _ _ => true
    | _ => false) <|> m.jobs.find? fun j => match j with
    | .library _ _ _ _ _ _ => m.stream.isNone
    | _ => false

/-- The device of a job (R365). -/
def State.jobDevice (s : State) (j : FlashJob) : Bool :=
  match j with
  | .table _ _ a => flashDevice a.toNat
  | .library _ a _ _ _ _ => flashDevice a.toNat
  | .erase _ _ => flashDevice (s.bankBase s.inactiveBank)
  | .program _ _ _ => flashDevice (s.bankBase s.inactiveBank)
  | .verify _ => flashDevice (s.bankBase s.inactiveBank)

/-- A device suspends a program or an erase for a read (R364, R368). -/
def MemPort.suspends (m : MemPort) (device : Bool) : Bool := ((if device then m.chip1 else m.chip0).map (·.suspend)).getD false

/-- An erase or a program begins where none runs and no read is to be served first; its device leaves continuous-read mode for its
command, and for the resume after a read (R367, R368). -/
def State.portStart (s : State) : State :=
  let run := s.mp.running.filter fun j => s.mp.jobs.contains j
  let run' := if s.mp.loading || s.mp.nextRead.isSome then run else run <|> s.mp.jobs.find? FlashJob.writes
  let m : MemPort := { s.mp with running := run' }
  match run' with
  | none => { s with mp := m }
  | some j => { s with mp := m.setCont (s.jobDevice j) false }

/-- A flash job joins those that wait (R368). -/
def State.addJob (s : State) (j : FlashJob) : State := State.portStart { s with mp := { s.mp with jobs := s.mp.jobs ++ [j] } }

/-- LOAD_TABLE (R330). -/
def loadTableBody (s : State) (p : Packet) : State :=
  s.guarded p (s.tableChecks p.params) fun s =>
    if (byteAt p.params 1).getLsbD 0 then s.addJob (.table p.ref (tableOf p.params) (wordAt p.params 8)) else s.loadPacketTable p

/-- LOAD_TABLE (R330). -/
def execLoadTable (core : CoreId) (s : State) : Host.Outcome State Fault Refusal := .next (s.runOpcode core 0x30 loadTableBody)

/-- The entries of a table object in flash, none where it fails its check (R372). -/
def State.tableObject (s : State) (a : Nat) : Option (List Word) :=
  match s.flashRead a 4108 with
  | none => none
  | some b =>
    if uAt b 0 4 = 0x544D504F && uAt b 4 2 = 1 && uAt b 6 2 = 0 && crc32 (b.take 4104) = wordAt b 4104 then
      some ((List.range 1024).map fun i => wordAt b (8 + 4 * i))
    else none

/-- The flash read of a LOAD_TABLE has ended: the object is checked and installed, or the command fails (R330, R372). An axis enabled
meanwhile does not stop the installation (R141; DEDUCED, notes/assumptions/113.md). -/
def State.tableRead (s : State) (ok : Bool) (ref : CmdRef) (t : Fin 4) (a : Word) : State :=
  let s1 := (s.modTable t fun x => { x with staging := none }).fetched a.toNat 4108
  let s2 := if ok && s1.flashThere a.toNat 4108 then s1 else s1.flashError
  match (if ok then s2.tableObject a.toNat else none) with
  | none => s2.complete ref .integrityLost 0 0xFF s.m7pos 0x18
  | some es =>
    if es.all entryOk then s2.addSnap (.installTable t es (some a) ref)
    else s2.complete ref .rejectParam 0 0xFF s.m7pos 24

/-- TABLE_RELOAD_END: a custom table is restored from flash, or marked invalid (R408, R410). -/
def State.tableReload (s : State) (t : Fin 4) : State :=
  let x := s.tables[t]
  if !x.reloading then s
  else
    let a := x.faddr.getD 0
    let s1 := if s.flashThere a.toNat 4108 then s.fetched a.toNat 4108 else s.flashError
    match s1.tableObject a.toNat with
    | some es => s1.modTable t fun x => { x with custom := some es, reloading := false, badEntries := [] }
    | none => s1.modTable t fun x => { x with invalid := true, reloading := false, badEntries := [] }

/-- TABLE_RELOAD_END (R410). -/
def execTableReloadEnd (t : Fin 4) (s : State) : Host.Outcome State Fault Refusal := .next (s.tableReload t)

/-! ### Recipe libraries (R331, R373, R374) -/

/-- A directory entry (R373). -/
structure Recipe where
  offset : Nat
  nseg : Nat
  rsv : Nat
  rcrc : Word
deriving DecidableEq, Repr

/-- The directory of a library that passes the checks of its header, none where it fails (R373, R374). -/
def State.libraryDir (s : State) (a : Nat) : Option (Nat × List Recipe) :=
  match s.flashRead a 16 with
  | none => none
  | some h =>
    let n := uAt h 6 2
    let len := uAt h 8 4
    if uAt h 0 4 ≠ 0x4C52504F || uAt h 4 2 ≠ 1 || n = 0 || 1024 < n || 0x1000000 < len then none
    else
      match s.flashRead (a + 16) (12 * n) with
      | none => none
      | some d =>
        if crc32 (h.take 12 ++ d) = wordAt h 12 then
          some (len, (List.range n).map fun r => ⟨uAt d (12 * r) 4, uAt d (12 * r + 4) 2, uAt d (12 * r + 6) 2, wordAt d (12 * r + 8)⟩)
        else none

/-- A record from its bytes (R373). -/
def recordOf (b : List Byte) : Record :=
  { opc := byteAt b 0, flags := byteAt b 1, axis := byteAt b 2, deadline := wordAt b 4, batch := BitVec.ofNat 16 (uAt b 8 2)
    params := b.drop 12 }

/-- A record's own fields are allowed: OPC, AXIS, PLEN and the reserved bytes (R374). -/
def recordOk (b : List Byte) : Bool :=
  let opc := uAt b 0 1
  0x10 ≤ opc && opc ≤ 0x16 && uAt b 2 1 < 48 && plenOk opc (uAt b 3 1) (b.drop 12) && uAt b 10 2 = 0

/-- The bytes of `k` records from a flash address on, record by record (R373). -/
def State.recordBytes (s : State) : Nat → Nat → Option (List (List Byte))
  | 0, _ => some []
  | k + 1, a =>
    match s.flashRead a 12 with
    | none => none
    | some h =>
      let len := 12 + uAt h 3 1
      match s.flashRead a len, State.recordBytes s k (a + len) with
      | some b, some rest => some (b :: rest)
      | _, _ => none

/-- Whether a recipe verifies (R373, R374). -/
def recipeOk (len : Nat) (r : Recipe) (l : List (List Byte)) : Bool :=
  let b := l.flatten
  1 ≤ r.nseg && r.nseg ≤ 256 && r.rsv = 0 && r.offset % 4 = 0 && b.length ≤ 65536 && r.offset + b.length ≤ len && crc32 b = r.rcrc
    && l.all recordOk

/-- The tags of a range (R331). -/
def tagRange (base k : Nat) : List (BitVec 16) := (List.range k).map fun i => BitVec.ofNat 16 (base + i)

/-- The checks of R331 once the directory has been read: parameters, ownership, axis state, tag capacity, verification. -/
def State.libraryChecks (s : State) (len : Nat) (dir : List Recipe) (recipe tagBase maxSeg rsv : Nat)
    (recs : Option (List (List Byte))) : List Check :=
  let axes := (recs.getD []).filterMap fun b => axisOfByte (byteAt b 2)
  let r := dir.getD recipe ⟨0, 0, 0, 0⟩
  [badField 4 (dir.length ≤ recipe), badField 6 (tagBase = 0 || 65536 < tagBase + maxSeg),
    badField 8 (maxSeg = 0 || 256 < maxSeg || maxSeg < r.nseg), badField 10 (rsv ≠ 0),
    (axes.any fun n => (s.ax n).prot.owner ≠ .host, .rejectOwner, 4),
    badState ((axes.any fun n => !(s.ax n).drv.enabled) || s.q.live.any fun t => tagBase ≤ t.1.toNat && t.1.toNat < tagBase + maxSeg),
    (512 < s.q.live.length + maxSeg + 1, .busy, 0),
    (match recs with
      | none => true
      | some l => !recipeOk len r l, .integrityLost, 0x19)]

/-- LOAD_LIBRARY: the flash read comes first, since the check of RECIPE needs the directory and the checks run in ascending offset
(R313, R331). -/
def loadLibraryBody (s : State) (p : Packet) : State :=
  s.addJob (.library p.ref (wordAt p.params 0) (uAt p.params 4 2) (uAt p.params 6 2) (uAt p.params 8 2) (uAt p.params 10 2))

/-- LOAD_LIBRARY (R331). -/
def execLoadLibrary (core : CoreId) (s : State) : Host.Outcome State Fault Refusal := .next (s.runOpcode core 0x31 loadLibraryBody)

/-- A record as the packet of its segment, under a tag and on the command's queue (R331). -/
def Record.packet (r : Record) (tag : BitVec 16) (queue : BitVec 4) : Packet :=
  let plen := r.params.length
  { bytes := [r.opc, r.flags] ++ leBytes 2 tag.toNat ++ [r.axis, BitVec.ofNat 8 ((plen + 47) / 32), BitVec.ofNat 8 plen, 0]
      ++ wordBytes r.deadline ++ leBytes 2 r.batch.toNat ++ [0, 0] ++ r.params
    queue := ⟨queue.toNat, queue.isLt⟩, seq := 0, core := none, verdict := none, bad := false }

/-- The target queue of a record is full (R331). -/
def State.queueFull (s : State) (r : Record) : Bool :=
  match axisOfByte r.axis with
  | some n => 16 ≤ (s.ax n).mot.occupied
  | none => false

/-- The segment of a record is checked and written as if pushed on the command's queue (R331). -/
def State.writeRecord (s : State) (r : Record) (tag : BitVec 16) (queue : BitVec 4) : State :=
  let p := r.packet tag queue
  match s.asyncCheck p with
  | some v => s.refuse p v none
  | none => s.act p segmentBody

/-- The records of a running stream are written while their queues have room; with the last, LOAD_LIBRARY completes OK
(R331). -/
def State.streamOn (st : Stream) : List Record → Nat → State → State
  | [], n, s =>
    let s1 := { s with mp := { s.mp with stream := none } }.complete st.ref .ok 0 0xFF s.m7pos (BitVec.ofNat 32 n)
    s1.freeTags st n
  | r :: rest, n, s =>
    if s.queueFull r then { s with mp := { s.mp with stream := some { st with records := r :: rest, written := n } } }
    else State.streamOn st rest (n + 1) (s.writeRecord r (st.tag n) st.ref.queue)

/-- A stream goes on (R331). -/
def State.streamStep (s : State) : State :=
  if !s.dispatching then s
  else
    match s.mp.stream with
    | none => s
    | some st => State.streamOn st st.records st.written s

/-- LIBRARY_STREAM_RESUME (R331). -/
def execLibraryStreamResume (s : State) : Host.Outcome State Fault Refusal := .next s.streamStep

/-- The stretches of a library that its read touches: the header, the directory where the header allows one, and the records of the
recipe, as far as their lengths can be read (R374). -/
def State.libraryStretches (s : State) (a : Nat) (recipe : Nat) : List (Nat × Nat) :=
  let dir := match s.flashRead a 16 with
    | none => []
    | some h =>
      let n := uAt h 6 2
      if uAt h 0 4 ≠ 0x4C52504F || uAt h 4 2 ≠ 1 || n = 0 || 1024 < n || 0x1000000 < uAt h 8 4 then [] else [(a + 16, 12 * n)]
  let recs := match s.libraryDir a with
    | none => []
    | some (_, l) =>
      let r := l.getD recipe ⟨0, 0, 0, 0⟩
      let k := min r.nseg 256
      [(a + r.offset, ((s.recordBytes k (a + r.offset)).map fun b => b.flatten.length).getD (12 * k))]
  (a, 16) :: (dir ++ recs)

/-- The port has read some stretches; one that is not there fails, with FL_ERR (R365, R367, R491). -/
def State.stretchRead (s : State) (x : Nat × Nat) : State :=
  if x.2 = 0 || s.flashThere x.1 x.2 then s.fetched x.1 x.2 else s.flashError

/-- A recipe runs beyond the library's length: by its records, or by the least that they can take where they cannot be read (R374). -/
def beyondLength (len : Nat) (r : Recipe) (recs : Option (List (List Byte))) : Bool :=
  len < r.offset + (recs.map fun l => l.flatten.length).getD (12 * r.nseg) || (0 < r.nseg && len ≤ r.offset)

/-- The flash read of a LOAD_LIBRARY has ended: the checks of R331 follow, and the stream begins (R331, R374). -/
def State.libraryRead (s : State) (ok : Bool) (ref : CmdRef) (a : Word) (recipe tagBase maxSeg rsv : Nat) : State :=
  let fail := fun (s : State) (st : Status) (w : Word) => s.complete ref st 0 0xFF s.m7pos w
  if !ok then fail s.flashError .integrityLost 0x19
  else
    let s1 := s.forAll (s.libraryStretches a.toNat recipe) State.stretchRead
    match s.libraryDir a.toNat with
    | none => fail s1 .integrityLost 0x19
    | some (len, dir) =>
      let r := dir.getD recipe ⟨0, 0, 0, 0⟩
      let recs := s.recordBytes (min r.nseg 256) (a.toNat + r.offset)
      if beyondLength len r recs then fail s1 .integrityLost 0x19
      else
        match firstFailure (s.libraryChecks len dir recipe tagBase maxSeg rsv recs) with
        | some (st, w) => fail s1 st w
        | none =>
          let l := (recs.getD []).map recordOf
          let tags := (tagRange tagBase maxSeg).map fun t => (t, ref.queue, (0xFF : Byte))
          let st : Stream := ⟨ref, tagBase, maxSeg, l, 0, l.filterMap fun r => axisOfByte r.axis⟩
          State.streamStep { s1 with q := { s1.q with live := s1.q.live ++ tags }, mp := { s1.mp with stream := some st } }

end Sys2Proof.Machine
end

