-- ==== Sys2Proof/Machine/Faults.lean ====
section
/-! DEFINITION. CLEAR_FAULT, OWNERSHIP and SYNC_EPOCH (12_opcodes.md R332, R333, R339; 16_integrity.md R413, R414, R430;
04_axio_homing.md R133; 02_master_time.md R69). -/
namespace Sys2Proof.Machine
open Sys2Proof

/-! ### CLEAR_FAULT (R332) -/

/-- Words whose parity still mismatches, in the scope of one axis (R414, R503). -/
def State.axisParity (s : State) (n : AxisId) : Bool :=
  s.dev.parityBad.any fun w => w.1 = 4 + (groupOf n).val && 0x40 ≤ w.2 && (w.2 - 0x40) / 0x30 = n.val % 4

/-- Words whose parity still mismatches, in the scope that AXIS names (R332, R414). -/
def State.parityStands (s : State) (p : Packet) : Bool :=
  match axisOfByte p.axis, p.groupId with
  | some n, _ => s.axisParity n
  | none, some g => if p.axis = 0xFE then s.dev.parityBad.any fun w => w.1 = 4 + g.val else s.dev.parityBad.any fun w => w.1 < 4
  | none, none => s.dev.parityBad.any fun w => w.1 < 4

/-- The faults of one axis are cleared; it stays disabled (R254, R332, R414). -/
def State.clearAxis (s : State) (n : AxisId) : State :=
  (s.modProt n fun p => { p with latched := false, retry := if p.retry = .latch then .none else p.retry, tries := 0, diagFail := false
                                 shareErr := false, parity := false }).modObs n
    fun o => { o with stall := false }

/-- The faults of a group are cleared: those of its axes, its link fault and its parity fault (R17, R332, R414). -/
def State.clearGroup (s : State) (p : Packet) (g : GroupId) : State :=
  ((s.forAll (s.addressed p) State.clearAxis).modGroup g fun x => { x with link := false, par := false }).noteFault

/-- The actions that wait for a snapshot and answer by themselves. -/
def SnapOp.ref? : SnapOp → Option CmdRef
  | .readAxis _ _ r => some r
  | .readGroup _ _ r => some r
  | .installTable _ _ _ r => some r
  | .bind .. => none
  | .setPosition .. => none
  | .setSpeed .. => none
  | .setAccel .. => none
  | .stop .. => none
  | .disable .. => none
  | .stopAll .. => none
  | .closeBatch .. => none
  | .take .. => none
  | .handBack .. => none
  | .energise .. => none
  | .stallStop .. => none

/-- Who is answered when a switch ends. -/
def SwitchStep.ref : SwitchStep → CmdRef
  | .waitQuiescent r => r
  | .loading r _ => r
  | .waitBoundary r _ => r

/-- Every command that a descriptor or an action names (R413). -/
def State.namedRefs (s : State) : List CmdRef :=
  (s.axes.toList.flatMap fun (x : Axis) => x.mot.queue.map (·.ref) ++ x.mot.runs.map (·.seg.ref) ++ (x.prot.ident.map (·.ref)).toList)
    ++ s.q.actions.map (·.ref) ++ s.q.snapOps.filterMap SnapOp.ref? ++ s.mp.jobs.map FlashJob.ref
    ++ (s.mp.stream.map (·.ref)).toList ++ (s.mp.switch.map SwitchStep.ref).toList ++ s.dev.blkCmds.map (·.1)
    ++ (s.dev.fuseSeq.map (·.1)).toList ++ (s.tb.epoch.map (·.ref)).toList

/-- A tag is named by a descriptor, an action, a packet in its ring, an entry to be pulled or a stream (R331, R413). -/
def State.tagNamed (s : State) (t : BitVec 16) : Bool :=
  (s.namedRefs.any fun r => match r with
    | .host u _ => u = t
    | .sideband => false
    | .internal => false)
  || (s.q.packets.any fun (p : Packet) => p.tag = t) || ((s.q.ring ++ s.q.staged).any fun (c : Completion) => c.tag = t)
  || (match s.mp.stream with
    | some st => st.tagBase ≤ t.toNat && t.toNat < st.tagBase + st.maxSeg
    | none => false)

/-- Live tags that nothing names cease to be live (R413). -/
def State.freeLost (s : State) : State :=
  { s with q := { s.q with live := s.q.live.filter fun (t : BitVec 16 × BitVec 4 × Byte) => s.tagNamed t.1 } }

/-- The global faults are cleared: the W1C bits of GFAULT, TAG_LOST and GPAR_FIX (R413, R430, R474). -/
def State.clearGlobal (s : State) : State :=
  let keep : BitVec 8 := if s.dev.discNow then 0x21 else 0x01
  State.noteFault { s with dev := { s.dev with gfault := s.dev.gfault &&& keep, tagLost := false, gparFix := false } }

/-- CLEAR_FAULT (R332); the module form then frees the live tags that nothing names, its own entry among what names one (R413). -/
def clearFaultBody (s : State) (p : Packet) : State :=
  s.guarded p [badState (s.parityStands p)] fun s =>
    match axisOfByte p.axis, p.groupId with
    | some n, _ => (s.clearAxis n).done p 0
    | none, some g => if p.axis = 0xFE then (s.clearGroup p g).done p 0 else (s.clearGlobal.done p 0).freeLost
    | none, none => (s.clearGlobal.done p 0).freeLost

/-- CLEAR_FAULT (R332). -/
def execClearFault (core : CoreId) (s : State) : Host.Outcome State Fault Refusal := .next (s.runOpcode core 0x38 clearFaultBody)

/-! ### OWNERSHIP (R133, R333) -/

/-- LOCAL may be released: the axis rests and no button is pressed (R133). -/
def State.localFree (s : State) (n : AxisId) : Bool := (s.ax n).mot.atRest && !s.button n 1 && !s.button n (-1)

/-- OWNERSHIP: OP 0 releases LOCAL, OP 1 queries (R133, R333). -/
def ownershipBody (s : State) (p : Packet) : State :=
  match axisOfByte p.axis with
  | none => s.refuse p (.rejectAxis, 4) none
  | some n =>
    let op := uAt p.params 0 1
    let own := (s.ax n).prot.owner
    s.guarded p [(op = 0 && own = .sideband, .rejectOwner, 4), badField 0 (1 < op), reserved p.params 1 3,
        badState (op = 0 && own = .localJog && !s.localFree n)] fun s =>
      let s1 := if op = 0 && own = .localJog then s.modProt n fun q => { q with owner := .host, ownChg := true } else s
      s1.done p (BitVec.ofNat 32 (ownerCode (s1.ax n).prot.owner))

/-- OWNERSHIP (R333). -/
def execOwnership (core : CoreId) (s : State) : Host.Outcome State Fault Refusal := .next (s.runOpcode core 0x39 ownershipBody)

/-! ### SYNC_EPOCH (R69, R339) -/

/-- A masked master is bound to an enabled axis (R69). -/
def State.maskBound (s : State) (mask : Nat) : Bool := (List.range 7).any fun m => mask.testBit m && s.boundEnabled m

/-- SYNC_EPOCH: N and the mask wait for the next pulse boundary (R69, R339); a second one while one waits is refused
(notes/assumptions/35.md). -/
def syncEpochBody (s : State) (p : Packet) : State :=
  let par := p.params
  let mask := uAt par 8 1
  s.guarded p [badField 0 (uAt par 0 1 ≠ 0), badField 8 (128 ≤ mask), reserved par 9 3,
      badState ((s.tb.roleEff = 2 && !s.tb.syncLock) || s.maskBound mask || s.tb.epoch.isSome)] fun s =>
    { s with tb := { s.tb with epoch := some ⟨p.ref, BitVec.ofNat 64 (uAt par 0 8), BitVec.ofNat 7 mask, 0⟩ } }

/-- SYNC_EPOCH (R69). -/
def execSyncEpoch (core : CoreId) (s : State) : Host.Outcome State Fault Refusal := .next (s.runOpcode core 0x58 syncEpochBody)

end Sys2Proof.Machine
end

