-- ==== Sys2Proof/Machine/Reset.lean ====
section
/-! DEFINITION. Device resets, their stages until READY, the clock monitor and the reset commands (15_reset_lifecycle.md R377 to
R404; 01_architecture.md R28; 12_opcodes.md R338; 14_memory_port.md R371; 16_integrity.md R424, R425). -/
namespace Sys2Proof.Machine
open Sys2Proof

/-! ### NVM and eFuse writes (R384, R385, R389, R395, R425) -/

/-- An entry joins the Shale ring: before the first entry of each 2 KB page, of 128 entries, that page is erased (R425). -/
def Nvm.putShale (v : Nvm) (e : ShaleEntry) : Nvm :=
  let old := if v.shalePos % 128 = 0 then v.shale.take 3968 else v.shale
  { v with shale := { e with seq := v.shaleSeq } :: old
           shalePos := (v.shalePos + 1) % 4096
           shaleSeq := if e.broken then v.shaleSeq else v.shaleSeq + 1 }

/-- An entry is written whole, and its alert cause latched (R353, R425). -/
def State.writeShale (s : State) (e : ShaleEntry) : State := ({ s with nvm := s.nvm.putShale e }).alert 1

/-- An entry made and written at once, as a life-cycle change does before its reset (R401, R403). -/
def State.shaleNow (s : State) (cls code : Nat) (data : BitVec 24) : State :=
  s.writeShale { cls := BitVec.ofNat 8 cls, code := BitVec.ofNat 8 code, seq := 0, poh := s.nvm.pohSaved, src := 0xFF
                 frame := s.tb.frame.setWidth 32, data := data }

/-- The state word takes a new life-cycle state, with its Shale entry (R401). -/
def State.changeLife (s : State) (l : LifeCycle) : State :=
  let old := s.nvm.lc
  ({ s with nvm := { s.nvm with lc := l, lcWord := lifeWord l } }).shaleNow 2 (lcCode l) (BitVec.ofNat 24 (lcCode old))

/-- An option write that a reset interrupts leaves copy A old, or copy B new (R385, R389); which is open
(notes/assumptions/9.md). -/
def Nvm.cutOptions (v : Nvm) (r : Vector Word 64) (choice : Int) : Nvm :=
  if choice % 3 = 0 then { v with copyB := none, pulse := true }
  else if choice % 3 = 1 then { v with copyB := some r, pulse := true }
  else { v with copyB := some r, copyA := none, pulse := true }

/-- A Shale write that a reset interrupts: not begun, its first pulse alone, or whole (R425); which is open
(notes/assumptions/9.md). -/
def State.cutShale (s : State) (e : ShaleEntry) (choice : Int) : State :=
  if choice % 3 = 0 then s
  else if choice % 3 = 1 then { s with nvm := { s.nvm.putShale { e with broken := true } with pulse := true } }
  else (s.writeShale e) |> fun s1 => { s1 with nvm := { s1.nvm with pulse := true } }

/-- Records of a fuse sequence, programmed. -/
def Nvm.blow (v : Nvm) (l : List (Fin 144 × BitVec 2)) : Nvm :=
  { v with fuses := l.foldl (fun (f : Vector (BitVec 2) 144) r => f.set r.1.val r.2) v.fuses }

/-- An option write under way at a reset. -/
def State.cutOptions (s : State) : State :=
  match s.dev.optWrite with
  | none => s
  | some r =>
    let (c, s1) := s.freeVal
    { s1 with nvm := s1.nvm.cutOptions r c }

/-- A fuse sequence under way at a reset: how many records it has reached is open, and the running pulse ends (R384, R385;
notes/assumptions/9.md). -/
def State.cutFuses (s : State) : State :=
  match s.dev.fuseSeq with
  | none => s
  | some (_, l, _, _) =>
    let (c, s1) := s.freeVal
    { s1 with nvm := { s1.nvm.blow (l.take ((c % l.length).toNat + 1)) with pulse := true } }

/-- A Shale entry under way at a reset: the oldest that waits, unless another write has the NVM. -/
def State.cutLog (s : State) : State :=
  match s.dev.shalePend.head? with
  | none => s
  | some e =>
    if s.dev.optWrite.isSome || s.dev.fuseSeq.isSome then s
    else
      let (c, s1) := s.freeVal
      s1.cutShale e c

/-- A reset lets a running pulse end and issues no later one (R384, R385). -/
def State.cutNvm (s : State) : State := s.cutOptions.cutFuses.cutLog

/-! ### Flash operations cut by a reset (R368, R380) -/

/-- The address of an erase or a program, and how many bytes it touches (R334, R368). -/
def State.jobSpan (s : State) (j : FlashJob) : Nat × Nat :=
  let base := s.bankBase s.inactiveBank
  match j with
  | .erase _ b => (base + 0x10000 * b, 0x10000)
  | .program _ o l => (base + o, l.length)
  | .table _ _ _ => (0, 0)
  | .library _ _ _ _ _ _ => (0, 0)
  | .verify _ => (0, 0)

/-- A block is erased, or a page programmed, in the flash (R334, R368). -/
def State.flashWrite (s : State) (j : FlashJob) : State :=
  match j with
  | .erase _ _ => { s with mp := { s.mp with flash := cellErase s.mp.flash (s.jobSpan j).1 0x10000 } }
  | .program _ _ l => { s with mp := { s.mp with flash := cellWrite s.mp.flash (s.jobSpan j).1 l } }
  | .table _ _ _ => s
  | .library _ _ _ _ _ _ => s
  | .verify _ => s

/-- A program or erase under way in a flash device runs on in that device (R380); whether one that a read had suspended is
resumed there is open (notes/assumptions/9.md). -/
def State.cutFlash (s : State) : State :=
  match s.mp.running with
  | none => s
  | some j =>
    let held := match s.mp.nextRead with
      | some r => s.jobDevice r = s.jobDevice j && s.mp.suspends (s.jobDevice j)
      | none => false
    if !held then s.flashWrite j
    else
      let (c, s1) := s.freeVal
      if c % 2 = 0 then s1.flashWrite j else s1

/-! ### The start of a device reset (R377 to R383) -/

/-- A group die after a device reset: its lock-outs stand as the supplies are (R241, R383). -/
def Group.afterReset (g : Group) : Group := { lockout := g.lockout, supplyHold := g.supplyHold, faults := g.lockout.setWidth 8 }

/-- An AXIO pin after a device reset: not routed, with the level that it has (R111, R383). -/
def Pin.afterReset (p : Pin) : Pin := { raw := p.raw, qual := p.raw, acted := p.raw, snap := p.raw }

/-- The flash devices keep their contents; the prefetch buffer is wiped, as at the reset of every life-cycle change (R367, R380, R383,
R396). -/
def MemPort.afterReset (m : MemPort) : MemPort := { flash := m.flash, chip0 := m.chip0, chip1 := m.chip1 }

/-- What the VDD domain keeps of its global state: the die, the latched fuses, the levels of the safe inputs, the sources
recorded and the register they were last written to (R379, R393, R473). -/
def Device.afterReset (d : Device) (src : Fin 7) (stage : Stage) (fused : Bool) : Device :=
  { stage := stage, ready := false, nrstDrive := !fused, sources := d.sources ||| BitVec.ofNat 7 (2 ^ src.val)
    rstSrc := d.rstSrc, restarts := d.restarts, safeA := d.safeA, safeB := d.safeB, fuseState := d.fuseState
    pinsTaken := false, opts := defaultOptions, step := d.step, free := d.free }

/-- The side-band port lives on VSB: a device reset ends the actions of its commands and takes its unlock, which the controller
holds, and leaves the rest (R361, R380, R396). -/
def SideBand.afterReset (b : SideBand) : SideBand :=
  { b with unlocked := false, keyFrame := none, jogs := [], jogWait := [], pendAct := none, pendBank := false, waiting := []
           pendWait := false, faultSeen := false }

/-- A device reset starts from the source of a row of R377; fuse sensing belongs to rows 0 and 1 (R378 to R383, R393). -/
def State.resetCore (s : State) (src : Fin 7) : State :=
  let s1 := s.cutNvm.cutFlash
  let fused := src.val < 2
  let stage : Stage := if fused then .fuseSensing else if s1.nvm.pulse then .nvmDeferral else .optionsLoad
  { pending := s1.pending, dev := s1.dev.afterReset src stage fused, nvm := s1.nvm
    tb := { tick := s1.tb.tick, msa := s1.tb.msa, msb := s1.tb.msb
            edge := Vector.replicate 5 { tLast := s1.tb.tick / 2 } }
    groups := s1.groups.map Group.afterReset, pins := s1.pins.map Pin.afterReset
    sb := s1.sb.afterReset, mp := s1.mp.afterReset }

/-- A device reset starts. SERVICE does not last through one whose source is not the life-cycle change (R403). -/
def State.startReset (s : State) (src : Fin 7) : State :=
  (if s.nvm.lc = .service && src ≠ 2 then s.changeLife .field else s).resetCore src

/-- POWER_ON_RESET (R377). -/
def execPowerOnReset (s : State) : Host.Outcome State Fault Refusal := .next (s.startReset 0)

/-- BROWN_OUT_RESET (R377). -/
def execBrownOutReset (s : State) : Host.Outcome State Fault Refusal := .next (s.startReset 1)

/-- NRST_RESET: an external low is not seen while the module itself drives NRST (R378). -/
def execNrstReset (s : State) : Host.Outcome State Fault Refusal := .next (if s.dev.nrstDrive then s else s.startReset 6)

/-- WATCHDOG_SECOND_STAGE: the cores have not resumed dispatch in time (R397, R421, R423). -/
def execWatchdogSecondStage (s : State) : Host.Outcome State Fault Refusal :=
  .next (if s.dev.stage = .running && s.dev.suspended then s.startReset 3 else s)

/-! ### The stages (R381, R385, R387, R393, R394) -/

/-- A stage of the reset sequence ends: nothing happens while another is running. -/
def State.stageEnd (s : State) (st : Stage) (f : State → State) : State := if s.dev.stage = st then f s else s

/-- The options load begins, or waits for a pulse (R381, R385). -/
def State.toLoad (s : State) : State :=
  { s with dev := { s.dev with stage := if s.nvm.pulse then .nvmDeferral else .optionsLoad } }

/-- FUSE_SENSING_END: the sensed codes are latched, and the drive of NRST begins (R378, R393). -/
def execFuseSensingEnd (s : State) : Host.Outcome State Fault Refusal :=
  .next (s.stageEnd .fuseSensing fun s =>
    State.toLoad { s with dev := { s.dev with fuseState := s.nvm.fuses, nrstDrive := true } })

/-- NVM_PULSE_END: a pulse that a reset waits for ends (R385). -/
def execNvmPulseEnd (s : State) : Host.Outcome State Fault Refusal :=
  .next (if s.dev.stage = .running then s
    else
      let s1 : State := { s with nvm := { s.nvm with pulse := false } }
      s1.stageEnd .nvmDeferral State.toLoad)

/-- An erasure that entering RETIRED began is completed: keys, passcode, marks, floor and the Shale log (R404). -/
def Nvm.finishErasure (v : Nvm) : Nvm :=
  if v.erasing then
    { v with erasing := false, devKey := none, fwKey := none, passcode := 0, markA := none, markB := none, floor := 0
             shale := [], shalePos := 0, shaleSeq := 0 }
  else v

/-- The copy of the option record that the load takes: A where it passes, else B; with whether A failed (R387). -/
def Nvm.loadRecord (v : Nvm) : Option (Vector Word 64) × Bool :=
  match v.copyA.filter optHeader with
  | some r => (some r, false)
  | none => (v.copyB.filter optHeader, true)

/-- The record in force after a load, and what OPT_STAT says of it (R387, R388). -/
def Device.loaded (d : Device) (r : Option (Vector Word 64)) (aBad : Bool) : Device :=
  let o := (r.map fixOptions).getD defaultOptions
  { d with stage := .nrstWait, nrstDrive := false, pinsTaken := true, opts := o, staging := o, aBad := aBad
           fieldDef := (match r with
             | some x => fixOptions x ≠ x
             | none => false)
           defaults := r.isNone, copyB := aBad && r.isSome }

/-- The side-band port after a load: at the loaded address where one completed, and ACTIVE once VDD is valid (R344, R490). -/
def SideBand.afterLoad (b : SideBand) (r : Option (Vector Word 64)) : SideBand :=
  { b with addr := match r with
             | some x => (optByte (fixOptions x) 10).setWidth 7
             | none => b.addr
           power := if b.vdd then .active else b.power }

/-- The options load ends (R387, R388): where the trims or both copies fail, nothing that was read is applied. It reads the state word
also (R401). -/
def State.optionsLoaded (s : State) (trimsPass : Bool) : State :=
  let (r, aBad) := s.nvm.loadRecord
  let rec' := if trimsPass then r else none
  let nvm : Nvm := { s.nvm with lc := lifeOf s.nvm.lcWord }
  State.loadTrims { s with dev := s.dev.loaded rec' aBad, nvm := nvm.finishErasure, sb := s.sb.afterLoad rec' }

/-- OPTIONS_LOAD_END (R387). -/
def execOptionsLoadEnd (trimsPass : Bool) (s : State) : Host.Outcome State Fault Refusal :=
  .next (s.stageEnd .optionsLoad fun s => s.optionsLoaded trimsPass)

/-- NRST_RELEASE: NRST is seen high, and the RAM wipe begins (R381). -/
def execNrstRelease (s : State) : Host.Outcome State Fault Refusal :=
  .next (s.stageEnd .nrstWait fun s => { s with dev := { s.dev with stage := .ramWipe } })

/-- READY rises: RST_CAUSE and its Shale entry are written, the banks are to be tried, and a side-band command that waited for it
reads OK (R361, R371, R379, R387). -/
def State.raiseReady (s : State) : State :=
  let s1 : State := { s with
    dev := { s.dev with ready := true, rstSrc := s.dev.sources, sources := 0, restarts := 0 }
    mp := { s.mp with boot := if s.mp.cfgErr then [] else [(s.option 13) = 1, (s.option 13) ≠ 1] } }
  let s2 := s1.shale 1 (lowestBit s1.dev.rstSrc) 255 (s1.rstCause.setWidth 24)
  let s3 := if s2.dev.aBad then s2.shale 10 0 255 (Config.shaleData 10) else s2
  if s3.sb.pendReset then (State.sbResult { s3 with sb := { s3.sb with pendReset := false } } Status.ok.code).alert 5 else s3

/-- RAM_WIPE_END: discovery has read the SFDP tables of the flash devices, and the module boots into READY, SAFE_HOLD or RETIRED
(R28, R364, R366, R371, R381, R388, R404). -/
def State.boot (s : State) (dev0 dev1 : Option Sfdp) : State :=
  let s1 := State.discover { s with mp := { s.mp with chip0 := dev0, chip1 := dev1 }, dev := { s.dev with stage := .running } }
  if s1.dev.defaults then { s1 with dev := { s1.dev with safeHold := true } }
  else if s1.dev.safeHold || s1.nvm.lc = .retired then s1
  else s1.raiseReady

/-- RAM_WIPE_END (R381). -/
def execRamWipeEnd (dev0 dev1 : Option Sfdp) (s : State) : Host.Outcome State Fault Refusal :=
  .next (s.stageEnd .ramWipe fun s => s.boot dev0 dev1)

/-- BLOCK_RESET_END: the block is again in operation, the memory port after its discovery (R364, R398). -/
def execBlockResetEnd (bit : Fin 20) (s : State) : Host.Outcome State Fault Refusal :=
  .next ((if bit = 16 && s.mp.blkRst.getLsbD 0 then s.discover else s).blockEnd bit)

/-! ### The clock monitor (R28) -/

/-- CLK_LOST: EN low, the flag, a Shale entry and SAFE_HOLD (R28); R28 names no stage, so a loss before READY does the same, and READY
then does not rise (DEDUCED, notes/assumptions/97.md). -/
def execClkLost (s : State) : Host.Outcome State Fault Refusal := .next (s.gfaultSet 0).enterSafeHold

/-! ### DEVICE_RESET and BLOCK_RESET (R338) -/

/-- DEVICE_RESET: with its key the reset begins, and no completion follows (R338). -/
def deviceResetBody (s : State) (p : Packet) : State :=
  s.guarded p [badKey p.params 0, reserved p.params 2 2] fun s => s.startReset 5

/-- DEVICE_RESET (R338). -/
def execDeviceReset (core : CoreId) (s : State) : Host.Outcome State Fault Refusal := .next (s.runOpcode core 0x4F deviceResetBody)

/-- BLOCK_RESET: a refusal gives the reason code in WORD; otherwise the command completes when the block is in operation again
(R338, R399). -/
def blockResetBody (s : State) (p : Packet) : State :=
  let b := uAt p.params 2 1
  s.guarded p [badKey p.params 0, badField 2 (!blockBit b), reserved p.params 3 1] fun s =>
    match s.blockBusy b false with
    | some r => State.answer (s.requestBlock b false) p .rejectState (BitVec.ofNat 32 r)
    | none =>
      let s1 := s.requestBlock b false
      { s1 with dev := { s1.dev with blkCmds := s1.dev.blkCmds ++ [(p.ref, b)] } }

/-- BLOCK_RESET (R338). -/
def execBlockReset (core : CoreId) (s : State) : Host.Outcome State Fault Refusal := .next (s.runOpcode core 0x50 blockResetBody)

end Sys2Proof.Machine
end

