-- ==== Sys2Proof/Machine/Firmware.lean ====
section
/-! DEFINITION. Firmware staging, the live switch and the banks tried after READY; life-cycle changes, fuses, and the ends of flash
and NVM operations (12_opcodes.md R334 to R337; 14_memory_port.md R368 to R371; 15_reset_lifecycle.md R389, R395, R400, R401;
16_integrity.md R420 to R425). -/
namespace Sys2Proof.Machine
open Sys2Proof

/-! ### FW_STAGE (R334, R368, R370) -/

/-- The data of an OP 1, page by page: one page is programmed in one operation (R364, R368). -/
def pageJobs (ref : CmdRef) : Nat → Nat → List Byte → List FlashJob
  | 0, _, _ => []
  | k + 1, o, l =>
    let n := 256 - o % 256
    if l.isEmpty then [] else .program ref o (l.take n) :: pageJobs ref k (o + n) (l.drop n)

/-- The flash operations of an FW_STAGE (R334, R368). -/
def stageJobs (ref : CmdRef) (par : List Byte) (plen : Nat) : List FlashJob :=
  match uAt par 0 1 with
  | 0 => (List.range 4).map fun b => .erase ref b
  | 1 => pageJobs ref 2 (uAt par 4 4) ((par.drop 8).take (plen - 8))
  | _ => [.verify ref]

/-- The checks of FW_STAGE (R313, R334, R366). -/
def State.stageChecks (s : State) (p : Packet) : List Check :=
  let par := p.params
  [badState (s.nvm.lc = .retired), badField 0 (2 < uAt par 0 1), reserved par 1 3,
    badField 4 (uAt par 0 1 = 1 && bankSize < uAt par 4 4 + (p.plen - 8)), badState s.mp.cfgErr, (s.mp.staging, .busy, 0)]

/-- FW_STAGE: the operations of the port are queued; an erase or a program clears the bank's verified mark (R334). -/
def fwStageBody (s : State) (p : Packet) : State :=
  s.guarded p (s.stageChecks p) fun s =>
    let s1 := if uAt p.params 0 1 = 2 then s else s.setMark s.inactiveBank none
    State.portStart { s1 with mp := { s1.mp with staging := true, jobs := s1.mp.jobs ++ stageJobs p.ref p.params p.plen } }

/-- FW_STAGE (R334). -/
def execFwStage (core : CoreId) (s : State) : Host.Outcome State Fault Refusal := .next (s.runOpcode core 0x40 fwStageBody)

/-- Every operation of the running FW_STAGE is gone, and it completes (R334). -/
def State.endStage (s : State) (ref : CmdRef) (st : Status) (w : Word) : State :=
  ({ s with mp := { s.mp with staging := false, running := none, jobs := s.mp.jobs.filter fun (j : FlashJob) => !j.isStage } }).complete
    ref st 0 0xFF s.m7pos w

/-- An erase or a program has ended: the flash holds it, the lines it touched are invalid, and FW_STAGE completes with its last; the WORD
of a failed one is a DESIGN CHOICE (notes/assumptions/33.md). -/
def State.stageOpEnd (s : State) (ok : Bool) (j : FlashJob) (ref : CmdRef) : State :=
  let (a, k) := s.jobSpan j
  let s0 : State := { s with mp := s.mp.dropLines a k }
  if ok && s0.flashThere a k then
    let s1 := s0.flashWrite j
    let s2 : State := { s1 with mp := { s1.mp with jobs := s1.mp.jobs.erase j } }
    if s2.mp.jobs.any FlashJob.isStage then s2 else s2.endStage ref .ok 0
  else s0.flashError.endStage ref .integrityLost 8

/-- A verification has ended: its failure code, or the version with the bank's verified mark (R334, R370). -/
def State.verifyEnd (s : State) (ok : Bool) (ref : CmdRef) : State :=
  let b := s.inactiveBank
  let code := if ok then s.verifyCode b else 8
  let i := imageOf ((s.imageHeader b).getD [])
  let s0 := if ok then s.bankRead b else s.flashError
  if code = 0 then (s0.setMark b (some (i.digest, i.version))).endStage ref .ok i.version
  else
    let s1 := if code = 8 then s0.flashError else s0
    s1.endStage ref .integrityLost (BitVec.ofNat 32 code)

/-! ### FLASH_OPERATION_END (R330, R331, R334, R368) -/

/-- The job that ends next: the code load has the port alone; a table read or a library read comes before FW_STAGE, suspending an erase
or a program that runs in the same device, or waiting for it where the device does not suspend; one in the other device goes on
(R368; notes/assumptions/62.md). -/
def State.served (s : State) : Option FlashJob :=
  if s.mp.loading then none
  else
    match s.mp.running.filter (fun j => s.mp.jobs.contains j), s.mp.nextRead with
    | some j, some r => if s.jobDevice j = s.jobDevice r && !s.mp.suspends (s.jobDevice j) then some j else some r
    | some j, none => some j
    | none, some r => some r
    | none, none => s.mp.jobs.find? FlashJob.isStage

/-- FLASH_OPERATION_END: the operation that the port serves ends, and fails where the device reports so (R491). -/
def State.flashEnd (s : State) (ok : Bool) : State :=
  match s.served with
  | none => s
  | some j =>
    let s1 : State := { s with mp := { s.mp with jobs := s.mp.jobs.erase j } }
    State.portStart (match j with
      | .table ref t a => s1.tableRead ok ref t a
      | .library ref a r b m v => s1.libraryRead ok ref a r b m v
      | .erase ref _ => s.stageOpEnd ok j ref
      | .program ref _ _ => s.stageOpEnd ok j ref
      | .verify ref => s.verifyEnd ok ref)

/-- FLASH_OPERATION_END (R334). -/
def execFlashOperationEnd (ok : Bool) (s : State) : Host.Outcome State Fault Refusal := .next (s.flashEnd ok)

/-! ### The live switch (R371, R420 to R423) -/

/-- Staged completions enter the ring, and dispatch goes on (R420). -/
def State.resume (s : State) : State :=
  { s with dev := { s.dev with suspended := false, wdSuspended := false }
           q := ({ s.q with ring := s.q.ring ++ s.q.staged, staged := [] } : Queues).request }

/-- A firmware switch has suspended dispatch: its code loads, or waits for the switch frame (R422). -/
def MemPort.switching (m : MemPort) : Bool :=
  match m.switch with
  | some (.loading _ _) => true
  | some (.waitBoundary _ _) => true
  | some (.waitQuiescent _) => false
  | none => false

/-- Nothing runs that a switch must wait for (R422). -/
def State.quiet (s : State) : Bool :=
  !s.mp.staging && s.mp.stream.isNone && (allAxes.all fun n => (s.ax n).prot.ident.isNone)
    && s.mp.jobs.all fun j => match j with
      | .library _ _ _ _ _ _ => false
      | _ => true

/-- Dispatch and the watchdog are suspended by a switch (R422). -/
def State.suspend (s : State) (sw : SwitchStep) : State :=
  { s with dev := { s.dev with suspended := true, wdSuspended := true }, mp := { s.mp with switch := some sw } }

/-- The quiescent point of a switch: the code load begins (R422). -/
def State.quiesce (s : State) : State :=
  match s.mp.switch with
  | some (.waitQuiescent ref) => if s.quiet && !s.dev.suspended then s.suspend (.loading ref s.inactiveBank) else s
  | some (.loading _ _) => s
  | some (.waitBoundary _ _) => s
  | none => s

/-- FW_SWITCH: refused where the other bank holds no verified image; a switch of your host ends the trying of banks (R335). -/
def fwSwitchBody (s : State) (p : Packet) : State :=
  s.guarded p [badKey p.params 0, reserved p.params 2 2,
      badState (s.mp.cfgErr || (s.mark s.inactiveBank).isNone || s.mp.switch.isSome)] fun s =>
    State.quiesce { s with mp := { s.mp with switch := some (.waitQuiescent p.ref), boot := [] } }

/-- FW_SWITCH (R335). -/
def execFwSwitch (core : CoreId) (s : State) : Host.Outcome State Fault Refusal := .next (s.runOpcode core 0x41 fwSwitchBody)

/-- The version that a bank's header gives; open where it cannot be read (notes/assumptions/5.md). -/
def State.bankVersion (s : State) (b : Bool) : BitVec 24 :=
  match s.imageHeader b with
  | some h => (imageOf h).version.setWidth 24
  | none => Config.shaleData 3

/-- A code load whose digest does not match: the previous bank's code comes back, or ROM and patch firmware; the failed bank loses
its mark (R423). -/
def State.codeFailed (s : State) (ref : CmdRef) (b : Bool) : State :=
  let s1 := (s.setMark b none).shale 3 3 255 (s.bankVersion b)
  let back := match s.imageHeader s.mp.runBank with
    | some h => s.codeOk s.mp.runBank (imageOf h)
    | none => false
  let s2 : State := if s.mp.romOnly || back then s1 else { s1 with mp := { s1.mp with romOnly := true, version := 0 } }
  (({ s2 with mp := { s2.mp with switch := none } }).complete ref .rejectState 0 0xFF s.m7pos 5).resume

/-- FW_CODE_LOAD_END (R422, R423). -/
def State.codeLoadEnd (s : State) : State :=
  match s.mp.switch with
  | some (.loading ref b) =>
    let good := match s.imageHeader b with
      | some h => s.codeOk b (imageOf h)
      | none => false
    let s1 := s.bankRead b
    if good then { s1 with mp := { s1.mp with switch := some (.waitBoundary ref b) } } else s1.codeFailed ref b
  | some (.waitQuiescent _) => s
  | some (.waitBoundary _ _) => s
  | none => s

/-- BOOT_BANK_TRY: the first bank not yet tried is accepted, and takes over at the next boundary, or is rejected (R371). -/
def State.tryBank (s : State) : State :=
  match s.mp.boot with
  | [] => s
  | b :: rest =>
    if s.dev.ready && s.mp.switch.isNone && !s.dev.suspended && s.quiet then
      let s1 := s.bankRead b
      match s.bootImage b with
      | some _ => ({ s1 with mp := { s1.mp with boot := [] } }).suspend (.waitBoundary .internal b)
      | none => ({ s1 with mp := { s1.mp with boot := rest } }).shale 3 2 255 (s.bankVersion b)
    else s

/-- BOOT_BANK_TRY (R371). -/
def execBootBankTry (s : State) : Host.Outcome State Fault Refusal := .next s.tryBank

/-- The record that a change of the boot bank starts from: the one being written, else the one stored (R389). -/
def State.storedRecord (s : State) : Vector Word 64 :=
  (s.dev.optWrite <|> s.nvm.copyA <|> s.nvm.copyB).getD s.dev.opts

/-- The boot bank is written by the procedure of the options (R361, R389, R422). -/
def State.writeBootBank (s : State) (b : Bool) : State := s.writeOptions (withBootBank s.storedRecord b)

/-- The floor follows an image that raises it (R370). -/
def Nvm.raiseFloor (v : Nvm) (i : Image) : Nvm := if i.raiseFloor then { v with floor := i.version } else v

/-- The switch frame: the new bank runs and dispatch resumes; an FW_SWITCH also sets the boot bank and the floor (R371, R422). -/
def State.takeOver (s : State) (ref : CmdRef) (b : Bool) : State :=
  let i := imageOf ((s.imageHeader b).getD [])
  let s1 : State := { s with mp := { s.mp with runBank := b, romOnly := false, version := i.version, switch := none } }
  let s2 := (s1.shale 3 1 255 (i.version.setWidth 24)).resume
  match ref with
  | .internal => s2
  | r => (State.writeBootBank { s2 with nvm := s2.nvm.raiseFloor i } b).complete r .ok 0 0xFF s2.m7pos s2.bankWord

/-- What a boundary does to a switch (R422). -/
def State.switchFrame (s : State) : State :=
  match s.mp.switch with
  | some (.waitBoundary ref b) => s.takeOver ref b
  | some (.waitQuiescent _) => s.quiesce
  | some (.loading _ _) => s
  | none => s

/-! ### LIFECYCLE (R336, R401) -/

/-- The state that an operation of LIFECYCLE leads to. -/
def lifeTarget (op : Nat) : LifeCycle := if op = 2 then .retired else .field

/-- An operation of LIFECYCLE is allowed from a state (R336). -/
def lifeAllowed (op : Nat) (l : LifeCycle) : Bool :=
  match op with
  | 1 => l = .service
  | 2 => l = .field || l = .service
  | 3 => l = .manufacture
  | _ => true

/-- The checks of LIFECYCLE in the order of R313 (R336, R402). -/
def State.lifeChecks (s : State) (par : List Byte) : List Check :=
  let op := uAt par 0 1
  let change := 1 ≤ op && op ≤ 3
  [badState (!lifeAllowed op s.nvm.lc), (change && uAt par 2 2 ≠ 0xC3A5, .rejectKey, 18), badField 0 (3 < op), reserved par 1 1,
    badField 4 (uAt par 4 4 ≠ if op = 2 then 0x52455449 else 0), badState (change && s.anyEnabled),
    badState (op = 3 && (s.nvm.devKey.isNone || s.nvm.fwKey.isNone))]

/-- An accepted transition: the state word, its Shale entry, then a device reset; RETIRED also begins the erasure (R401, R404). -/
def State.transition (s : State) (l : LifeCycle) : State :=
  let s1 := s.changeLife l
  State.startReset { s1 with nvm := { s1.nvm with erasing := s1.nvm.erasing || l = .retired } } 2

/-- LIFECYCLE (R336). -/
def lifecycleBody (s : State) (p : Packet) : State :=
  let op := uAt p.params 0 1
  s.guarded p (s.lifeChecks p.params) fun s =>
    if op = 0 then s.done p (s.identifyWord 5) else s.transition (lifeTarget op)

/-- LIFECYCLE (R336). -/
def execLifecycle (core : CoreId) (s : State) : Host.Outcome State Fault Refusal := .next (s.runOpcode core 0x48 lifecycleBody)

/-! ### FUSE_PROGRAM (R337, R392, R395) -/

/-- A signal pin is governed by the fuse map (R392). -/
def fusePin (i : Nat) : Bool := i ≤ 117 || (121 ≤ i && i ≤ 127) || i = 133 || i = 134

/-- A signal pin has been taken over from its fuse state: an AXIO pin by its first routing since the reset, any other at the end of the
options load (R111, R394). -/
def State.pinTaken (s : State) (i : Fin 144) : Bool := if h : i.val < 96 then (s.pin ⟨i.val, h⟩).routed else s.dev.pinsTaken

/-- An AXIO pin is routed as an output (R119). -/
def State.pinDriven (s : State) (i : Fin 144) : Bool := if h : i.val < 96 then isOutput (s.pin ⟨i.val, h⟩).func else false

/-- What a governed pin shows of its latched fuse code: the code until the pin is taken over; then code 11 is high impedance, and a
weak pull stays in force but on an AXIO pin routed as an output (R391, R394). -/
def State.fuseLevel (s : State) (i : Fin 144) : BitVec 2 :=
  let c := s.dev.fuseState[i.val]
  if s.dev.stage = .fuseSensing || !fusePin i.val then 0
  else if s.pinTaken i && (c = 3 || s.pinDriven i) then 0
  else c

/-- FAULTN is pulled low: the FAULT bit or SAFE_HOLD once the pin has been taken over, its fuse state before (R456). -/
def State.faultnLow (s : State) : Bool :=
  if s.dev.pinsTaken then s.faultBit || s.dev.safeHold else s.fuseLevel 134 = 3

/-- The records of a FUSE_PROGRAM: PIN and STATE. -/
def fuseRecords (par : List Byte) : List (Nat × Nat) := (List.range (uAt par 2 1)).map fun i => (uAt par (4 + 2 * i) 1, uAt par (5 + 2 * i) 1)

/-- The checks of FUSE_PROGRAM (R337, R395). -/
def State.fuseChecks (s : State) (par : List Byte) : List Check :=
  let n := uAt par 2 1
  let l := fuseRecords par
  let r := fun (i : Nat) => l.getD i (0, 0)
  [badState (s.nvm.lc ≠ .manufacture && s.nvm.lc ≠ .service), badKey par 0, badField 2 (n = 0 || 118 < n), reserved par 3 1]
    ++ ((List.range n).flatMap fun i =>
        ([badField (4 + 2 * i) (!fusePin (r i).1 || (l.take i).any fun x => x.1 = (r i).1),
          badField (5 + 2 * i) ((r i).2 = 0 || 3 < (r i).2)] : List Check))
    ++ ([badState (s.anyEnabled || s.dev.fuseSeq.isSome)] : List Check)

/-- A signal pin has been programmed (R395). -/
def State.blown (s : State) (i : Nat) : Bool := if h : i < 144 then s.nvm.fuses[i] ≠ 0 else false

/-- WORD of FUSE_PROGRAM (R337). -/
def fuseWord (done skipped : Nat) : Word := fields [(0, done), (16, skipped)]

/-- FUSE_PROGRAM: programmed pins are skipped, each with WONCE_VIOL; the others are programmed one by one (R337, R395). -/
def fuseProgramBody (s : State) (p : Packet) : State :=
  s.guarded p (s.fuseChecks p.params) fun s =>
    let l := fuseRecords p.params
    let old := l.filter fun r => s.blown r.1
    let todo := (l.filter fun r => !s.blown r.1).map fun r => ((Fin.ofNat 144 r.1 : Fin 144), BitVec.ofNat 2 r.2)
    let s1 := s.forAll old fun s _ => s.wonceViol .host
    if todo.isEmpty then s1.done p (fuseWord 0 old.length)
    else { s1 with dev := { s1.dev with fuseSeq := some (p.ref, todo, todo.length, old.length) }
                   nvm := { s1.nvm with pulse := s1.nvm.pulse || s1.marginOk } }

/-- FUSE_PROGRAM (R337). -/
def execFuseProgram (core : CoreId) (s : State) : Host.Outcome State Fault Refusal := .next (s.runOpcode core 0x49 fuseProgramBody)

/-! ### NVM_PROGRAM_END (R389, R395, R425, R480) -/

/-- Whether a pulse runs: one of a sequence that has not ended, once VDD is above the write margin (R384). -/
def State.settlePulse (s : State) : State :=
  { s with nvm := { s.nvm with pulse := s.marginOk && (s.dev.optWrite.isSome || s.dev.fuseSeq.isSome) } }

/-- A BANK_SELECT whose write has ended has its result (R350, R361); of a failed verify the result is DEDUCED
(notes/assumptions/34.md). -/
def State.bankResult (s : State) (failed : Bool) : State :=
  if s.sb.pendBank then (s.sbResult (if failed then Status.integrityLost.code else Status.ok.code)).alert 5 else s

/-- An option write has ended (R389, R480); which copy failed its verify is open (notes/assumptions/9.md). -/
def State.optionsEnd (s : State) (failed : Bool) : State :=
  match s.dev.optWrite with
  | none => s
  | some r =>
    let s1 : State := { s with dev := { s.dev with optBusy := false, optWrite := none } }
    if failed then
      let (c, s2) := s1.freeVal
      let v := if c % 2 = 0 then { s2.nvm with copyB := none } else { s2.nvm with copyB := some r, copyA := none }
      ((State.shale { s2 with nvm := v, dev := { s2.dev with wrFail := true } } 10 5 255 (Config.shaleData 10)).settlePulse).bankResult true
    else (State.settlePulse { s1 with nvm := { s1.nvm with copyB := some r, copyA := some r } }).bankResult false

/-- A fuse sequence has ended (R395). -/
def State.fuseEnd (s : State) : State :=
  match s.dev.fuseSeq with
  | none => s
  | some (ref, l, done, skipped) =>
    let s1 : State := { s with dev := { s.dev with fuseSeq := none }, nvm := s.nvm.blow l }
    s1.settlePulse.complete ref .ok 0 0xFF s.m7pos (fuseWord done skipped)

/-- The oldest Shale entry that waits has been written; one entry then records those dropped (R425). -/
def State.shaleEnd (s : State) : State :=
  match s.dev.shalePend with
  | [] => s
  | e :: rest =>
    let s1 := ({ s with dev := { s.dev with shalePend := rest } }).writeShale e
    if s1.dev.shaleDropped = 0 then s1
    else
      let n := s1.dev.shaleDropped
      ({ s1 with dev := { s1.dev with shaleDropped := 0 } }).shale 11 1 255 (BitVec.ofNat 24 n)

/-- NVM_PROGRAM_END (R389, R395, R425). -/
def State.nvmEnd (s : State) (job : NvmJob) (failed : Bool) : State :=
  match job with
  | .options => s.optionsEnd failed
  | .fuse => s.fuseEnd
  | .shale => s.shaleEnd

/-- NVM_PROGRAM_END: a sequence whose pulses may not start does not end (R384, R389). -/
def execNvmProgramEnd (job : NvmJob) (verifyFailed : Bool) (s : State) : Host.Outcome State Fault Refusal :=
  .next (if s.marginOk || s.nvm.pulse then s.nvmEnd job verifyFailed else s)

/-- POH_SAVE: an hour of VDD has passed, and is saved (R425). -/
def execPohSave (s : State) : Host.Outcome State Fault Refusal := .next { s with nvm := { s.nvm with pohSaved := s.nvm.pohSaved + 1 } }

end Sys2Proof.Machine
end

