-- ==== Sys2Proof/Machine/Integrity.lean ====
section
/-! DEFINITION. Memory checks, configuration parity, the watchdog and the interpreter restart (16_integrity.md R397, R405 to R421). -/
namespace Sys2Proof.Machine
open Sys2Proof

/-! ### The interpreter restart (R418, R419) -/

/-- What only a core runs ends: IDENTIFY_MOTOR, FW_STAGE with the mark of its bank, and LOAD_LIBRARY, which may still be
reading (R419). -/
def State.endCoreRun (s : State) : State :=
  let s1 := s.forAll allAxes fun s n => s.endIdent n .rejectState noField
  let s2 := match s1.mp.jobs.find? FlashJob.isStage with
    | none => s1
    | some j =>
      (s1.cutFlash.setMark s1.inactiveBank none).endStage j.ref .rejectState noField
  let reading := s2.mp.jobs.filterMap fun (j : FlashJob) => match j with
    | .library r _ _ _ _ _ => some r
    | _ => none
  let s3 : State := { s2 with mp := { s2.mp with jobs := s2.mp.jobs.filter fun (j : FlashJob) => match j with
    | .library _ _ _ _ _ _ => false
    | _ => true } }
  s3.endStream.forAll reading fun s r => s.complete r .flushed 0 0xFF s.m7pos 0

/-- The cores restart: dispatch is suspended, packets they held return untaken, and the restart is counted (R379, R418 to
R420). -/
def State.restart (s : State) : State :=
  let s1 : State := { s with
    dev := { s.dev with suspended := true, restarts := if s.dev.restarts = 0xFF then 0xFF else s.dev.restarts + 1 }
    q := { s.q with packets := s.q.packets.map fun (p : Packet) => { p with core := none, verdict := none } } }
  (s1.shale 6 0x20 255 (Config.shaleData 6)).endCoreRun

/-- WATCHDOG_FIRST_STAGE: a core has completed no dispatch cycle for 20 ms; a firmware switch suspends the watchdog (R397,
R422). -/
def execWatchdogFirstStage (s : State) : Host.Outcome State Fault Refusal :=
  .next (if s.dev.stage = .running && !s.dev.wdSuspended then s.restart else s)

/-! ### The SRAM check (R405 to R413) -/

/-- A detected error of live data in a word is counted, with its Shale entry, whose DATA is the word index (R407, R424). -/
def State.sramError (s : State) (code : Byte) (src : Nat) (w : Fin 98304) : State :=
  State.shale { s with dev := { s.dev with sramErr := if s.dev.sramErr = 0xFFFF then 0xFFFF else s.dev.sramErr + 1
                                           sramSeen := w :: s.dev.sramSeen } } 6 code.toNat src (BitVec.ofNat 24 w.val)

/-- An entry of a microstep table fails: a default one is regenerated, a stored custom table reloads, and another is invalid
(R408, R410). -/
def State.tableError (s : State) (t : Fin 4) (e : Nat) (w : Fin 98304) : State :=
  let x := s.tables[t]
  match x.custom, x.faddr with
  | none, _ => s.sramError (Config.integrityCode 2) 255 w
  | some _, some _ =>
    (s.modTable t fun x => { x with reloading := !x.invalid, badEntries := if x.invalid then [] else e :: x.badEntries }).sramError 0x14
      255 w
  | some _, none => (s.modTable t fun x => { x with invalid := true }).sramError 0x14 255 w

/-- Which descriptor of an axis has failed is marked: number `k` counts the running ones first. -/
def AxisMotion.markLost (a : AxisMotion) (k : Nat) : AxisMotion :=
  if k < a.runs.length then a
  else { a with queue := a.queue.zipIdx.map fun (g : Segment × Nat) => if g.2 + a.runs.length = k then { g.1 with lost := true } else g.1 }

/-- A descriptor of an axis fails: the axis stops as by QUICKSTOP without the flush flag and its segments end, or it is disabled
where its profile cache has failed too (R411); which of its descriptors it was is open (notes/assumptions/9.md). -/
def State.descriptorError (s : State) (n : AxisId) (cacheFailed : Bool) (w : Fin 98304) : State :=
  let a := (s.ax n).mot
  if a.runs.isEmpty && a.queue.isEmpty then s
  else
    let (c, s1) := (s.sramError 0x13 n.val w).freeVal
    let s2 := (s1.modMot n fun a => a.markLost (c % (a.runs.length + a.queue.length)).toNat).setUnsure n
    if cacheFailed then s2.turnOff n .integrityLost 0x13
    else
      let s3 := s2.stopAxis n true (some (.integrityLost, some 0x13)) none none
      -- with nothing that runs, or a stop decided before, the queue is not left to the end of this stop
      let s4 := if a.runs.isEmpty || a.stop.isSome then s3.flushQueue n .flushed else s3
      s4.refresh n

/-- Firmware data fails: the second copy restores it, or the cores restart and the data is rebuilt; a tag that nothing names then
leaves one entry of its own (R413); AXIS, queue and MPOS of that entry are a DESIGN CHOICE (notes/assumptions/36.md). -/
def State.firmwareError (s : State) (bothFailed lostTag : Bool) (w : Fin 98304) : State :=
  let s1 := s.sramError 0x15 255 w
  if !bothFailed then s1
  else
    let s2 := s1.restart
    if lostTag then ({ s2 with dev := { s2.dev with tagLost := true } }).pushEntry ⟨0, .integrityLost, 0, 0xFF, 0, s2.m7pos, 0x15, false⟩
    else s2

/-- SRAM_SCRUB: an error is detected in a word of a region (R406 to R413). -/
def State.scrub (s : State) (r : SramRegion) (w : Fin 98304) : State :=
  match r with
  | .free => s
  | .profileCache n => s.sramError (Config.integrityCode 0) n.val w
  | .codeCache => s.sramError (Config.integrityCode 1) 255 w
  | .microstepTable t e => s.tableError t e.val w
  | .descriptor n cacheFailed => s.descriptorError n cacheFailed w
  | .packet tag =>
    if s.q.packets.any fun (p : Packet) => p.tag = tag then
      State.sramError { s with q := { s.q with packets := s.q.packets.map fun (p : Packet) =>
        if p.tag = tag then { p with bad := true } else p } } 0x11 255 w
    else s
  | .completion i =>
    if i < s.q.ring.length then
      State.sramError { s with q := { s.q with ring := s.q.ring.modify i fun (c : Completion) => { c with bad := true } } } 0x12 255 w
    else s
  | .firmwareData both lost => s.firmwareError both lost w

/-- SRAM_SCRUB (R406); SRAM is in use while the module runs. A word found in error by a read and by the scrubber in one frame counts
once (R407). -/
def execSramScrub (region : SramRegion) (s : State) (word : Fin 98304 := 0) : Host.Outcome State Fault Refusal :=
  .next (if s.dev.stage = .running && !s.dev.sramSeen.contains word then s.scrub region word else s)

/-! ### Configuration parity (R414, R415, R467) -/

/-- A word of pages 0 to 3 is parity-guarded (R467). -/
def guardedGlobal (page w : Nat) : Bool :=
  match page with
  | 0 => w = 0x05
  | 1 => w = 0x01 || w = 0x04 || w = 0x08 || (0x40 ≤ w && w < 0x80)
  | 2 => w = 0x00 || w = 0x03 || w = 0x05 || (0x10 ≤ w && w < 0x20)
  | 3 => w = 0x00 || (0x03 ≤ w && w ≤ 0x08) || (0x10 ≤ w && w < 0x20)
  | _ => false

/-- A word of a group page is parity-guarded (R467, R503). -/
def guardedGroup (w : Nat) : Bool :=
  w = 0x00 || (0x03 ≤ w && w ≤ 0x06) || w = 0x0A || w = 0x0B || (0x20 ≤ w && w < 0x40)
    || (0x40 ≤ w && (w - 0x40) / 0x30 < 4 && 0x08 ≤ (w - 0x40) % 0x30 && (w - 0x40) % 0x30 ≤ 0x0E)

/-- INTEG_STAT records the page and word of a mismatch (R414). -/
def Device.parityAt (d : Device) (page : BitVec 4) (w : BitVec 8) : Device := { d with parPage := page, parWord := w, parValid := true }

/-- A mismatch of a group page is recorded, and its reaction waits for the next boundary (R414, R424). -/
def State.parityGroup (s : State) (page : BitVec 4) (w : BitVec 8) : State :=
  let k := (page.toNat, w.toNat)
  let axis := 0x40 ≤ w.toNat
  let src := if axis then 4 * (page.toNat - 4) + (w.toNat - 0x40) / 0x30 else page.toNat - 4
  State.shale { s with dev := { s.dev.parityAt page w with parityBad := k :: s.dev.parityBad.filter (· ≠ k)
                                                           parityPend := s.dev.parityPend ++ [(k.1, k.2, false)] } }
    6 (if axis then 0x16 else 0x17) src (pageWord page.toNat w.toNat)

/-- A mismatch of a global word is recorded; at the next boundary its copy restores it, or both have failed (R414, R415). -/
def State.parityGlobal (s : State) (page : BitVec 4) (w : BitVec 8) (copyFailed : Bool) : State :=
  { s with dev := { s.dev.parityAt page w with parityPend := s.dev.parityPend ++ [(page.toNat, w.toNat, copyFailed)] } }

/-- PARITY_SCRUB: the parity of one guarded word mismatches (R414, R415). -/
def State.parityScrub (s : State) (page : BitVec 4) (w : BitVec 8) (copyFailed : Bool) : State :=
  if page.toNat < 4 then (if guardedGlobal page.toNat w.toNat then s.parityGlobal page w copyFailed else s)
  else if guardedGroup w.toNat then s.parityGroup page w
  else s

/-- PARITY_SCRUB (R414). -/
def execParityScrub (page : BitVec 4) (word : BitVec 8) (copyFailed : Bool) (s : State) : Host.Outcome State Fault Refusal :=
  .next (if s.dev.stage = .running then s.parityScrub page word copyFailed else s)

end Sys2Proof.Machine
end

