-- ==== Sys2Proof/Machine/SideBandPort.lean ====
section
/-! DEFINITION. The side-band port: its power states, transactions, alerts and commands (13_sideband.md R340 to R362), and the
commands that let side-band commands go on after dispatch was suspended (16_integrity.md R420, R422). -/
namespace Sys2Proof.Machine
open Sys2Proof

/-! ### Power states and the bus (R340 to R345, R347, R490) -/

/-- A transaction begins: SB_CFG as last written takes effect (R362). -/
def State.sbSettings (s : State) : State :=
  { s with sb := { s.sb with pecUse := s.sb.pecReq, amaskUse := s.sb.amask, hsilUse := s.sb.hsil } }

/-- The port sees its own address: it leaves STANDBY, and a transaction begins (R343, R362). -/
def State.sbWoken (s : State) : State :=
  let s1 := s.sbSettings
  if s1.sb.power = .standby then { s1 with sb := { s1.sb with power := .awake } } else s1

/-- SB_WAKE (R343). -/
def execSbWake (s : State) : Host.Outcome State Fault Refusal := .next s.sbWoken

/-- SB_AWAKE_TIMEOUT: 1 s without a transaction to the port's address (R342). -/
def execSbAwakeTimeout (s : State) : Host.Outcome State Fault Refusal :=
  .next (if s.sb.power = .awake then { s with sb := { s.sb with power := .standby } } else s)

/-- SB_VDD_VALID: the port becomes ACTIVE once the options load has ended (R344), and a write that waited for VDD goes on (R384); a pulse
that a reset waits for ends with NVM_PULSE_END alone (R385). -/
def execSbVddValid (s : State) : Host.Outcome State Fault Refusal :=
  let s1 : State := { s with sb := { s.sb with vdd := true, power := if s.portUp then .active else s.sb.power } }
  .next (if s.dev.stage = .running then s1.settlePulse else s1)

/-- SB_VDD_LOST (R342, R353). -/
def execSbVddLost (s : State) : Host.Outcome State Fault Refusal :=
  .next (State.alert { s with sb := { s.sb with vdd := false, power := if s.sb.power = .active then .awake else s.sb.power } } 4)

/-- SB_BUS_TIMEOUT: SBD is released and the receiver reset (R340). -/
def execSbBusTimeout (s : State) : Host.Outcome State Fault Refusal := .next { s with sb := { s.sb with dataOut := [] } }

/-- VSB_POWER_ON: the VSB domain starts in STANDBY, at 0x50, with SB_CFG at its reset values (R490). -/
def execVsbPowerOn (s : State) : Host.Outcome State Fault Refusal :=
  .next { s with sb := { power := .standby, vdd := s.sb.vdd } }

/-- A later write command replaces the result of an earlier one, even while that one is pending (R350). -/
def SideBand.replace (b : SideBand) : SideBand := { b with pendAct := none, pendReset := false, pendBank := false, pendWait := false }

/-- What the command table says of a command byte: whether it is a write, the bytes that follow it before a PEC or a repeated START,
and whether it acts without VDD (R348). -/
structure SbForm where
  write : Bool
  args : Nat
  vsb : Bool := false

/-- The form of a command byte, none where it is not defined (R348). -/
def sbForm (code : Byte) : Option SbForm :=
  match code.toNat with
  | 0x01 => some ⟨false, 0, true⟩
  | 0x02 => some ⟨false, 0, true⟩
  | 0x03 => some ⟨true, 1, true⟩
  | 0x04 => some ⟨false, 0, true⟩
  | 0x08 => some ⟨false, 2, true⟩
  | 0x10 => some ⟨false, 2, false⟩
  | 0x11 => some ⟨true, 6, false⟩
  | 0x18 => some ⟨false, 1, false⟩
  | 0x19 => some ⟨false, 1, false⟩
  | 0x20 => some ⟨true, 2, false⟩
  | 0x21 => some ⟨true, 2, false⟩
  | 0x22 => some ⟨true, 1, false⟩
  | 0x23 => some ⟨true, 2, false⟩
  | 0x28 => some ⟨true, 1, false⟩
  | 0x29 => some ⟨true, 1, false⟩
  | 0x30 => some ⟨true, 8, false⟩
  | 0x31 => some ⟨true, 16, false⟩
  | 0x38 => some ⟨true, 3, false⟩
  | 0x3F => some ⟨true, 2, false⟩
  | _ => none

/-- The command that a transaction with a command byte, its fixed bytes and an optional PEC byte is, none where the table has no such
command or the bytes are not as many as it fixes (R346, R348). -/
def sbRow (code : Byte) (d : List Byte) (pec : Option Byte) : Option Instr :=
  let b := fun (k : Nat) => byteAt d k
  let key := BitVec.ofNat 16 (uAt d 0 2)
  if (sbForm code).map (·.args) ≠ some d.length then none
  else match code.toNat with
    | 0x01 => some .identity
    | 0x02 => some .lcQuery
    | 0x03 => some (.wake (b 0) pec)
    | 0x04 => some .status
    | 0x08 => some (.shaleRead (BitVec.ofNat 16 (uAt d 0 2)))
    | 0x10 => some (.regRead (b 0) (b 1))
    | 0x11 => some (.regWrite (b 0) (b 1) (wordAt d 2) pec)
    | 0x18 => some (.envRead (b 0))
    | 0x19 => some (.axisRead (b 0))
    | 0x20 => some (.sbStopAll key pec)
    | 0x21 => some (.axisStop (b 0) (b 1) pec)
    | 0x22 => some (.axisEnable (b 0) pec)
    | 0x23 => some (.sbJog (b 0) (b 1) pec)
    | 0x28 => some (.take (b 0) pec)
    | 0x29 => some (.handBack (b 0) pec)
    | 0x30 => some (.serviceEnter (BitVec.ofNat 64 (uAt d 0 8)) pec)
    | 0x31 => some (.passcodeSet (BitVec.ofNat 64 (uAt d 0 8)) (BitVec.ofNat 64 (uAt d 8 8)) pec)
    | 0x38 => some (.bankSelect key (b 2) pec)
    | 0x3F => some (.moduleReset key pec)
    | _ => none

/-- The result a transaction error leaves, none where the command's own result stands, there is no side effect, or the condition is not
an error: a defined command byte, bytes enough, a read, a PEC that is not required (R347). -/
def State.sbErrorCode (s : State) (e : SbError) : Option Byte :=
  match e with
  | .badCommand code => if (sbForm code).isNone then some 0x83 else none
  | .short code k =>
    match sbForm code with
    | some f => if f.write && k < f.args then some 0x82 else none
    | none => none
  | .pecMismatch => some 0x81
  | .missingPec => if s.sb.pecUse then some 0x81 else none
  | .byteAfterPec => none
  | .readPecNotRead => none

/-- A command is discarded with a result (R347). -/
def State.sbDiscard (s : State) (r : Byte) : State := State.sbResult { s with sb := s.sb.replace } r

/-- SB_TRANSACTION_ERROR (R347). -/
def execSbTransactionError (e : SbError) (s : State) : Host.Outcome State Fault Refusal :=
  let s1 := s.sbWoken
  .next (match s1.sbErrorCode e with
    | some r => s1.sbDiscard r
    | none => s1)

/-! ### How commands are answered (R345, R346, R350) -/

/-- Why a command may not act, with its result (R345). -/
def State.sbGate (s : State) (code : Byte) : Option Byte :=
  if s.nvm.lc = .retired then some Status.rejectState.code
  else if ((sbForm code).map (·.vsb)).getD false then none
  else if s.sb.power ≠ .active then some 0x84
  else if !s.dev.ready then some 0x85
  else none

/-- The bytes on SBD that open a transaction: the port's address with R/W = 0, and the command byte (R346). -/
def SideBand.head (b : SideBand) (code : Byte) : List Byte := [b.addr.setWidth 8 <<< 1, code]

/-- What a read command returns: a byte count, that many bytes, and the PEC over every byte of the transaction (R340, R346). -/
def SideBand.answer (b : SideBand) (code : Byte) (args l : List Byte) : List Byte :=
  let block := BitVec.ofNat 8 l.length :: l
  block ++ [crc8Smbus (b.head code ++ args ++ [(b.addr.setWidth 8 <<< 1) ||| 1] ++ block)]

/-- Byte `k` that the port sends in a read: after the PEC, 0xFF for as long as the side-band host acknowledges (R346). -/
def SideBand.byteOut (b : SideBand) (k : Nat) : Byte := b.dataOut.getD k 0xFF

/-- A read command with its command byte and arguments returns its bytes. -/
def State.sbReturn (s : State) (code : Byte) (args l : List Byte) : State :=
  { s with sb := { s.sb with dataOut := s.sb.answer code args l } }

/-- A read command acts, with the bytes that it returns; one that may not act, or whose arguments are wrong, returns N = 0
(R345, R347). -/
def State.sbRead (s : State) (code : Byte) (args : List Byte) (body : State → List Byte × State) : State :=
  let s1 := s.sbWoken
  match s1.sbGate code with
  | some _ => s1.sbReturn code args []
  | none =>
    let (l, s2) := body s1
    { s2 with sb := { s2.sb with dataOut := s1.sb.answer code args l } }

/-- A write command's PEC is wrong, or missing where it is required (R347). -/
def SideBand.pecBad (b : SideBand) (code : Byte) (data : List Byte) (pec : Option Byte) : Bool :=
  match pec with
  | some p => p ≠ crc8Smbus (b.head code ++ data)
  | none => b.pecUse

/-- A write command reaches its execution point: its code is kept, and it acts or has its result; one without a good PEC is discarded
(R345, R347, R349). -/
def State.sbWrite (s : State) (code : Byte) (data : List Byte) (pec : Option Byte) (gate : State → Option Byte) (body : State → State) :
    State :=
  let s0 := s.sbWoken
  if s0.sb.pecBad code data pec then s0.sbDiscard 0x81
  else
    let s1 : State := { s0 with sb := { s0.sb.replace with lastCmd := code, dataOut := [] } }
    match gate s1 with
    | some r => s1.sbResult r
    | none => body s1

/-- The axis of a command, none above 47 or for a gang partner (R348). -/
def State.sbAxis (s : State) (axis : Byte) : Option AxisId :=
  match axisOfByte axis with
  | some n => if s.isPartner n then none else some n
  | none => none

/-- A command on an axis: `checks` give its refusal, else it acts (R348). -/
def State.sbOnAxis (s : State) (axis : Byte) (checks : AxisId → List (Bool × Status)) (act : State → AxisId → State) : State :=
  match s.sbAxis axis with
  | none => s.sbResult Status.rejectAxis.code
  | some n =>
    match (checks n).find? fun c => c.1 with
    | some c => s.sbResult c.2.code
    | none => act s n

/-- A command of class B acts only on an axis owned by SIDEBAND (R348). -/
def State.notOwned (s : State) (n : AxisId) : Bool × Status := ((s.ax n).prot.owner ≠ .sideband, .rejectOwner)

/-- An action over time begins: the result reads PENDING until it ends (R350). -/
def State.sbPending (s : State) (n : AxisId) (kind : ActKind) : State :=
  let act := s.q.nextAct
  let s1 := s.addAction .sideband (axByte n) kind [n]
  { s1 with sb := { s1.sb with result := 0x80, pendAct := some act } }

/-- A command accepted with number `seq` may be taken and start: a core is free, every packet of Q0 accepted before it has been taken,
and those that must start before it have started (R295, R297, R359). -/
def State.sbTurn (s : State) (seq : Nat) (c : Instr) : Bool :=
  s.dispatching && (List.finRange 4).any s.coreFree
    && s.q.packets.all fun (p : Packet) => !(p.queue = 0 && p.seq < seq) || (p.core.isSome && !sbMeets c p)

/-- A command that the cores handle enters the arbiter as a packet of Q0, with its pre-emption: it acts where its turn has come, else it
waits (R296, R359, R420). -/
def State.sbDispatch (s : State) (c : Instr) (act : State → State) : State :=
  let s1 := if s.dispatching then s.preempt else s
  if s1.sb.waiting.isEmpty && s1.sbTurn s1.q.nextSeq c then act s1
  else { s1 with sb := { s1.sb with waiting := s1.sb.waiting ++ [(s1.q.nextSeq, c)], result := 0x80, pendWait := true }
                 q := { s1.q with nextSeq := s1.q.nextSeq + 1 } }

/-! ### Read commands (R348, R349, R351, R352) -/

/-- The code of a port state (R348). -/
def sbPowerCode (p : SbPower) : Nat :=
  match p with
  | .standby => 0
  | .awake => 1
  | .active => 2

/-- The record of options that the port reads: the one in force, or the one in NVM while VDD is absent (R342). -/
def State.sbOptions (s : State) : Vector Word 64 :=
  if s.sb.power = .active then s.dev.opts else (s.nvm.loadRecord.1.map fixOptions).getD defaultOptions

/-- IDENTITY (R348); RETIRED still answers it (R345). -/
def execIdentity (s : State) : Host.Outcome State Fault Refusal :=
  let s1 := s.sbWoken
  .next (s1.sbReturn 0x01 [] (wordBytes 0x00004896 ++ wordBytes s1.idStep ++ [optByte s1.sbOptions 8, s1.sb.addr.setWidth 8]))

/-- LC_QUERY (R348); RETIRED still answers it (R345). -/
def execLcQuery (s : State) : Host.Outcome State Fault Refusal :=
  let s1 := s.sbWoken
  .next (s1.sbReturn 0x02 [] [BitVec.ofNat 8 (lcCode s1.nvm.lc), BitVec.ofNat 8 (sbPowerCode s1.sb.power)])

/-- Axes owned by SIDEBAND. -/
def State.sbOwned (s : State) : Nat := (allAxes.filter fun n => (s.ax n).prot.owner = .sideband).length

/-- The status block (R349). -/
def State.sbStatus (s : State) : List Byte :=
  [BitVec.ofNat 8 (bit s.sb.vdd + 2 * bit s.dev.ready + 4 * sbPowerCode s.sb.power + 16 * lcCode s.nvm.lc), s.sb.lastCmd, s.sb.result,
    s.sb.regErr, s.sb.causes.setWidth 8, BitVec.ofNat 8 s.sbOwned]

/-- STATUS: the block is returned, and its byte 3 and the latched causes are cleared (R349). -/
def execStatus (s : State) : Host.Outcome State Fault Refusal :=
  .next (s.sbRead 0x04 [] fun s => (s.sbStatus, { s with sb := { s.sb with regErr := 0, causes := 0, announced := 0 } }))

/-- SHALE_READ (R348, R426). -/
def execShaleRead (index : BitVec 16) (s : State) : Host.Outcome State Fault Refusal :=
  .next (s.sbRead 0x08 (leBytes 2 index.toNat) fun s =>
    ((s.shaleValid[index.toNat]?.map ShaleEntry.bytes).getD (List.replicate 16 0), s))

/-- REG_READ (R352). -/
def execRegRead (page word : Byte) (s : State) : Host.Outcome State Fault Refusal :=
  .next (s.sbRead 0x10 [page, word] fun s =>
    if page.toNat < 16 then
      let (w, s1) := s.regRead .sideband page.toNat word.toNat
      (wordBytes w, s1)
    else ([], s.regError .sideband 1))

/-- ENV_READ: a group's die temperature, VM_MON and GRP_STAT, or the module's readings (R351); VDD and VSB are free values
(notes/assumptions/7.md). -/
def execEnvRead (arg : Byte) (s : State) : Host.Outcome State Fault Refusal :=
  .next (s.sbRead 0x18 [arg] fun s =>
    if h : arg.toNat < 12 then
      let g := s.grp ⟨arg.toNat, h⟩
      (leBytes 2 g.temp.toNat ++ leBytes 4 g.vm.toNat ++ leBytes 2 g.stat.toNat, s)
    else if arg = 12 then
      let k := s.dev.free
      (leBytes 2 s.dev.tbase.toNat ++ leBytes 2 (Config.vddMillivolt k).toNat ++ leBytes 2 (Config.vsbMillivolt k).toNat ++ [0, 0],
        { s with dev := { s.dev with free := k + 1 } })
    else ([], s))

/-- AXIS_READ (R351). -/
def execAxisRead (axis : Byte) (s : State) : Host.Outcome State Fault Refusal :=
  .next (s.sbRead 0x19 [axis] fun s =>
    match s.sbAxis axis with
    | some n => (wordBytes (s.axStat n) ++ wordBytes (s.axOwner n) ++ wordBytes (hiWord (s.ax n).mot.out) ++ wordBytes (s.axMpos n), s)
    | none => ([], s))

/-! ### Write commands of the module (R342, R352, R358, R360, R361) -/

/-- WAKE (R342, R348). -/
def execWake (value : Byte) (s : State) (pec : Option Byte := none) : Host.Outcome State Fault Refusal :=
  .next (s.sbWrite 0x03 [value] pec (fun s => s.sbGate 0x03) fun s =>
    if 1 < value.toNat then s.sbResult Status.rejectParam.code
    else
      let s1 := s.sbResult Status.ok.code
      if value = 0 && s1.sb.power = .awake then { s1 with sb := { s1.sb with power := .standby } } else s1)

/-- REG_WRITE (R352): the register error code tells what became of the word. -/
def execRegWrite (page word : Byte) (value : Word) (s : State) (pec : Option Byte := none) : Host.Outcome State Fault Refusal :=
  .next (s.sbWrite 0x11 ([page, word] ++ wordBytes value) pec (fun s => s.sbGate 0x11) fun s =>
    if page.toNat < 16 then (State.regWrite s .sideband page.toNat word.toNat value 0).sbResult Status.ok.code
    else (s.regError .sideband 1).sbResult Status.rejectParam.code)

/-- STOP_ALL acts as soon as the controller can take stop marks, whatever READY is (R345). -/
def State.stopGate (s : State) : Option Byte :=
  if s.nvm.lc = .retired then some Status.rejectState.code
  else if s.sb.power ≠ .active then some 0x84
  else if s.framing then none
  else some 0x85

/-- A side-band STOP_ALL sets the stop marks (R308, R358). -/
def State.sbStop (s : State) : State :=
  let s1 : State := { s with sb := { s.sb with result := 0x80, pendAct := some s.q.nextAct } }
  s1.startStopAll .sideband s1.q.nextSeq

/-- SB_STOP_ALL: it takes its place in Q0, but needs no core while dispatch is suspended (R308, R359, R420). -/
def execSbStopAll (key : BitVec 16) (s : State) (pec : Option Byte := none) : Host.Outcome State Fault Refusal :=
  .next (s.sbWrite 0x20 (leBytes 2 key.toNat) pec State.stopGate fun s =>
    if key ≠ 0xC3A5 then s.sbResult Status.rejectKey.code
    else if s.dispatching then s.sbDispatch (.sbStopAll key pec) State.sbStop
    else s.sbStop)

/-- Ten minutes in PWM ticks. -/
def tenMinutes : Nat := msTicks 600000

/-- A wrong passcode: its Shale entry, and LOCKED_OUT with the third within ten minutes (R360). -/
def State.wrongPasscode (s : State) : State :=
  let l := s.tb.tick :: s.sb.wrongPass.filter fun t => s.tb.tick < t + tenMinutes
  let s1 : State := { s with sb := { s.sb with wrongPass := if 3 ≤ l.length then [] else l
                                               lockedOut := s.sb.lockedOut || 3 ≤ l.length } }
  (s1.shale 9 2 255 1).sbResult Status.rejectKey.code

/-- What a passcode command checks in common (R360): the lock-out, the state, the passcode. -/
def State.passcodeGuard (s : State) (bad : Bool) (code : BitVec 64) (act : State → State) : State :=
  if s.sb.lockedOut then s.sbResult 0x86
  else if bad then s.sbResult Status.rejectState.code
  else if code = s.nvm.passcode then act s
  else s.wrongPasscode

/-- A device reset that a side-band command starts: its result reads OK after READY returns (R360, R361). -/
def State.awaitReset (s : State) : State := { s with sb := { s.sb with result := 0x80, pendReset := true } }

/-- SERVICE_ENTER (R360, R401). -/
def execServiceEnter (passcode : BitVec 64) (s : State) (pec : Option Byte := none) : Host.Outcome State Fault Refusal :=
  .next (s.sbWrite 0x30 (leBytes 8 passcode.toNat) pec (fun s => s.sbGate 0x30) fun s =>
    s.passcodeGuard (s.nvm.lc ≠ .field || s.anyEnabled) passcode fun s => s.awaitReset.transition .service)

/-- PASSCODE_SET (R360). -/
def execPasscodeSet (old new : BitVec 64) (s : State) (pec : Option Byte := none) : Host.Outcome State Fault Refusal :=
  .next (s.sbWrite 0x31 (leBytes 8 old.toNat ++ leBytes 8 new.toNat) pec (fun s => s.sbGate 0x31) fun s =>
    s.passcodeGuard (s.nvm.lc ≠ .manufacture && s.nvm.lc ≠ .service) old fun s =>
      State.sbResult { s with nvm := { s.nvm with passcode := new } } Status.ok.code)

/-- PASSCODE_LOCKOUT_END: 60 s have passed (R360). -/
def execPasscodeLockoutEnd (s : State) : Host.Outcome State Fault Refusal := .next { s with sb := { s.sb with lockedOut := false } }

/-- BANK_SELECT: the boot bank is written, and the result reads PENDING until that ends (R350, R361). -/
def execBankSelect (key : BitVec 16) (bank : Byte) (s : State) (pec : Option Byte := none) : Host.Outcome State Fault Refusal :=
  .next (s.sbWrite 0x38 (leBytes 2 key.toNat ++ [bank]) pec (fun s => s.sbGate 0x38) fun s =>
    if key ≠ 0xC3A5 then s.sbResult Status.rejectKey.code
    else if 1 < bank.toNat then s.sbResult Status.rejectParam.code
    else if (s.mark (bank = 1)).isNone then s.sbResult Status.rejectState.code
    else State.writeBootBank { s with sb := { s.sb with result := 0x80, pendBank := true } } (bank = 1))

/-- MODULE_RESET (R361, R377). -/
def execModuleReset (key : BitVec 16) (s : State) (pec : Option Byte := none) : Host.Outcome State Fault Refusal :=
  .next (s.sbWrite 0x3F (leBytes 2 key.toNat) pec (fun s => s.sbGate 0x3F) fun s =>
    if key = 0xC3A5 then s.awaitReset.startReset 4 else s.sbResult Status.rejectKey.code)

/-! ### Commands on one axis (R355 to R358) -/

/-- AXIS_STOP acts by STOP, QUICKSTOP or DISABLE whatever the owner (R358); a DISABLE ends a recipe that streams into the axis (R331). -/
def State.axisStopAct (s : State) (axis mode : Byte) : State :=
  s.sbOnAxis axis (fun _ => [(2 < mode.toNat, .rejectParam)]) fun s n =>
    let act := s.q.nextAct
    match mode.toNat with
    | 0 => (s.sbPending n .stop).addSnap (.stop n false false act)
    | 1 => (s.sbPending n .quickstop).addSnap (.stop n true false act)
    | _ => ((s.endStreamOn [n]).sbPending n .disable).startDisable n act

/-- AXIS_ENABLE acts by ENABLE (R325, R358). -/
def State.axisEnableAct (s : State) (axis : Byte) : State :=
  s.sbOnAxis axis (fun n => [s.notOwned n]) fun s n => (s.sbPending n .enable).startEnable n s.q.nextAct

/-- A running side-band jog stops at the next snapshot, as at the release of a button (R357). -/
def State.sbJogStop (s : State) (n : AxisId) : State :=
  State.addSnap { s with sb := { s.sb with jogs := s.sb.jogs.filter (· ≠ n) } } (.handBack n s.q.nextAct)

/-- A side-band jog runs in a direction, and is not stopping (R357). -/
def State.jogging (s : State) (n : AxisId) (positive : Bool) : Bool :=
  s.sb.jogs.contains n && (s.ax n).mot.stop.isNone && ((s.ax n).mot.jog.map (·.positive)) = some positive

/-- SB_JOG: starts, renews, reverses or stops a jog on an axis owned by SIDEBAND; a disabled axis runs none
(R134, R357; notes/assumptions/37.md). -/
def State.sbJogAct (s : State) (axis direction : Byte) : State :=
  let bad := direction ≠ 0x01 && direction ≠ 0xFF && direction ≠ 0x00
  s.sbOnAxis axis (fun n => [(bad, .rejectParam), s.notOwned n, (direction ≠ 0 && !(s.ax n).drv.enabled, .rejectState)]) fun s n =>
    let s1 := s.dropJogWait n .stopped 0
    let positive : Bool := direction = 0x01
    if direction = 0 then (s1.sbJogStop n).sbResult Status.ok.code
    else if s1.jogging n positive then s1.sbResult Status.ok.code
    else
      let s2 := if (s1.ax n).mot.jog.isSome then s1.sbJogStop n else s1
      let s3 := s2.sbPending n .sbJog
      { s3 with sb := { s3.sb with jogWait := s3.sb.jogWait ++ [(n, positive)] } }

/-- SB_JOG_EXPIRY: a jog not renewed within 500 ms stops, and OWNED is latched (R353, R357). -/
def execSbJogExpiry (n : AxisId) (s : State) : Host.Outcome State Fault Refusal :=
  .next (if s.sb.jogs.contains n then (s.sbJogStop n).alert 2 else s)

/-- TAKE: the axis becomes SIDEBAND-owned at the next snapshot; one that is already completes OK (R355). -/
def State.takeAct (s : State) (axis : Byte) : State :=
  s.sbOnAxis axis (fun _ => []) fun s n =>
    if (s.ax n).prot.owner = .sideband then s.sbResult Status.ok.code
    else (s.sbPending n .take).addSnap (.take n s.q.nextAct)

/-- HAND_BACK: a running side-band jog stops, and the axis returns to HOST when it rests (R356). -/
def State.handBackAct (s : State) (axis : Byte) : State :=
  s.sbOnAxis axis (fun n => [s.notOwned n]) fun s n =>
    let s1 := (s.dropJogWait n .stopped 0).sbPending n .handBack
    State.addSnap { s1 with sb := { s1.sb with jogs := s1.sb.jogs.filter (· ≠ n) } } (.handBack n s.q.nextAct)

/-- A write command on one axis: it reaches the arbiter as a packet of Q0 (R359). -/
def State.sbCommand (s : State) (code : Byte) (data : List Byte) (pec : Option Byte) (c : Instr) (act : State → State) : State :=
  s.sbWrite code data pec (fun s => s.sbGate code) fun s => s.sbDispatch c act

/-- AXIS_STOP (R358). -/
def execAxisStop (axis mode : Byte) (s : State) (pec : Option Byte := none) : Host.Outcome State Fault Refusal :=
  .next (s.sbCommand 0x21 [axis, mode] pec (.axisStop axis mode pec) fun s => s.axisStopAct axis mode)

/-- AXIS_ENABLE (R358). -/
def execAxisEnable (axis : Byte) (s : State) (pec : Option Byte := none) : Host.Outcome State Fault Refusal :=
  .next (s.sbCommand 0x22 [axis] pec (.axisEnable axis pec) fun s => s.axisEnableAct axis)

/-- SB_JOG (R357). -/
def execSbJog (axis direction : Byte) (s : State) (pec : Option Byte := none) : Host.Outcome State Fault Refusal :=
  .next (s.sbCommand 0x23 [axis, direction] pec (.sbJog axis direction pec) fun s => s.sbJogAct axis direction)

/-- TAKE (R355). -/
def execTake (axis : Byte) (s : State) (pec : Option Byte := none) : Host.Outcome State Fault Refusal :=
  .next (s.sbCommand 0x28 [axis] pec (.take axis pec) fun s => s.takeAct axis)

/-- HAND_BACK (R356). -/
def execHandBack (axis : Byte) (s : State) (pec : Option Byte := none) : Host.Outcome State Fault Refusal :=
  .next (s.sbCommand 0x29 [axis] pec (.handBack axis pec) fun s => s.handBackAct axis)

/-! ### Alerts (R353, R354) -/

/-- ALERT_RESPONSE: the port takes part while it pulls SBALRT low; where it wins, all its causes have been announced (R354). -/
def execAlertResponse (won : Bool) (s : State) : Host.Outcome State Fault Refusal :=
  let s1 := s.sbSettings
  .next (if s1.alertLow then
      { s1 with sb := { s1.sb with dataOut := [s1.sb.addr.setWidth 8 <<< 1], announced := if won then s1.sb.causes else s1.sb.announced } }
    else s1)

/-- HOST_SILENT (R353). -/
def execHostSilent (s : State) : Host.Outcome State Fault Refusal :=
  .next (if s.sb.hsilUse ≠ 0 && s.dev.ready then s.alert 3 else s)

/-! ### Commands that waited for dispatch (R359, R420) -/

/-- A command that waited acts. -/
def State.sbAct (s : State) (c : Instr) : State :=
  match c with
  | .sbStopAll _ _ => s.sbStop
  | .axisStop a m _ => s.axisStopAct a m
  | .axisEnable a _ => s.axisEnableAct a
  | .sbJog a d _ => s.sbJogAct a d
  | .take a _ => s.takeAct a
  | .handBack a _ => s.handBackAct a
  | _ => s

/-- A command that waited, and whose result a later one has replaced, acts and leaves the result alone (R350). -/
def State.sbActUnseen (s : State) (c : Instr) : State :=
  let s1 := s.sbAct c
  { s1 with sb := { s1.sb with result := s.sb.result, pendAct := s.sb.pendAct, pendBank := s.sb.pendBank, pendWait := s.sb.pendWait } }

/-- The oldest side-band command that waits acts, where its turn has come; the last one has the result, where none has replaced it
(R350, R359). -/
def State.sbDrainOne (s : State) : State :=
  match s.sb.waiting with
  | [] => s
  | (seq, c) :: rest =>
    if !s.sbTurn seq c then s
    else
      let own := rest.isEmpty && s.sb.pendWait
      let s0 : State := { s with sb := { s.sb with waiting := rest, pendWait := s.sb.pendWait && !own } }
      if own then
        let s1 := s0.sbAct c
        if s1.sb.result = 0x80 then s1 else s1.alert 5
      else s0.sbActUnseen c

/-- The side-band commands that waited act in their order, as far as their turn has come (R359). -/
def State.sbDrain (s : State) : State := times State.sbDrainOne s.sb.waiting.length s

/-- ARBITER_DISPATCH: a side-band command whose turn has come is handled, and a free core takes the next packet (R295, R359). -/
def execArbiterDispatch (core : CoreId) (s : State) : Host.Outcome State Fault Refusal := .next (s.sbDrain.dispatch core)

/-- DISPATCH_RESUME: the cores have restarted (R420, R421); a firmware switch that has suspended dispatch resumes it itself (R422). -/
def execDispatchResume (s : State) : Host.Outcome State Fault Refusal :=
  .next (if s.dev.suspended && !s.mp.switching then s.resume.sbDrain else s)

/-- FW_CODE_LOAD_END (R422, R423). -/
def execFwCodeLoadEnd (s : State) : Host.Outcome State Fault Refusal := .next s.codeLoadEnd.sbDrain

/-- FRAME_BOUNDARY (R59), with what it does to a firmware switch (R422); without a running clock there is no boundary. -/
def execFrameBoundary (inp : FrameInputs) (s : State) : Host.Outcome State Fault Refusal :=
  .next (if s.framing then (s.frame inp).switchFrame.sbDrain else s)

end Sys2Proof.Machine
end

