-- ==== Sys2Proof/Machine/TimeRows.lean ====
section
/-! DEFINITION. The rows of the time base: master edges, index and standstill, rate and frame-length changes, TSYNC and the
loading of an epoch (02_master_time.md R42 to R70; 06_pwm_mica.md R178). -/
namespace Sys2Proof.Machine
open Sys2Proof

/-! ### Edges of the masters (R42 to R48, R55) -/

/-- DIR_INV of an edge-counting master (R495). -/
def State.dirInv (s : State) (m : Fin 5) : Bool := bitOf s.tb.tbCfgEff (20 + m.val)

/-- An edge-counting master takes an edge at timestamp `t` (R44). -/
def State.masterEdge (s : State) (m : Fin 5) (fwd : Bool) (t : Nat) : State :=
  { s with tb := { s.tb with edge := upd s.tb.edge m fun e => e.edgeAt s.tstillTicks (fwd != s.dirInv m) t } }

/-- Both inputs of M0 changed within one filtered sample: the history is cleared and QUAD_ERR set, with at most one Shale entry
per 1,000 frames (R42). -/
def State.quadError (s : State) : State :=
  let log := match s.tb.quadFrame with
    | none => true
    | some f => f + 1000 ≤ s.tb.count
  let s1 : State := { s with tb := { s.tb with edge := upd s.tb.edge 0 EdgeMaster.forget } }
  if log then
    let s2 := s1.gfaultSet 1
    { s2 with tb := { s2.tb with quadFrame := some s.tb.count } }
  else State.noteFault { s1 with dev := { s1.dev with gfault := s1.dev.gfault ||| 2 } }

/-- M0_ENCODER_EDGE: the filtered levels of MSA and MSB after a transition at timestamp `t` (R35, R44). -/
def State.m0Edge (s : State) (a b : Bool) (t : Nat) : State :=
  let s1 : State := { s with tb := { s.tb with msa := a, msb := b } }
  if a ≠ s.tb.msa ∧ b ≠ s.tb.msb then s1.quadError
  else
    let d := quadStep s.tb.msa s.tb.msb a b
    if d = 0 then s1 else s1.masterEdge 0 (0 < d) t

/-- M0_ENCODER_EDGE (R44). -/
def execM0EncoderEdge (a b : Bool) (t : Nat) (s : State) : Host.Outcome State Fault Refusal := .next (s.m0Edge a b t)

/-- STP_EDGE: an active edge of STPi with DIRi at the level given counts M(i+1) (R35, R44). -/
def execStpEdge (i : Fin 4) (dirHigh : Bool) (t : Nat) (s : State) : Host.Outcome State Fault Refusal :=
  .next (s.masterEdge ⟨i.val + 1, by omega⟩ dirHigh t)

/-- The index check of a rising MSZ edge (R43). -/
def State.indexCheck (s : State) : State :=
  let c := s.tb.edge[0].c
  if s.tb.cprEff = 0 then s
  else
    let s1 : State := { s with tb := { s.tb with index := some c } }
    match s.tb.index with
    | none => s1
    | some p => if wrapS 48 (c - p) % (s.tb.cprEff.toNat : Int) = 0 then s1 else s1.gfaultSet 2

/-- MSZ_INDEX_EDGE: a qualified MSZ edge at timestamp `t` captures M0, and a rising one is checked against CPR (R43, R55). -/
def State.mszEdge (s : State) (rising : Bool) (t : Nat) : State :=
  let s1 := s.capture 96 t t (s.masterAt 0 t)
  if rising then s1.indexCheck else s1

/-- MSZ_INDEX_EDGE (R43). -/
def execMszIndexEdge (rising : Bool) (t : Nat) (s : State) : Host.Outcome State Fault Refusal := .next (s.mszEdge rising t)

/-- MASTER_STANDSTILL: no edge has been accepted for TSTILL (R47). -/
def execMasterStandstill (m : Fin 5) (t : Nat) (s : State) : Host.Outcome State Fault Refusal :=
  .next (if s.tstillTicks ≤ t - s.tb.edge[m.val].tLast then
      { s with tb := { s.tb with edge := upd s.tb.edge m fun e => { e with still := true } } }
    else s)

/-! ### Rates and frame length (R53, R57, R178, R214) -/

/-- A pending rate of a virtual master may take effect at this boundary (R53). -/
def State.rateDue (s : State) (v : Fin 2) : Bool :=
  s.tb.virt[v.val].pend && (bitOf s.tb.tbCfgEff 28 || s.frameNat % 256 = 0)

/-- RATE_EPOCH_APPLY: the master is re-based at this boundary and takes its new rate (R53). -/
def execRateEpochApply (v : Fin 2) (s : State) : Host.Outcome State Fault Refusal :=
  .next (if s.rateDue v then
      { s with tb := { s.tb with virt := upd s.tb.virt v fun x =>
        { x.rebase s.len s.frameNat with rate := x.reg.toInt, pend := false } } }
    else s)

/-- A leg forgets what was computed for the old frame length (R178). -/
def Leg.newLength (l : Leg) : Leg :=
  { l with on := 0, off := 0, onS := 0, offS := 0, committed := false, commitBit := false, commitLate := false, tail := 0
           carry := 0, carryS := 0, edges := [], high := 0, endHigh := false, owed := none }

/-- A new frame length takes effect at this boundary: M5 to M7 are re-based under the old length, and nothing computed for it
survives (R57, R178, R214). -/
def State.newLength (s : State) : State :=
  let l := s.len
  let f := s.frameNat
  let s1 : State := { s with
    tb := { s.tb with flenEff := s.tb.flen, virt := s.tb.virt.map fun v => v.rebase l f, m7 := s.tb.m7.rebase l f }
    legs := s.legs.map Leg.newLength
    coils := s.coils.map fun c => { c with k := none, kCur := none, winP := false, winG := false }
    adcs := s.adcs.map fun a => { a with slot := none, slotPlan := none, forced := none, forcedPlan := none } }
  s1.clearRings

/-- FLEN_APPLY (R178). -/
def execFlenApply (s : State) : Host.Outcome State Fault Refusal :=
  .next (if s.tb.flen = s.tb.flenEff then s else s.newLength)

/-! ### TSYNC (R64 to R68) -/

/-- TSYNC_PULSE: a time master pulls TSYNC low from a boundary whose frame number is a multiple of 256 (R64). -/
def execTsyncPulse (s : State) : Host.Outcome State Fault Refusal :=
  .next (if s.tb.roleEff = 1 && s.frameNat % 256 = 0 then { s with tb := { s.tb with tsyncLow := true } } else s)

/-- The phase error of a pulse instant against the nearest own boundary; a negative one belongs to the boundary to come
(R65). -/
def State.phaseError (s : State) (instant : Int) : Int :=
  let d := (instant - s.tb.tick) % (s.len : Int)
  if (s.len : Int) < 2 * d then d - s.len else d

/-- TSYNC_EDGE: a follower takes a falling edge at the PWM tick given as the time master's boundary, less its trim (R65, R66).
With no axis enabled the boundary moves onto the pulse at once, and the frame number's low 8 bits make it a multiple of 256; where the
pulse lies before the boundary to come, they are set so that this one carries into a multiple of 256 (DEDUCED,
notes/assumptions/104.md). -/
def State.tsyncEdge (s : State) (tick : Nat) : State :=
  if s.tb.roleEff ≠ 2 then s
  else
    let t := s.tb
    let e := s.phaseError ((tick : Int) - t.trim.toNat)
    let run := if |e| ≤ 16 then min 4 (t.lockRun + 1) else 0
    let t1 := { t with pherr := limitMag 127 e, sincePulse := 0, lockRun := run, syncLock := t.syncLock || run = 4
                       pulseNow := 0 ≤ e, pulseNext := e < 0 }
    if s.anyEnabled then { s with tb := { t1 with slew := e } }
    else
      let f := t.frame &&& ~~~ 0xFF
      { s with tb := { t1 with slew := 0, tick := ((t.tick : Int) + e).toNat, frame := if e < 0 then f ||| 0xFF else f } }

/-- TSYNC_EDGE (R65). -/
def execTsyncEdge (tick : Nat) (s : State) : Host.Outcome State Fault Refusal := .next (s.tsyncEdge tick)

/-- SYNC_LOST: a follower without a pulse for 768 frames, or with a phase error above 200 ns (R66). -/
def execSyncLost (s : State) : Host.Outcome State Fault Refusal :=
  .next (if s.tb.roleEff = 2 && (768 ≤ s.tb.sincePulse || 64 < |s.tb.pherr|) then
      State.gfaultSet { s with tb := { s.tb with syncLock := false, lockRun := 0 } } 3
    else s)

/-- SYNC_CONFLICT: a time master sees a falling edge on TSYNC that it did not drive (R67). -/
def execSyncConflict (s : State) : Host.Outcome State Fault Refusal :=
  .next (if s.tb.roleEff = 1 then s.gfaultSet 4 else s)

/-! ### Loading an epoch (R69, R70) -/

/-- The pulse boundary at which a pending SYNC_EPOCH takes effect (R69). -/
def State.epochDue (s : State) : Bool := if s.tb.roleEff = 2 then s.tb.pulseNow else s.frameNat % 256 = 0

/-- The frame counter is loaded and the masked masters are preset to 0 (R69). -/
def TimeBase.loadEpoch (t : TimeBase) (n : BitVec 64) (mask : BitVec 7) : TimeBase :=
  { t with
    frame := n, epoch := none, pulseNow := false
    index := if mask.getLsbD 0 then none else t.index
    edge := Vector.ofFn fun (i : Fin 5) =>
      if mask.getLsbD i.val then { t.edge[i.val] with c := 0 }.forget else t.edge[i.val]
    virt := Vector.ofFn fun (i : Fin 2) =>
      if mask.getLsbD (5 + i.val) then { t.virt[i.val] with vbase := 0, fbase := n.toNat } else t.virt[i.val] }

/-- Δ of each master: only those computed from the frame number, and not named in the mask, shift what is held in their count
(R70). -/
def epochDelta (old new : Vector Int 8) (mask : BitVec 7) (m : MasterId) : Int :=
  if m.val = 7 ∨ (5 ≤ m.val ∧ mask.getLsbD m.val = false) then new[m.val] - old[m.val] else 0

/-- What an axis holds in the count of its master, and of M7, is shifted (R70). -/
def AxisMotion.epochShift (a : AxisMotion) (d d7 : Int) : AxisMotion :=
  let b := a.shift d d7 true
  { b with mProg := b.mProg + d, mProgPrev := b.mProgPrev + d
           runs := b.runs.map fun r => { r with capM := r.capM + d }
           lastEnd := b.lastEnd.map fun e => { e with e := e.e.map (· + d / 65536), blendAt := e.blendAt.map (· + d / 65536) }
           held := b.held.map fun h => (h.1 + d, h.2 + d7) }

/-- What a batch holds in the count of its master is shifted (R70). -/
def Batch.epochShift (b : Batch) (d : Int) : Batch :=
  let k := d / 65536
  { b with start := b.start.map (shift32 k), tails := b.tails.map fun x => (x.1, x.2 + k)
           ends := b.ends.map fun x => (x.1, x.2 + k), emptyAt := b.emptyAt.map (· + k) }

/-- EPOCH_LOAD: at the pulse boundary a pending epoch loads the frame counter, presets the masked masters and shifts every
dependent quantity by Δ (R69, R70). That no axis is enabled on a masked master is checked when the command starts, and not again here
(DEDUCED, notes/assumptions/105.md). -/
def State.epochLoad (s : State) : State :=
  match s.tb.epoch with
  | none => s
  | some e =>
    if !s.epochDue then s
    else
      let s1 : State := { s with tb := s.tb.loadEpoch e.n e.mask }
      let s2 : State := { s1 with tb := { s1.tb with snap := s1.snapAll } }
      let d := epochDelta s.tb.snap s2.tb.snap e.mask
      let s3 : State := { s2 with
        axes := s2.axes.map fun x => { x with mot := x.mot.epochShift (d x.mot.master) (d 7) }
        pins := s2.pins.map fun p =>
          match p.axis? with
          | some n => { p with posFirst := p.posFirst + d (s.ax n).mot.master }
          | none => p
        q := { s2.q with batches := s2.q.batches.map fun b => b.epochShift (d b.master) } }
      s3.complete e.ref .ok 0 0xFF s3.m7pos 0

/-- EPOCH_LOAD (R70). -/
def execEpochLoad (s : State) : Host.Outcome State Fault Refusal := .next s.epochLoad

end Sys2Proof.Machine
end

