-- ==== Sys2Proof/Machine/Dispatch.lean ====
section
/-! DEFINITION. The dispatch of a command to its meaning: one arm per constructor of Instr. -/
namespace Sys2Proof.Machine
open Sys2Proof

/-- The effect of a command on everything but the queue. -/
def exec (i : Instr) (s : State) : Host.Outcome State Fault Refusal :=
  match i with
  | .registerReadFrame f => Sys2Proof.Machine.execRegisterReadFrame f s
  | .registerWrite f => Sys2Proof.Machine.execRegisterWrite f s
  | .loReadLatch port page word => Sys2Proof.Machine.execLoReadLatch port page word s
  | .hiWriteCommit port page word value => Sys2Proof.Machine.execHiWriteCommit port page word value s
  | .packetPush f => Sys2Proof.Machine.execPacketPush f s
  | .completionPull f => Sys2Proof.Machine.execCompletionPull f s
  | .arbiterDispatch core => Sys2Proof.Machine.execArbiterDispatch core s
  | .echo core => Sys2Proof.Machine.execEcho core s
  | .identify core => Sys2Proof.Machine.execIdentify core s
  | .configAxis core => Sys2Proof.Machine.execConfigAxis core s
  | .configGroup core => Sys2Proof.Machine.execConfigGroup core s
  | .bindMaster core => Sys2Proof.Machine.execBindMaster core s
  | .routeAxio core => Sys2Proof.Machine.execRouteAxio core s
  | .setPosition core => Sys2Proof.Machine.execSetPosition core s
  | .moveAbs core => Sys2Proof.Machine.execMoveAbs core s
  | .moveRel core => Sys2Proof.Machine.execMoveRel core s
  | .velocity core => Sys2Proof.Machine.execVelocity core s
  | .gear core => Sys2Proof.Machine.execGear core s
  | .dose core => Sys2Proof.Machine.execDose core s
  | .hold core => Sys2Proof.Machine.execHold core s
  | .home core => Sys2Proof.Machine.execHome core s
  | .setSpeed core => Sys2Proof.Machine.execSetSpeed core s
  | .setAccel core => Sys2Proof.Machine.execSetAccel core s
  | .stop core => Sys2Proof.Machine.execStop core s
  | .quickstop core => Sys2Proof.Machine.execQuickstop core s
  | .disable core => Sys2Proof.Machine.execDisable core s
  | .enable core => Sys2Proof.Machine.execEnable core s
  | .flush core => Sys2Proof.Machine.execFlush core s
  | .batchDefine core => Sys2Proof.Machine.execBatchDefine core s
  | .batchClose core => Sys2Proof.Machine.execBatchClose core s
  | .diagnose core => Sys2Proof.Machine.execDiagnose core s
  | .identifyMotor core => Sys2Proof.Machine.execIdentifyMotor core s
  | .readAxis core => Sys2Proof.Machine.execReadAxis core s
  | .readGroup core => Sys2Proof.Machine.execReadGroup core s
  | .loadTable core => Sys2Proof.Machine.execLoadTable core s
  | .loadLibrary core => Sys2Proof.Machine.execLoadLibrary core s
  | .libraryStreamResume => Sys2Proof.Machine.execLibraryStreamResume s
  | .clearFault core => Sys2Proof.Machine.execClearFault core s
  | .ownership core => Sys2Proof.Machine.execOwnership core s
  | .fwStage core => Sys2Proof.Machine.execFwStage core s
  | .fwSwitch core => Sys2Proof.Machine.execFwSwitch core s
  | .fwCodeLoadEnd => Sys2Proof.Machine.execFwCodeLoadEnd s
  | .lifecycle core => Sys2Proof.Machine.execLifecycle core s
  | .fuseProgram core => Sys2Proof.Machine.execFuseProgram core s
  | .deviceReset core => Sys2Proof.Machine.execDeviceReset core s
  | .blockReset core => Sys2Proof.Machine.execBlockReset core s
  | .syncEpoch core => Sys2Proof.Machine.execSyncEpoch core s
  | .epochLoad => Sys2Proof.Machine.execEpochLoad s
  | .stopAll core => Sys2Proof.Machine.execStopAll core s
  | .frameBoundary inp => Sys2Proof.Machine.execFrameBoundary inp s
  | .missedCommit g => Sys2Proof.Machine.execMissedCommit g s
  | .segmentStart n => Sys2Proof.Machine.execSegmentStart n s
  | .segmentEnd n => Sys2Proof.Machine.execSegmentEnd n s
  | .velocityReanchor n => Sys2Proof.Machine.execVelocityReanchor n s
  | .deadline n => Sys2Proof.Machine.execDeadline n s
  | .homeTimeout n => Sys2Proof.Machine.execHomeTimeout n s
  | .m0EncoderEdge a b t => Sys2Proof.Machine.execM0EncoderEdge a b t s
  | .stpEdge idx dirHigh t => Sys2Proof.Machine.execStpEdge idx dirHigh t s
  | .mszIndexEdge rising t => Sys2Proof.Machine.execMszIndexEdge rising t s
  | .masterStandstill m t => Sys2Proof.Machine.execMasterStandstill m t s
  | .rateEpochApply v => Sys2Proof.Machine.execRateEpochApply v s
  | .flenApply => Sys2Proof.Machine.execFlenApply s
  | .tsyncPulse => Sys2Proof.Machine.execTsyncPulse s
  | .tsyncEdge tick => Sys2Proof.Machine.execTsyncEdge tick s
  | .syncLost => Sys2Proof.Machine.execSyncLost s
  | .syncConflict => Sys2Proof.Machine.execSyncConflict s
  | .axioTransition pin level t => Sys2Proof.Machine.execAxioTransition pin level t s
  | .axioQualify pin t => Sys2Proof.Machine.execAxioQualify pin t s
  | .chatterEnd pin t => Sys2Proof.Machine.execChatterEnd pin t s
  | .localReturn n => Sys2Proof.Machine.execLocalReturn n s
  | .axioOutputOverload pin => Sys2Proof.Machine.execAxioOutputOverload pin s
  | .axioOutputRetry pin => Sys2Proof.Machine.execAxioOutputRetry pin s
  | .brakeDelay n => Sys2Proof.Machine.execBrakeDelay n s
  | .plugProbe n raMilliohm rbMilliohm => Sys2Proof.Machine.execPlugProbe n raMilliohm rbMilliohm s
  | .boostExpiry n => Sys2Proof.Machine.execBoostExpiry n s
  | .standstillTimeout n => Sys2Proof.Machine.execStandstillTimeout n s
  | .sampleLost c => Sys2Proof.Machine.execSampleLost c s
  | .shareErr n => Sys2Proof.Machine.execShareErr n s
  | .encoderSettle n stood => Sys2Proof.Machine.execEncoderSettle n stood s
  | .encErr n => Sys2Proof.Machine.execEncErr n s
  | .delayLineMeasure g counts => Sys2Proof.Machine.execDelayLineMeasure g counts s
  | .forcedSlot adc => Sys2Proof.Machine.execForcedSlot adc s
  | .rcoilWindowEnd n => Sys2Proof.Machine.execRcoilWindowEnd n s
  | .injectionReferenceEnd n => Sys2Proof.Machine.execInjectionReferenceEnd n s
  | .keLearned n => Sys2Proof.Machine.execKeLearned n s
  | .stall n => Sys2Proof.Machine.execStall n s
  | .unplugDetect n => Sys2Proof.Machine.execUnplugDetect n s
  | .legTrip leg highSide hardShort t => Sys2Proof.Machine.execLegTrip leg highSide hardShort t s
  | .retryWaitEnd n => Sys2Proof.Machine.execRetryWaitEnd n s
  | .retryCheckEnd n failA failB t => Sys2Proof.Machine.execRetryCheckEnd n failA failB s t
  | .retryRunResume n => Sys2Proof.Machine.execRetryRunResume n s
  | .retryCounterClear n => Sys2Proof.Machine.execRetryCounterClear n s
  | .gateSupplyLockout g vcp t => Sys2Proof.Machine.execGateSupplyLockout g vcp s t
  | .vmLockout g overVoltage t => Sys2Proof.Machine.execVmLockout g overVoltage s t
  | .lockoutRelease g => Sys2Proof.Machine.execLockoutRelease g s
  | .groupLinkFailure g what => Sys2Proof.Machine.execGroupLinkFailure g what s
  | .safeOff aLow bLow t => Sys2Proof.Machine.execSafeOff aLow bLow s t
  | .safeActClear => Sys2Proof.Machine.execSafeActClear s
  | .safeDisc aLow => Sys2Proof.Machine.execSafeDisc s aLow
  | .clkLost => Sys2Proof.Machine.execClkLost s
  | .thermalShutdown g temp => Sys2Proof.Machine.execThermalShutdown g temp s
  | .thermalShutdownClear g => Sys2Proof.Machine.execThermalShutdownClear g s
  | .baseplateReading value => Sys2Proof.Machine.execBaseplateReading value s
  | .keyUnlock port value => Sys2Proof.Machine.execKeyUnlock port value s
  | .unlockLapse port => Sys2Proof.Machine.execUnlockLapse port s
  | .groupBlockReset port g => Sys2Proof.Machine.execGroupBlockReset port g s
  | .mportBlockReset port => Sys2Proof.Machine.execMportBlockReset port s
  | .quartzBlockReset port => Sys2Proof.Machine.execQuartzBlockReset port s
  | .syncBlockReset port => Sys2Proof.Machine.execSyncBlockReset port s
  | .sbandBlockReset port => Sys2Proof.Machine.execSbandBlockReset port s
  | .optionsWrite port => Sys2Proof.Machine.execOptionsWrite port s
  | .deviceKeyLoad port => Sys2Proof.Machine.execDeviceKeyLoad port s
  | .firmwareKeyLoad port => Sys2Proof.Machine.execFirmwareKeyLoad port s
  | .shaleIdx port value => Sys2Proof.Machine.execShaleIdx port value s
  | .edgeWordWrite port g leg off value => Sys2Proof.Machine.execEdgeWordWrite port g leg off value s
  | .commit port g value tick => Sys2Proof.Machine.execCommit port g value tick s
  | .hostedge port g value => Sys2Proof.Machine.execHostedge port g value s
  | .hbDirect port g value => Sys2Proof.Machine.execHbDirect port g value s
  | .frameCfg port value => Sys2Proof.Machine.execFrameCfg port value s
  | .mposPreset port m value => Sys2Proof.Machine.execMposPreset port m value s
  | .vmRate port v value => Sys2Proof.Machine.execVmRate port v value s
  | .syncCfg port value => Sys2Proof.Machine.execSyncCfg port value s
  | .powerOnReset => Sys2Proof.Machine.execPowerOnReset s
  | .brownOutReset => Sys2Proof.Machine.execBrownOutReset s
  | .nrstReset => Sys2Proof.Machine.execNrstReset s
  | .fuseSensingEnd => Sys2Proof.Machine.execFuseSensingEnd s
  | .nvmPulseEnd => Sys2Proof.Machine.execNvmPulseEnd s
  | .optionsLoadEnd trimsPass => Sys2Proof.Machine.execOptionsLoadEnd trimsPass s
  | .nrstRelease => Sys2Proof.Machine.execNrstRelease s
  | .ramWipeEnd dev0 dev1 => Sys2Proof.Machine.execRamWipeEnd dev0 dev1 s
  | .bootBankTry => Sys2Proof.Machine.execBootBankTry s
  | .watchdogFirstStage => Sys2Proof.Machine.execWatchdogFirstStage s
  | .watchdogSecondStage => Sys2Proof.Machine.execWatchdogSecondStage s
  | .dispatchResume => Sys2Proof.Machine.execDispatchResume s
  | .sramScrub region word => Sys2Proof.Machine.execSramScrub region s word
  | .tableReloadEnd t => Sys2Proof.Machine.execTableReloadEnd t s
  | .parityScrub page word copyFailed => Sys2Proof.Machine.execParityScrub page word copyFailed s
  | .pohSave => Sys2Proof.Machine.execPohSave s
  | .hirqAgeTimeout => Sys2Proof.Machine.execHirqAgeTimeout s
  | .sbWake => Sys2Proof.Machine.execSbWake s
  | .sbAwakeTimeout => Sys2Proof.Machine.execSbAwakeTimeout s
  | .sbVddValid => Sys2Proof.Machine.execSbVddValid s
  | .sbVddLost => Sys2Proof.Machine.execSbVddLost s
  | .sbBusTimeout => Sys2Proof.Machine.execSbBusTimeout s
  | .sbTransactionError e => Sys2Proof.Machine.execSbTransactionError e s
  | .identity => Sys2Proof.Machine.execIdentity s
  | .lcQuery => Sys2Proof.Machine.execLcQuery s
  | .wake value pec => Sys2Proof.Machine.execWake value s pec
  | .status => Sys2Proof.Machine.execStatus s
  | .shaleRead index => Sys2Proof.Machine.execShaleRead index s
  | .regRead page word => Sys2Proof.Machine.execRegRead page word s
  | .regWrite page word value pec => Sys2Proof.Machine.execRegWrite page word value s pec
  | .envRead arg => Sys2Proof.Machine.execEnvRead arg s
  | .axisRead axis => Sys2Proof.Machine.execAxisRead axis s
  | .sbStopAll key pec => Sys2Proof.Machine.execSbStopAll key s pec
  | .axisStop axis mode pec => Sys2Proof.Machine.execAxisStop axis mode s pec
  | .axisEnable axis pec => Sys2Proof.Machine.execAxisEnable axis s pec
  | .sbJog axis direction pec => Sys2Proof.Machine.execSbJog axis direction s pec
  | .sbJogExpiry n => Sys2Proof.Machine.execSbJogExpiry n s
  | .take axis pec => Sys2Proof.Machine.execTake axis s pec
  | .handBack axis pec => Sys2Proof.Machine.execHandBack axis s pec
  | .serviceEnter passcode pec => Sys2Proof.Machine.execServiceEnter passcode s pec
  | .passcodeSet old new pec => Sys2Proof.Machine.execPasscodeSet old new s pec
  | .passcodeLockoutEnd => Sys2Proof.Machine.execPasscodeLockoutEnd s
  | .bankSelect key bank pec => Sys2Proof.Machine.execBankSelect key bank s pec
  | .moduleReset key pec => Sys2Proof.Machine.execModuleReset key s pec
  | .alertResponse won => Sys2Proof.Machine.execAlertResponse won s
  | .hostSilent => Sys2Proof.Machine.execHostSilent s
  | .diagnoseEnd n r => Sys2Proof.Machine.execDiagnoseEnd n r s
  | .flashOperationEnd ok => Sys2Proof.Machine.execFlashOperationEnd ok s
  | .nvmProgramEnd job verifyFailed => Sys2Proof.Machine.execNvmProgramEnd job verifyFailed s
  | .blockResetEnd bit => Sys2Proof.Machine.execBlockResetEnd bit s
  | .vsbPowerOn => Sys2Proof.Machine.execVsbPowerOn s

end Sys2Proof.Machine
end

