-- ==== Sys2Proof/Safety.lean ====
section
/-! DEFINITION. The terms in which the claims speak: a command that a core holds, how it is answered, and what no step may
break (01_architecture.md R22, R23; 11_queues_packets.md R300; 15_reset_lifecycle.md R395, R400). -/
namespace Sys2Proof.Machine
open Sys2Proof

/-! ### Commands of the host -/

/-- The opcode of a row that starts a packet, with the core (R310); BATCH_DEFINE and BATCH_CLOSE share theirs. -/
def opcodeRow (c : Instr) : Option (CoreId × Nat) :=
  match c with
  | .echo k => some (k, 0x01)
  | .identify k => some (k, 0x02)
  | .configAxis k => some (k, 0x08)
  | .configGroup k => some (k, 0x09)
  | .bindMaster k => some (k, 0x0A)
  | .routeAxio k => some (k, 0x0B)
  | .setPosition k => some (k, 0x0C)
  | .moveAbs k => some (k, 0x10)
  | .moveRel k => some (k, 0x11)
  | .velocity k => some (k, 0x12)
  | .gear k => some (k, 0x13)
  | .dose k => some (k, 0x14)
  | .hold k => some (k, 0x15)
  | .home k => some (k, 0x16)
  | .setSpeed k => some (k, 0x18)
  | .setAccel k => some (k, 0x19)
  | .stop k => some (k, 0x1A)
  | .quickstop k => some (k, 0x1B)
  | .disable k => some (k, 0x1C)
  | .enable k => some (k, 0x1D)
  | .flush k => some (k, 0x1E)
  | .diagnose k => some (k, 0x28)
  | .identifyMotor k => some (k, 0x29)
  | .readAxis k => some (k, 0x2A)
  | .readGroup k => some (k, 0x2B)
  | .loadTable k => some (k, 0x30)
  | .loadLibrary k => some (k, 0x31)
  | .clearFault k => some (k, 0x38)
  | .ownership k => some (k, 0x39)
  | .fwStage k => some (k, 0x40)
  | .fwSwitch k => some (k, 0x41)
  | .lifecycle k => some (k, 0x48)
  | .fuseProgram k => some (k, 0x49)
  | .deviceReset k => some (k, 0x4F)
  | .blockReset k => some (k, 0x50)
  | .syncEpoch k => some (k, 0x58)
  | .stopAll k => some (k, 0x7F)
  | _ => none

/-- A core holds a packet of an opcode that passed R293 and may start now (R297), while dispatch goes on (R418) and outside SAFE_HOLD
(R390). -/
abbrev State.Holds (s : State) (core : CoreId) (opc : Nat) (p : Packet) : Prop :=
  s.dev.stage = .running ∧ s.dev.suspended = false ∧ s.dev.safeHold = false ∧ s.heldPacket core (isOpc opc) = some p

/-- The same, and neither a group in reset nor ownership nor DEADLINE or BATCH refuses it (R312, R313, R314, R399). -/
abbrev State.Admits (s : State) (core : CoreId) (opc : Nat) (p : Packet) : Prop := s.Holds core opc p ∧ s.opening p = none

/-- The completion entry of a packet, with FLAGS 0 (R300). -/
def State.reply (s : State) (p : Packet) (st : Status) (axis : Byte) (w : Word) : Completion :=
  ⟨p.tag, st, 0, axis, BitVec.ofNat 4 p.queue.val, s.packetMpos p, w, false⟩

/-- The packet has left its ring, and nothing else has changed (R297). -/
def State.started (s : State) (p : Packet) : State :=
  { s with q := { s.q with packets := s.q.packets.filter fun o => o.seq ≠ p.seq } }

/-- The packet has left its ring and its entry stands at the end of the completion ring; nothing else has changed but the
completion request of HIRQ (R297, R300, R305). -/
def State.answered (s : State) (p : Packet) (st : Status) (axis : Byte) (w : Word) : State :=
  { s with q := ({ s.q with packets := s.q.packets.filter fun o => o.seq ≠ p.seq
                            ring := s.q.ring ++ [s.reply p st axis w] } : Queues).request }

/-- A command that waits for the axes `l` has left its ring and stands last among the actions, under the next number; `ops` join the
effects that wait for the next snapshot; nothing else has changed (R297, R304). -/
def State.awaits (s : State) (p : Packet) (kind : ActKind) (l : List AxisId) (ops : List SnapOp) : State :=
  { s.started p with q := { (s.started p).q with
      actions := s.q.actions ++ [⟨s.q.nextAct, p.ref, p.axis, kind, l, [], 0, 0⟩]
      nextAct := s.q.nextAct + 1, snapOps := s.q.snapOps ++ ops } }

/-- Answered at once, with one action number used up. -/
def State.answeredAct (s : State) (p : Packet) (st : Status) (axis : Byte) (w : Word) : State :=
  { s.answered p st axis w with q := { (s.answered p st axis w).q with nextAct := s.q.nextAct + 1 } }

/-- Every action has a number below the next one. -/
abbrev State.ActionsFresh (s : State) : Prop := ∀ a ∈ s.q.actions, a.id < s.q.nextAct

/-- The only command of a single axis that has the number `act`: your host's, of the kind given, waiting for that axis alone
(R304). -/
abbrev State.WaitsFor (s : State) (act : Nat) (kind : ActKind) (n : AxisId) (tag : BitVec 16) (q : BitVec 4) : Prop :=
  s.q.actions.filter (fun a => a.id = act) = [⟨act, .host tag q, axByte n, kind, [n], [], 0, 0⟩]

/-- Entries have entered the ring, or while dispatch is suspended the staging buffer; in SAFE_HOLD none has (R28, R303, R420). -/
def State.entered (s : State) (l : List Completion) : Queues :=
  if s.dev.safeHold then s.q
  else if s.dev.suspended then { s.q with staged := s.q.staged ++ l }
  else if l = [] then s.q else ({ s.q with ring := s.q.ring ++ l } : Queues).request

/-- The action of the number has completed: it is gone, and its entry stands at the end of the ring (R304, R305). -/
def State.actionDone (s : State) (act : Nat) (n : AxisId) (tag : BitVec 16) (q : BitVec 4) (st : Status) (w : Word) : Queues :=
  ({ s with q := { s.q with actions := s.q.actions.filter fun a => a.id ≠ act } } : State).entered
    [⟨tag, st, 0, axByte n, q, s.axMpos n, w, false⟩]

/-- The entry of a segment of your host that ends at the present snapshot with m_prog as its MPOS; the delay that a segment ended in its
queue reports is open (R300 to R302, R323; notes/assumptions/100.md). -/
def State.segEntry (s : State) (n : AxisId) (g : Segment) (tag : BitVec 16) (q : BitVec 4) (st : Status) : Completion :=
  ⟨tag, st, segFlagByte g.flags (s.ax n).mot.unsure, axByte n, q, s.axMpos n,
    if g.flags.headDelayed then BitVec.ofNat 32 (Config.heldDelay (s.ax n).mot.mProg) else outWord (s.ax n).mot.out, false⟩

/-- A device reset of the source given has begun from `s`: its stage and NRST drive, READY 0, every axis, leg, queue and port register at
reset, the frame counter 0, while the commands waiting, the die, the safe inputs, the keys, the passcode, the marks, the floor, the trims,
the SFDP tables of the flash and the side-band port's own registers stand (R377 to R383, R393, R396). -/
def State.ResetBegun (s t : State) (src : Fin 7) : Prop :=
  (t.dev.stage = if src.val < 2 then .fuseSensing else if t.nvm.pulse then .nvmDeferral else .optionsLoad)
    ∧ t.dev.ready = false ∧ t.dev.nrstDrive = decide (2 ≤ src.val) ∧ t.dev.safeHold = false ∧ t.dev.gfault = 0
    ∧ t.dev.sources = s.dev.sources ||| BitVec.ofNat 7 (2 ^ src.val) ∧ t.dev.safeA = s.dev.safeA ∧ t.dev.safeB = s.dev.safeB
    ∧ t.dev.step = s.dev.step ∧ t.pending = s.pending ∧ t.tb.frame = 0 ∧ t.tb.roleEff = 0 ∧ t.q = {} ∧ t.hp = {}
    ∧ (∀ n, t.ax n = {}) ∧ (∀ m, t.leg m = {}) ∧ (∀ g, (t.grp g).lockout = (s.grp g).lockout ∧ (t.grp g).dt = 5)
    ∧ (∀ i, (t.pin i).entry = 0x7F ∧ (t.pin i).raw = (s.pin i).raw ∧ (t.pin i).sink = false)
    ∧ t.nvm.devKey = s.nvm.devKey ∧ t.nvm.fwKey = s.nvm.fwKey ∧ t.nvm.passcode = s.nvm.passcode ∧ t.nvm.markA = s.nvm.markA
    ∧ t.nvm.markB = s.nvm.markB ∧ t.nvm.floor = s.nvm.floor ∧ t.nvm.pohSaved = s.nvm.pohSaved
    ∧ t.mp.chip0 = s.mp.chip0 ∧ t.mp.chip1 = s.mp.chip1 ∧ t.mp.lines = [] ∧ t.mp.running = none ∧ t.mp.jobs = [] ∧ t.mp.switch = none ∧ t.mp.boot = []
    ∧ t.sb.power = s.sb.power ∧ t.sb.addr = s.sb.addr ∧ t.sb.pecReq = s.sb.pecReq ∧ t.sb.amask = s.sb.amask

/-- `t` is `s` but for what a read leaves in the memory port: the prefetch lines and the modes of the devices (R367). -/
def State.onlyReads (s t : State) : Prop := t = { s with mp := { s.mp with lines := t.mp.lines, cont0 := t.mp.cont0, cont1 := t.mp.cont1 } }

/-- `t` is `s` but for the jobs of the memory port, the operation that its devices run, and what reads leave in it (R367, R368). -/
def State.onlyPort (s t : State) : Prop :=
  t = { s with mp := { s.mp with jobs := t.mp.jobs, running := t.mp.running, lines := t.mp.lines, cont0 := t.mp.cont0, cont1 := t.mp.cont1 } }

/-- An axis whose faults CLEAR_FAULT has cleared: its latch, try counter, DIAG_FAIL, SHARE_ERR, parity fault and STALL (R332). -/
def Axis.cleared (a : Axis) : Axis :=
  { a with prot := { a.prot with latched := false, retry := if a.prot.retry = .latch then .none else a.prot.retry, tries := 0
                                 diagFail := false, shareErr := false, parity := false }
           obs := { a.obs with stall := false } }

/-- A write of one word has consumed its port's unlock, and the word holds its parity again; nothing else has changed (R414, R416). -/
def State.wrote (s : State) (p : Port) (page w : Nat) : State :=
  { s.setUnlock p false with dev := { s.dev with parityBad := s.dev.parityBad.filter fun x => x ≠ (page, w) } }

/-- A write of one word has consumed its port's unlock and left an error code; nothing else has changed (R274, R349, R416). -/
def State.wroteError (s : State) (p : Port) (code : Nat) : State := (s.setUnlock p false).regError p code

/-- `s` with the Shale queue that `t` has (R425). -/
def State.logs (s t : State) : State :=
  { s with dev := { s.dev with shalePend := t.dev.shalePend, shaleDropped := t.dev.shaleDropped } }

/-- `s` with a GFAULT bit set, and with the Shale queue and the alert cause of a fault that `t` has (R353, R354, R424, R474). -/
def State.flagged (s t : State) (i : Nat) : State :=
  { s with
    dev := { s.dev with gfault := s.dev.gfault ||| BitVec.ofNat 8 (2 ^ i), shalePend := t.dev.shalePend
                        shaleDropped := t.dev.shaleDropped }
    sb := { s.sb with faultSeen := t.sb.faultSeen, causes := t.sb.causes, announced := t.sb.announced } }

/-- `t` is `s` but for axis `n`, whose settings, ownership and protection stand: what an evaluation may change (R85, R147). -/
def State.onlyMoved (s t : State) (n : AxisId) : Prop :=
  t = { s with axes := t.axes, q := t.q, sb := t.sb } ∧ (∀ k, k ≠ n → t.ax k = s.ax k) ∧ (t.ax n).cfg = (s.ax n).cfg
    ∧ (t.ax n).prot = (s.ax n).prot ∧ (t.ax n).drv.enabled = (s.ax n).drv.enabled ∧ (t.ax n).mot.master = (s.ax n).mot.master
    ∧ (t.ax n).mot.mProg = (s.ax n).mot.mProg

/-- Two queues of segments hold the same, whatever stands in them of blending (R100). -/
def sameQueue (l l' : List Segment) : Prop := l.map (fun g => { g with blendOk := false }) = l'.map fun g => { g with blendOk := false }

/-- A run that an event stops with a status decided: its tail is marked where m_prog has reached it (R99, R100, R131). -/
def AxisMotion.stopped (a : AxisMotion) (m7 : Int) (r : Run) (st : Status × Option Word) : Run :=
  { r with decided := some st, tailSeen := r.tailSeen || (!r.unbounded && r.tailPos * 65536 ≤ r.at a.mProg m7) }

/-! ### Axes turned off by an event -/

/-- `t` is `s` but for its Shale queue, its completions, the side-band port and the axes; of the axes all but `n` stand (R256). -/
def State.onlyAxis (s t : State) (n : AxisId) : Prop :=
  t = { s.logs t with axes := t.axes, q := t.q, sb := t.sb } ∧ (∀ k, k ≠ n → t.ax k = s.ax k) ∧ t.q.packets = s.q.packets

/-- An event has turned axis `n` off: it is disabled with its brake inactive, its legs go high-impedance at the next boundary, nothing
runs or waits on it, and its settings, its encoder and its position stand (R78, R121, R256). -/
def State.axisOff (s t : State) (n : AxisId) : Prop :=
  s.onlyAxis t n ∧ (t.ax n).cfg = (s.ax n).cfg ∧ (t.ax n).enc = (s.ax n).enc
    ∧ (t.ax n).drv = { (s.ax n).drv with enabled := false, energised := false, enabling := false, disabling := false, offPend := true
                                         brake := false, brakeWait := false }
    ∧ (t.ax n).mot.runs = [] ∧ (t.ax n).mot.queue = [] ∧ (t.ax n).mot.stop = none ∧ (t.ax n).mot.jog = none ∧ (t.ax n).mot.held = none
    ∧ (t.ax n).mot.vel = 0 ∧ (t.ax n).mot.pos = (s.ax n).mot.pos ∧ (t.ax n).mot.out = (s.ax n).mot.out
    ∧ (t.ax n).mot.master = (s.ax n).mot.master ∧ (t.ax n).prot.partner = none ∧ (t.ax n).prot.ident = none
    ∧ (t.ax n).prot.owner = (s.ax n).prot.owner ∧ ∀ o ∈ t.q.snapOps, o ≠ .energise n

/-- The EN lines of a group are low and its axes are no longer energised; every other leg and axis stands (R16, R242). -/
def State.groupDark (s t : State) (g : GroupId) : Prop :=
  (∀ m, t.leg m = if groupOfLeg m = g then (s.leg m).turnOff else s.leg m)
    ∧ ∀ n, t.ax n = if groupOf n = g then { s.ax n with drv := { (s.ax n).drv with energised := false } } else s.ax n

/-- The one command that waits for axis `n` alone is your host's, of the kind given, and nothing else waits (R304). -/
abbrev State.SoleAction (s : State) (n : AxisId) (act : Nat) (kind : ActKind) (tag : BitVec 16) (q : BitVec 4) : Prop :=
  s.q.actions = [⟨act, .host tag q, axByte n, kind, [n], [], 0, 0⟩]

/-- It has completed: its entry stands at the end of the ring (R304, R305). -/
def State.soleDone (s : State) (n : AxisId) (tag : BitVec 16) (q : BitVec 4) (st : Status) (w : Word) : Queues :=
  ({ s with q := { s.q with actions := [] } } : State).entered [⟨tag, st, 0, axByte n, q, s.axMpos n, w, false⟩]

/-- A write command of the side-band port has had its result at once (R349, R350). -/
def State.sbDone (s : State) (code result : Byte) : State :=
  { s.sbWoken with sb := { s.sbWoken.sb with lastCmd := code, result := result, dataOut := [], pendAct := none, pendReset := false
                                             pendBank := false, pendWait := false } }

/-- A transaction on the side-band port has been discarded with a result, its command byte not kept (R347). -/
def State.sbRefused (s : State) (result : Byte) : State :=
  { s.sbWoken with sb := { s.sbWoken.sb with result := result, pendAct := none, pendReset := false, pendBank := false, pendWait := false } }

/-- A command of the side-band port on an axis is pending: its action waits for that axis alone, and `ops` wait for the next snapshot
(R350, R359). -/
def State.sbAwaits (s : State) (code : Byte) (n : AxisId) (kind : ActKind) (ops : List SnapOp) : State :=
  { s.sbDone code 0x80 with
    q := { s.q with actions := s.q.actions ++ [⟨s.q.nextAct, .sideband, axByte n, kind, [n], [], 0, 0⟩]
                    nextAct := s.q.nextAct + 1, snapOps := s.q.snapOps ++ ops }
    sb := { (s.sbDone code 0x80).sb with pendAct := some s.q.nextAct } }

/-- The side-band host sends a write command with a PEC that is right, or with none where SB_CFG asks for none (R340, R347). -/
abbrev State.pecGood (s : State) (code : Byte) (data : List Byte) (pec : Option Byte) : Prop :=
  s.sbWoken.sb.pecBad code data pec = false

/-- A command of the side-band port takes its turn at once: no other waits, a core is free, and every packet of Q0 accepted before it
has been taken, and has started where R297 asks it (R295, R297, R359). -/
abbrev State.sbFree (s : State) (c : Instr) : Prop :=
  s.dev.stage = .running ∧ s.sb.waiting = [] ∧ (∃ k, s.coreFree k = true)
    ∧ ∀ p ∈ s.q.packets, p.queue = 0 → p.seq < s.q.nextSeq → p.core.isSome = true ∧ sbMeets c p = false

/-- The side-band port may act on axes: it is ACTIVE, the module READY, not RETIRED and not in SAFE_HOLD, and dispatch goes
on (R345, R359, R390). -/
abbrev State.sbActs (s : State) : Prop :=
  s.nvm.lc ≠ .retired ∧ s.sb.power = .active ∧ s.dev.ready = true ∧ s.dev.suspended = false ∧ s.dev.safeHold = false

/-! ### Lists of checks -/

/-- Every check of a list passes. -/
abbrev passes (l : List Check) : Prop := firstFailure l = none

/-- The two states differ at most in the axes, and there only in axis `n`. -/
abbrev sameButAxis (n : AxisId) (s t : State) : Prop := t = { s with axes := t.axes } ∧ ∀ k, k ≠ n → t.ax k = s.ax k

/-! ### What no step may break -/

/-- EN of a leg may be high: both safe-off inputs high, no lock-out, link fault or parity fault of its group, no SAFE_HOLD,
a running clock and no reset under way (R14, R16, R17, R22, R23, R28, R242, R390, R414). -/
abbrev State.enPermitted (s : State) (g : GroupId) : Prop :=
  s.dev.safeA = true ∧ s.dev.safeB = true ∧ (s.grp g).lockout = 0 ∧ (s.grp g).link = false ∧ (s.grp g).par = false
    ∧ s.dev.safeHold = false ∧ s.dev.gfault.getLsbD 0 = false ∧ s.dev.stage = .running

/-- EN is high only where it may be, and the module is READY only while it runs. -/
abbrev State.EnSafe (s : State) : Prop :=
  (∀ m : LegId, (s.leg m).en = true → s.enPermitted (groupOfLeg m)) ∧ (s.dev.ready = true → s.dev.stage = .running)

/-- The moves of the life-cycle state (R400), each or none in one step. -/
def lifeMove (a b : LifeCycle) : Bool :=
  a = b || (a = .manufacture && b = .field) || (a = .field && (b = .service || b = .retired))
    || (a = .service && (b = .field || b = .retired))

/-- The records that a fuse sequence has still to program name different pins, none of which is programmed (R395). -/
def State.FusesFresh (s : State) : Prop :=
  ∀ ref l done skipped, s.dev.fuseSeq = some (ref, l, done, skipped) →
    (l.map (·.1)).Nodup ∧ ∀ r ∈ l, s.nvm.fuses[r.1.val] = 0

/-- Every fuse code that is programmed in `s` is the same in `t` (R395). -/
def fusesKept (s t : State) : Prop := ∀ i : Fin 144, s.nvm.fuses[i.val] ≠ 0 → t.nvm.fuses[i.val] = s.nvm.fuses[i.val]

end Sys2Proof.Machine
end

