-- ==== Sys2Proof/WellFormed.lean ====
section
/-! DEFINITION. What the outside world can send: the bounds that the spec sets on a command's operands. Nothing in the machine
depends on them: exec has a meaning for every command, well-formed or not. -/
namespace Sys2Proof

/-- No word ends before an edge of its frame has been clocked, and every word of a write ends within a frame of at most 16,000 PWM
ticks (R56, R194, R268). -/
def HostFrame.wf (f : HostFrame) : Bool := f.ticks.length ≤ f.levels.length && f.ticks.all fun t => t < 16000

/-- A launch of the delay line reaches 0 to 96 taps (R199). -/
def countsWf (v : Vector Nat 16) : Bool := v.toList.all fun k => k ≤ 96

/-- A completion that fails its check stands in a ring of 1,024 entries (R300), and a packet that does has a tag (R292). -/
def SramRegion.wf (r : SramRegion) : Bool :=
  match r with
  | .completion i => i < 1024
  | .packet tag => tag ≠ 0
  | .free => true
  | .profileCache _ => true
  | .codeCache => true
  | .microstepTable _ _ => true
  | .descriptor _ _ => true
  | .firmwareData _ _ => true

/-- A BLK_RST bit that names a block (R398). -/
def blockNumber (b : Fin 20) : Bool := b.val < 12 || 16 ≤ b.val

/-- The bounds on the operands of a command; a command with none of these operands has no bound. -/
def Instr.wf (c : Instr) : Bool :=
  match c with
  | .registerReadFrame f => f.wf
  | .registerWrite f => f.wf
  | .packetPush f => f.wf
  | .completionPull f => f.wf
  | .commit _ _ _ tick => tick < 16000
  | .delayLineMeasure _ counts => countsWf counts
  | .sramScrub r _ => r.wf
  | .blockResetEnd b => blockNumber b
  | .safeOff aLow bLow _ => aLow || bLow
  | _ => true

end Sys2Proof
end

