-- ==== Sys2Proof/Certificates/Slice0/Obligations.lean ====
section
/-! DEFINITION. The statements about the model, for the provers: each a closed proposition, with the rules of spec/ it rests on. -/
open Sys2Proof Sys2Proof.Machine

/-! ### The queue of commands, and what no step breaks -/

/-- A step with a command in front runs exactly that command on the state with the rest of the queue. With no command waiting the
block stands still: the model's choice (notes/assumptions/2.md). -/
def Obligations.StepRunsTheFrontCommand : Prop :=
  (∀ (s : State) (c : Instr) (rest : List Instr), step { s with pending := c :: rest } = exec c { s with pending := rest })
  ∧ (∀ s : State, s.pending = [] → step s = .next s)

/-- Every command completes in every state, with no condition on either: of each of the 173 constructors of Instr, from
registerReadFrame to vsbPowerOn, exec answers a next state, never a fault or a refusal, and the commands that wait are the same in
it. No step loses, adds or reorders a waiting command: it takes the one in front and leaves the rest. -/
def Obligations.StepTakesOneCommand : Prop :=
  (∀ (s : State) (c : Instr), ∃ t, exec c s = .next t ∧ t.pending = s.pending)
  ∧ ∀ (s : State) (c : Instr) (rest : List Instr), s.pending = c :: rest → ∃ t, step s = .next t ∧ t.pending = rest

/-- Where the state word holds the life-cycle state with its complement, every step moves the state along an arrow of R400 or not at
all, RETIRED being left by none, and leaves a state word of the same form (R400, R401). An options load of a state word that is none
enters RETIRED (R401). -/
def Obligations.LifeCycleFollowsItsDiagram : Prop :=
  (∀ s t : State, s.nvm.lcWord = lifeWord s.nvm.lc → step s = .next t →
    lifeMove s.nvm.lc t.nvm.lc = true ∧ t.nvm.lcWord = lifeWord t.nvm.lc)
  ∧ ∀ (s : State) (ok : Bool), s.dev.stage = .optionsLoad → (∀ l, s.nvm.lcWord ≠ lifeWord l) →
      ∃ t, exec (.optionsLoadEnd ok) s = .next t ∧ t.nvm.lc = .retired

/-- Every step keeps EN low wherever a safe-off input, a lock-out, a link or parity fault, SAFE_HOLD, a lost clock or a reset
forbids it (R22, R23, R242, R390). -/
def Obligations.StepKeepsEnSafe : Prop := ∀ s t : State, s.EnSafe → step s = .next t → t.EnSafe

/-- A programmed fuse code is never changed, and the records still to program stay fresh (R395). -/
def Obligations.StepKeepsProgrammedFuses : Prop := ∀ s t : State, s.FusesFresh → step s = .next t → fusesKept s t ∧ t.FusesFresh

/-- Every step keeps the flash contents in their canonical form. -/
def Obligations.StepKeepsFlashForm : Prop :=
  ∀ s t : State, Memory.wf s.mp.flash = true → step s = .next t → Memory.wf t.mp.flash = true

/-- No step breaks the numbering of actions: each has a number below the next, and they start so. -/
def Obligations.ActionNumbersStayFresh : Prop :=
  State.reset.ActionsFresh ∧ ∀ s t : State, s.ActionsFresh → step s = .next t → t.ActionsFresh

/-- The invariants hold right after reset. After reset: READY 1, frame counter 0, every axis disabled, bound to M7 and owned by
HOST, every queue and the completion ring empty, the default microstep tables, standalone for TSYNC, every EN line low (R23, R58,
R383). -/
def Obligations.InvariantsHoldAtReset : Prop :=
  (State.reset.EnSafe ∧ State.reset.FusesFresh ∧ Memory.wf State.reset.mp.flash = true ∧ State.reset.pending = []
      ∧ State.reset.nvm.lcWord = lifeWord State.reset.nvm.lc)
  ∧ (State.reset.dev.ready = true ∧ State.reset.tb.frame = 0 ∧ State.reset.tb.roleEff = 0
        ∧ (∀ n : AxisId, (State.reset.ax n).drv.enabled = false ∧ (State.reset.ax n).mot.master = 7
            ∧ (State.reset.ax n).prot.owner = .host ∧ (State.reset.ax n).mot.queue = [] ∧ (State.reset.ax n).mot.runs = [])
        ∧ (∀ m : LegId, (State.reset.leg m).en = false) ∧ State.reset.q.packets = [] ∧ State.reset.q.ring = []
        ∧ ∀ t : Fin 4, State.reset.tables[t.val].custom = none)

/-- A byte written reads back, and every other address reads as before; an erased stretch reads 0xFF and leaves the rest (R365,
R368). -/
def Obligations.FlashReadsWhatWasWritten : Prop :=
  ∀ (m : List Host.Cell), Memory.wf m = true →
    (∀ (a b : Nat) (v : Byte), cellGet (cellSet m a v) b = if b = a then v else cellGet m b)
    ∧ (∀ (a k b : Nat), cellGet (cellErase m a k) b = if a ≤ b ∧ b < a + k then erasedByte else cellGet m b)

/-! ### Commands of the host -/

/-- A row of an opcode does nothing unless its core holds a packet of that opcode that may start, the module runs outside SAFE_HOLD
and dispatch is not suspended (R297, R390, R418). A packet that names a group in reset, an axis that HOST does not own, or a
DEADLINE or BATCH its opcode does not take, is answered with the refusal and changes nothing else (R312, R313, R314, R399). -/
def Obligations.OpcodeRowsNeedTheirPacket : Prop :=
  (∀ (s : State) (c : Instr) (k : CoreId) (opc : Nat), opcodeRow c = some (k, opc) →
        s.dev.stage ≠ .running ∨ s.dev.suspended = true ∨ s.dev.safeHold = true ∨ s.heldPacket k (isOpc opc) = none →
          exec c s = .next s)
  ∧ (∀ (s : State) (c : Instr) (k : CoreId) (opc : Nat) (p : Packet) (st : Status) (w : Word) (n : Option AxisId),
        opcodeRow c = some (k, opc) → s.Holds k opc p → s.opening p = some ((st, w), n) →
          exec c s = .next (s.answered p st ((n.map axByte).getD p.axis) w))

/-- IDENTIFY answers the item that parameter byte 0 selects; an item above 5, or a reserved byte that is not 0, is refused (R316).
-/
def Obligations.IdentifyAnswersItsItem : Prop :=
  ∀ (s : State) (core : CoreId) (p : Packet), s.Admits core 0x02 p →
    (5 < (byteAt p.params 0).toNat → exec (.identify core) s = .next (s.answered p .rejectParam p.axis 16))
    ∧ ((byteAt p.params 0).toNat ≤ 5 → uAt p.params 1 3 ≠ 0 →
      exec (.identify core) s = .next (s.answered p .rejectParam p.axis 17))
    ∧ (uAt p.params 1 3 = 0 →
      (byteAt p.params 0 = 0 → exec (.identify core) s = .next (s.answered p .ok p.axis 0x00004896))
      ∧ (byteAt p.params 0 = 1 → exec (.identify core) s = .next (s.answered p .ok p.axis ((0x000043 : BitVec 24) ++ s.dev.step)))
      ∧ (byteAt p.params 0 = 2 → exec (.identify core) s = .next (s.answered p .ok p.axis ((optByte s.dev.opts 8).setWidth 32)))
      ∧ (byteAt p.params 0 = 3 → exec (.identify core) s = .next (s.answered p .ok p.axis s.mp.version))
      ∧ (byteAt p.params 0 = 4 → ∃ w : Word, exec (.identify core) s = .next (s.answered p .ok p.axis w)
          ∧ w.getLsbD 0 = (s.mp.runBank && !s.mp.romOnly) ∧ w.getLsbD 1 = s.mp.romOnly
          ∧ (w >>> 8).setWidth 8 = Config.patchLevel ∧ w &&& 0xFFFF00FC = 0)
      ∧ (byteAt p.params 0 = 5 → exec (.identify core) s = .next (s.answered p .ok p.axis (BitVec.ofNat 32 (lcCode s.nvm.lc)))))

/-- ECHO answers its first four parameter bytes, absent ones as 0, and changes nothing (R316's ECHO). READ_AXIS and READ_GROUP with
SNAP 1 answer at once from the set latched last; with SNAP 0 nothing is answered yet and the read-out joins the effects of the next
snapshot (R329). -/
def Obligations.QueriesAnswerAndChangeNothing : Prop :=
  (∀ (s : State) (core : CoreId) (p : Packet), s.Admits core 0x01 p →
        exec (.echo core) s = .next (s.answered p .ok p.axis (wordAt (p.params.take p.plen) 0)))
  ∧ (∀ (s : State) (core : CoreId) (p : Packet),
        (∀ n : AxisId, s.Admits core 0x2A p → axisOfByte p.axis = some n →
          ∀ i : Fin 28, (byteAt p.params 0).toNat = i.val → byteAt p.params 2 = 0 → byteAt p.params 3 = 0 →
            (byteAt p.params 1 = 1 →
              exec (.readAxis core) s = .next (s.answered p .ok p.axis (s.ax n).prot.latchSet[i.val]))
            ∧ (byteAt p.params 1 = 0 → exec (.readAxis core) s =
                .next { s.started p with q := { (s.started p).q with snapOps := s.q.snapOps ++ [.readAxis n i p.ref] } }))
        ∧ (∀ g : GroupId, s.Admits core 0x2B p → p.groupId = some g →
          ∀ o k : Nat, groupItem (byteAt p.params 0).toNat = some (o, k) → (byteAt p.params 2).toNat < max 1 k →
            byteAt p.params 3 = 0 →
            (byteAt p.params 1 = 1 → exec (.readGroup core) s =
                .next (s.answered p .ok p.axis ((s.grp g).latchSet.getD (o + (byteAt p.params 2).toNat) 0)))
            ∧ (byteAt p.params 1 = 0 → exec (.readGroup core) s =
                .next { s.started p with q := { (s.started p).q with
                  snapOps := s.q.snapOps ++ [.readGroup g (o + (byteAt p.params 2).toNat) p.ref] } })))

/-- CONFIG_AXIS whose checks pass on every addressed axis gives each of them the settings of its section and leaves every other
axis, and of an addressed one all but settings and KE learning, as it was; it answers OK (R317). Section 0 of CONFIG_AXIS writes
TSEL, LA_EN, ISLEW, LA_DOWN, the four amplitudes, TBOOST and TSTAND from their offsets, and no other setting (R317). -/
def Obligations.ConfigAxisSetsTheAddressedAxes : Prop :=
  (∀ (s : State) (core : CoreId) (p : Packet), s.Admits core 0x08 p → passes (configChecks p.params) →
        (∀ n ∈ s.addressed p, passes (s.configAxisChecks p.params n)) →
          ∃ t, exec (.configAxis core) s = .next t
            ∧ (∀ n ∈ s.addressed p, t.ax n = { s.ax n with cfg := (s.ax n).cfg.config p.params, obs := (s.ax n).obs.config p.params })
            ∧ (∀ n, n ∉ s.addressed p → t.ax n = s.ax n)
            ∧ t = { s.answered p .ok p.axis 0 with axes := t.axes, dev := { s.dev with parityBad := t.dev.parityBad } })
  ∧ (∀ (c : AxisCfg) (par : List Byte), byteAt par 0 = 0 →
        c.config par = { c with
          tsel := Fin.ofNat 4 (byteAt par 1).toNat, laEn := (byteAt par 1).getLsbD 4, islew := (byteAt par 2).toNat
          laDown := (byteAt par 3).toNat, irun := byteAt par 5 ++ byteAt par 4, ihold := byteAt par 7 ++ byteAt par 6
          iboost := byteAt par 9 ++ byteAt par 8, imin := byteAt par 11 ++ byteAt par 10
          tboost := (byteAt par 13 ++ byteAt par 12).toNat, tstand := (byteAt par 15 ++ byteAt par 14).toNat })

/-- A CONFIG_AXIS or BIND_MASTER that fails on one axis changes none, and names the lowest that failed (R315). -/
def Obligations.ConfiguringIsAllOrNothing : Prop :=
  ∀ (s : State) (core : CoreId) (p : Packet) (n : AxisId) (st : Status) (w : Word),
    (s.Admits core 0x08 p → passes (configChecks p.params) →
      (s.addressed p).find? (fun k => (firstFailure (s.configAxisChecks p.params k)).isSome) = some n →
      firstFailure (s.configAxisChecks p.params n) = some (st, w) →
        exec (.configAxis core) s = .next (s.answered p st (axByte n) w))
    ∧ (s.Admits core 0x0A p → (byteAt p.params 0).toNat ≤ 7 → uAt p.params 1 3 = 0 →
      (s.addressed p).find? (fun k => (s.ax k).mot.hasSegments) = some n →
        exec (.bindMaster core) s = .next (s.answered p .rejectState (axByte n) 0xFFFFFFFF))

/-- CONFIG_GROUP writes the fields that its APPLY mask names, each from its own offset, and leaves the others (R318). ROUTE_AXIO
gives every pin a record names the entry of its last record and every bank of its mask the threshold asked for; a pin that no record
names is as it was, and of the axes only an encoder's levels and a plug state may follow their new pins (R114, R137, R320). -/
def Obligations.GroupsAndPinsAreConfigured : Prop :=
  (∀ (s : State) (core : CoreId) (p : Packet) (g : GroupId), s.Admits core 0x09 p → p.groupId = some g →
        passes (s.configGroupChecks p.params g) →
          ∃ t, exec (.configGroup core) s = .next t
            ∧ t.grp g = { s.grp g with
                gang01 := if (byteAt p.params 1).getLsbD 0 then (byteAt p.params 0).getLsbD 0 else (s.grp g).gang01
                gang23 := if (byteAt p.params 1).getLsbD 0 then (byteAt p.params 0).getLsbD 1 else (s.grp g).gang23
                dt := if (byteAt p.params 1).getLsbD 1 then (byteAt p.params 2).setWidth 6 else (s.grp g).dt
                oct := if (byteAt p.params 1).getLsbD 2 then (byteAt p.params 3).setWidth 6 else (s.grp g).oct
                tbl := if (byteAt p.params 1).getLsbD 3 then (byteAt p.params 4).setWidth 5 else (s.grp g).tbl
                trw := if (byteAt p.params 1).getLsbD 4 then byteAt p.params 5 else (s.grp g).trw
                trn := if (byteAt p.params 1).getLsbD 4 then (byteAt p.params 6).setWidth 4 else (s.grp g).trn }
            ∧ (∀ k, k ≠ g → t.grp k = s.grp k)
            ∧ (∀ n, (t.ax n).cfg = (s.ax n).cfg ∧ (t.ax n).mot = (s.ax n).mot ∧ (t.ax n).drv = (s.ax n).drv)
            ∧ t = { s.answered p .ok p.axis 0 with
                axes := t.axes, groups := t.groups, dev := { s.dev with parityBad := t.dev.parityBad } })
  ∧ (∀ (s : State) (core : CoreId) (p : Packet), s.Admits core 0x0B p → passes (s.routeChecks p.params) →
        ∃ t, exec (.routeAxio core) s = .next t
          ∧ (∀ (q : PinId) (r : RouteRecord), r ∈ routeRecords p.params → r.pin = q.val → (t.pin q).entry = r.entry)
          ∧ (∀ q : PinId, (∀ r ∈ routeRecords p.params, r.pin ≠ q.val) → t.pin q = s.pin q)
          ∧ (∀ b : Fin 6, t.dev.bankHv.getLsbD b.val =
              if (byteAt p.params 0).getLsbD b.val then (byteAt p.params 1).getLsbD b.val else s.dev.bankHv.getLsbD b.val)
          ∧ t = { s.answered p .ok p.axis 0 with
              axes := t.axes, pins := t.pins
              dev := { s.dev with bankHv := t.dev.bankHv, shalePend := t.dev.shalePend, shaleDropped := t.dev.shaleDropped } }
          ∧ ∀ n, t.ax n = { s.ax n with
              enc := { (s.ax n).enc with a := (t.ax n).enc.a, b := (t.ax n).enc.b }
              prot := { (s.ax n).prot with plug := (t.ax n).prot.plug, plugChg := (t.ax n).prot.plugChg } })

/-- BIND_MASTER, SET_POSITION, SET_SPEED, SET_ACCEL, STOP and QUICKSTOP (without FLUSH) start by leaving one effect for each
addressed axis to the next snapshot, under one new action; nothing is answered yet and nothing else changes. With FLUSH, STOP and
QUICKSTOP first complete FLUSHED every earlier unstarted packet that moves an axis they address, in acceptance order (R37, R94, R96,
R97, R299, R319, R324). At its snapshot BIND_MASTER binds the axis and takes up the master's snapshot position as m_prog (R37, R49);
SET_POSITION redefines the position, leaves the table angle by shifting POFF against it, and clears POSITION_UNSURE (R142, R239,
R319). Only that axis changes. -/
def Obligations.SnapshotCommandsWaitForTheSnapshot : Prop :=
  (∀ (s : State) (core : CoreId) (p : Packet),
        let waits := fun (kind : ActKind) (op : AxisId → SnapOp) =>
          ({ s.started p with q := { (s.started p).q with
              actions := s.q.actions ++ [⟨s.q.nextAct, p.ref, p.axis, kind, s.addressed p, [], 0, 0⟩]
              nextAct := s.q.nextAct + 1, snapOps := s.q.snapOps ++ (s.addressed p).map op } } : State)
        (s.Admits core 0x0A p → (byteAt p.params 0).toNat ≤ 7 → uAt p.params 1 3 = 0 →
          (∀ n ∈ s.addressed p, (s.ax n).mot.hasSegments = false) →
            exec (.bindMaster core) s = .next (waits .bind fun n => .bind n (Fin.ofNat 8 (byteAt p.params 0).toNat) s.q.nextAct))
        ∧ (s.Admits core 0x0C p → (∀ n ∈ s.addressed p, (s.ax n).mot.hasSegments = false ∧ (s.ax n).mot.jog = none) →
            exec (.setPosition core) s = .next (waits .setPosition fun n => .setPosition n (sAt p.params 0 8) s.q.nextAct))
        ∧ (s.Admits core 0x18 p → 0 < sAt p.params 0 8 →
            exec (.setSpeed core) s = .next (waits .setSpeed fun n => .setSpeed n (sAt p.params 0 8) s.q.nextAct))
        ∧ (s.Admits core 0x19 p → 0 ≤ sAt p.params 0 8 → 0 ≤ sAt p.params 8 8 → 0 < sAt p.params 0 8 + sAt p.params 8 8 →
            exec (.setAccel core) s =
              .next (waits .setAccel fun n => .setAccel n (sAt p.params 0 8) (sAt p.params 8 8) s.q.nextAct))
        ∧ (s.Admits core 0x1A p → p.flush = false →
            exec (.stop core) s = .next (waits .stop fun n => .stop n false false s.q.nextAct))
        ∧ (s.Admits core 0x1B p → p.flush = false →
            exec (.quickstop core) s = .next (waits .quickstop fun n => .stop n true false s.q.nextAct))
        ∧ ∀ quick : Bool, s.Admits core (if quick then 0x1B else 0x1A) p → p.flush = true → s.mp.stream = none →
            let hit := fun (o : Packet) => o.seq < p.seq && flushable o.opc && p.covers o
            ∃ t, exec (if quick then .quickstop core else .stop core) s = .next t
              ∧ t = { s with q := { s.q with
                  packets := s.q.packets.filter fun o => o.seq ≠ p.seq && !hit o
                  ring := s.q.ring ++ ((s.q.packets.filter fun o => o.seq ≠ p.seq).filter hit).map fun o => s.reply o .flushed o.axis 0
                  actions := s.q.actions ++ [⟨s.q.nextAct, p.ref, p.axis, if quick then .quickstop else .stop, s.addressed p, [], 0, 0⟩]
                  nextAct := s.q.nextAct + 1
                  snapOps := s.q.snapOps ++ (s.addressed p).map fun n => .stop n quick true s.q.nextAct
                  cplReq := t.q.cplReq } })
  ∧ (∀ (s : State) (n : AxisId) (act : Nat), (s.q.actions.all fun a => a.id ≠ act) = true →
        (∀ m : MasterId, sameButAxis n s (s.snapOp (.bind n m act))
          ∧ ((s.snapOp (.bind n m act)).ax n).mot.master = m
          ∧ ((s.snapOp (.bind n m act)).ax n).mot.mProg = s.tb.snap[m.val]
          ∧ ((s.snapOp (.bind n m act)).ax n).mot.pos = (s.ax n).mot.pos)
        ∧ (∀ x : Int, sameButAxis n s (s.snapOp (.setPosition n x act))
          ∧ ((s.snapOp (.setPosition n x act)).ax n).mot.pos = x
          ∧ ((s.snapOp (.setPosition n x act)).ax n).mot.pos + ((s.snapOp (.setPosition n x act)).ax n).mot.poff
              = (s.ax n).mot.pos + (s.ax n).mot.poff
          ∧ ((s.snapOp (.setPosition n x act)).ax n).mot.unsure = false))

/-- Each of the seven segment opcodes whose checks pass puts its descriptor at the end of its axis's segment queue, and its axis
into the members of the batch it names; nothing is answered yet and nothing else changes (R71, R103, R297, R322). A segment opcode
that fails a check is answered with the first failure and changes nothing else; the checks refuse an axis in SUPPLY_HOLD, in thermal
shutdown, disabled or with 16 entries occupied (R71, R313, R322). -/
def Obligations.SegmentsEnterTheirQueueOrAreRefused : Prop :=
  (∀ (s : State) (core : CoreId) (p : Packet) (n : AxisId), axisOfByte p.axis = some n → passes (s.segmentChecks p n) →
        let queued : State := { s.started p with
          axes := upd s.axes n (fun a => { a with mot := { a.mot with queue := a.mot.queue ++ [p.segment] } })
          q := { (s.started p).q with
            batches := if p.batch = 0 then s.q.batches else s.q.batches.map fun b =>
              if b.id = p.batch then { b with contributed := b.contributed ||| BitVec.ofNat 48 (2 ^ n.val) } else b } }
        (s.Admits core 0x10 p → exec (.moveAbs core) s = .next queued)
        ∧ (s.Admits core 0x11 p → exec (.moveRel core) s = .next queued)
        ∧ (s.Admits core 0x12 p → exec (.velocity core) s = .next queued)
        ∧ (s.Admits core 0x13 p → exec (.gear core) s = .next queued)
        ∧ (s.Admits core 0x14 p → exec (.dose core) s = .next queued)
        ∧ (s.Admits core 0x15 p → exec (.hold core) s = .next queued)
        ∧ (s.Admits core 0x16 p → exec (.home core) s = .next queued))
  ∧ ((∀ (s : State) (core : CoreId) (p : Packet) (n : AxisId) (st : Status) (w : Word), axisOfByte p.axis = some n →
        firstFailure (s.segmentChecks p n) = some (st, w) →
          (s.Admits core 0x10 p → exec (.moveAbs core) s = .next (s.answered p st p.axis w))
          ∧ (s.Admits core 0x11 p → exec (.moveRel core) s = .next (s.answered p st p.axis w))
          ∧ (s.Admits core 0x12 p → exec (.velocity core) s = .next (s.answered p st p.axis w))
          ∧ (s.Admits core 0x13 p → exec (.gear core) s = .next (s.answered p st p.axis w))
          ∧ (s.Admits core 0x14 p → exec (.dose core) s = .next (s.answered p st p.axis w))
          ∧ (s.Admits core 0x15 p → exec (.hold core) s = .next (s.answered p st p.axis w))
          ∧ (s.Admits core 0x16 p → exec (.home core) s = .next (s.answered p st p.axis w)))
      ∧ ∀ (s : State) (p : Packet) (n : AxisId), passes (s.segmentChecks p n) →
          (s.grp (groupOf n)).supplyHold = false ∧ (s.grp (groupOf n)).thermSd = false ∧ (s.ax n).drv.enabled = true
            ∧ (s.ax n).mot.queue.length + (s.ax n).mot.runs.length < 16)

/-- BATCH_DEFINE adds the batch it declares to the table, with no predecessor where the one it names is not live; BATCH_CLOSE leaves
the close of a live batch to the next snapshot; both answer OK and change nothing else (R103, R105, R321). -/
def Obligations.BatchesAreDeclaredAndClosed : Prop :=
  ∀ (s : State) (core : CoreId) (p : Packet), s.dev.stage = .running → s.dev.suspended = false → s.dev.safeHold = false →
    s.opening p = none →
    (s.heldPacket core (fun x => isOpc 0x20 x && !isClose x) = some p → passes (s.declareChecks p.params) →
      exec (.batchDefine core) s = .next ({ s.answered p .ok p.axis 0 with
        q := { (s.answered p .ok p.axis 0).q with batches := s.q.batches ++ [
          if (s.batch? (declared p.params).pred.toNat).isSome then declared p.params else { declared p.params with pred := 0 }] } } : State))
    ∧ (s.heldPacket core isClose = some p → passes (s.closeChecks p.params) →
      exec (.batchClose core) s = .next ({ s.answered p .ok p.axis 0 with
        q := { (s.answered p .ok p.axis 0).q with
          snapOps := s.q.snapOps ++ [.closeBatch (byteAt p.params 1 ++ byteAt p.params 0)] } } : State))

/-- ENABLE whose axes meet every condition and are off marks each of them and leaves its energising to the next boundary; there the
axis is enabled and EN rises on its legs that no latch holds, unless a safe-off, a fault of its group or the like forbids it, which
leaves all as it is (R23, R325). What passes the conditions is free of safe-off, lock-out, thermal shutdown, latched faults and
SAFE_HOLD. ENABLE of one axis that a condition refuses is answered with that condition's status and word, and of one that is on
already with OK; neither changes the axis (R325). The number of actions only counts. DISABLE of enabled axes leaves each to the next
snapshot; of one axis that is off it is answered OK (R324, R548). -/
def Obligations.EnableAndDisableTakeUpTheirAxes : Prop :=
  ((∀ (s : State) (core : CoreId) (p : Packet), s.Admits core 0x1D p →
        (∀ n ∈ s.addressed p, passes (s.enableChecks n) ∧ (s.ax n).drv.enabled = false ∧ (s.ax n).drv.enabling = false) →
          ∃ t, exec (.enable core) s = .next t
            ∧ t = { s.awaits p .enable (s.addressed p) ((s.addressed p).map .energise) with axes := t.axes }
            ∧ (∀ n ∈ s.addressed p, t.ax n = { s.ax n with drv := { (s.ax n).drv with enabling := true } })
            ∧ ∀ n, n ∉ s.addressed p → t.ax n = s.ax n)
      ∧ (∀ (s : State) (n : AxisId), passes (s.enableChecks n) →
          s.dev.safeAct = false ∧ (s.grp (groupOf n)).supplyHold = false ∧ (s.grp (groupOf n)).thermSd = false
            ∧ (s.ax n).prot.latched = false ∧ (s.ax n).prot.shareErr = false ∧ (s.ax n).prot.diagFail = false ∧ s.dev.safeHold = false)
      ∧ ∀ (s : State) (n : AxisId), (s.ax n).drv.enabling = true →
          (s.enAllowed n = false → s.snapOp (.energise n) = s)
          ∧ (s.enAllowed n = true → ((s.snapOp (.energise n)).ax n).drv.enabled = true
            ∧ ((s.snapOp (.energise n)).ax n).mot.mProg = s.tb.snap[(s.ax n).mot.master.val]
            ∧ (∀ m ∈ s.drivenLegs n, ((s.snapOp (.energise n)).leg m).en = (!(s.leg m).intlk && !(s.leg m).intlkHold))
            ∧ (∀ m, m ∉ s.drivenLegs n → (s.snapOp (.energise n)).leg m = s.leg m)))
  ∧ (∀ (s : State) (core : CoreId) (p : Packet) (n : AxisId), s.ActionsFresh → s.Admits core 0x1D p → axisOfByte p.axis = some n →
        (∀ (st : Status) (w : Word), firstFailure (s.enableChecks n) = some (st, w) →
          exec (.enable core) s = .next (s.answeredAct p st p.axis w))
        ∧ (passes (s.enableChecks n) → (s.ax n).drv.enabled = true → (s.ax n).drv.enabling = false →
          exec (.enable core) s = .next (s.answeredAct p .ok p.axis 0)))
  ∧ (∀ (s : State) (core : CoreId) (p : Packet), s.Admits core 0x1C p → s.mp.stream = none →
        ((∀ n ∈ s.addressed p, (s.ax n).drv.enabled = true ∧ s.disablingNow n = false) →
          exec (.disable core) s =
            .next (s.awaits p .disable (s.addressed p) ((s.addressed p).map fun n => .disable n s.q.nextAct)))
        ∧ ∀ n : AxisId, s.ActionsFresh → axisOfByte p.axis = some n → s.disablingNow n = false → (s.ax n).drv.enabled = false →
            (s.ax n).drv.enabling = false → exec (.disable core) s = .next (s.answeredAct p .ok p.axis 0))

/-- FLUSH of one axis empties its segment queue: every queued segment completes FLUSHED in queue order, then FLUSH completes OK;
what runs is not touched, nor any other axis (R98, R326). STOP_ALL flushes every earlier packet of an opcode that moves an axis, in
acceptance order, and sets its stop marks for the next boundary; with no axis enabled it completes OK at once, else it waits for
every enabled axis (R98, R299, R304, R306). -/
def Obligations.FlushAndStopAllDiscardWhatWaits : Prop :=
  (∀ (s : State) (core : CoreId) (p : Packet) (n : AxisId) (refs : Segment → BitVec 16 × BitVec 4),
        s.Admits core 0x1E p → axisOfByte p.axis = some n → s.mp.stream = none →
        (∀ g ∈ (s.ax n).mot.queue, g.ref = .host (refs g).1 (refs g).2 ∧ g.lost = false) →
          ∃ t, exec (.flush core) s = .next t
            ∧ t.q.ring = s.q.ring ++ ((s.ax n).mot.queue.map fun g => s.segEntry n g (refs g).1 (refs g).2 .flushed)
                ++ [s.reply p .ok p.axis 0]
            ∧ t = { s with
                axes := upd s.axes n fun a => { a with mot := { a.mot with queue := [] } }
                q := ({ (s.started p).q with ring := t.q.ring, batches := t.q.batches } : Queues).request })
  ∧ (∀ (s : State) (core : CoreId) (p : Packet), s.ActionsFresh → s.Admits core 0x7F p → s.mp.stream = none →
        let hit := fun (o : Packet) => o.seq < p.seq && flushable o.opc
        let gone := ((s.q.packets.filter fun o => o.seq ≠ p.seq).filter hit).map fun o => s.reply o .flushed o.axis 0
        let on := allAxes.filter fun n => (s.ax n).drv.enabled
        ∃ t, exec (.stopAll core) s = .next t
          ∧ t = { s with q := { s.q with
              packets := s.q.packets.filter fun o => o.seq ≠ p.seq && !hit o
              ring := s.q.ring ++ gone ++ (if on = [] then [⟨p.tag, .ok, 0, 0xFF, BitVec.ofNat 4 p.queue.val, s.m7pos, 0, false⟩] else [])
              actions := s.q.actions ++ (if on = [] then [] else [⟨s.q.nextAct, p.ref, 0xFF, .stopAll, on, [], 0, 0⟩])
              nextAct := s.q.nextAct + 1, snapOps := s.q.snapOps ++ [.stopAll s.q.nextAct], cplReq := t.q.cplReq } })

/-- DIAGNOSE of an axis that is off runs its steps where its group is free, else it waits for the one that runs (R244). DIAGNOSE_END
gives the verdict mask, the two resistances and DIAG_FAIL to its axis and answers the command: OK, or DRIVE_FAULT with the mask
where one of bits 0 to 10 is set; then the group is free (R33, R246, R247). IDENTIFY_MOTOR that passes its checks begins its 300
frames with ITEST and WGAIN, answering nothing yet; the checks need an enabled axis in MICROSTEP mode that runs no segment (R328).
-/
def Obligations.DiagnosisAndIdentificationRun : Prop :=
  (∀ (s : State) (core : CoreId) (p : Packet) (n : AxisId), s.Admits core 0x28 p → axisOfByte p.axis = some n →
        ((s.grp (groupOf n)).diag = none → (s.grp (groupOf n)).diagQueue = [] → (s.grp (groupOf n)).lockout = 0 →
          (s.ax n).drv.enabled = false → (s.ax n).drv.enabling = false → s.isPartner n = false →
            exec (.diagnose core) s = .next { s.awaits p .diagnose [n] [] with
              groups := upd s.groups (groupOf n) fun g => { g with diag := some (n, s.q.nextAct) } })
        ∧ ((s.grp (groupOf n)).diag.isSome = true →
            exec (.diagnose core) s = .next { s.awaits p .diagnose [n] [] with
              groups := upd s.groups (groupOf n) fun g => { g with diagQueue := g.diagQueue ++ [(n, s.q.nextAct)] } }))
  ∧ (∀ (s : State) (n : AxisId) (r : DiagReading) (act : Nat) (tag : BitVec 16) (q : BitVec 4),
        (s.grp (groupOf n)).diag = some (n, act) → (s.grp (groupOf n)).diagQueue = [] →
        s.WaitsFor act .diagnose n tag q →
          let skipped := (groupAxes (groupOf n)).any fun j => j ≠ n && (s.ax j).drv.enabled
          let m := diagMask r (s.ganged n) skipped
          let bad : Bool := m &&& 0x07FF ≠ 0
          ∃ t, exec (.diagnoseEnd n r) s = .next t
            ∧ t = { s with
                axes := upd s.axes n fun a => { a with prot := { a.prot with
                  verdict := m, ra := r.raMilliohm, rb := r.rbMilliohm, diagFail := bad, gangUntested := a.prot.gangUntested && bad } }
                groups := upd s.groups (groupOf n) fun g => { g with diag := none }
                q := s.actionDone act n tag q (if bad then .driveFault else .ok) (m.setWidth 32)
                dev := { s.dev with shalePend := t.dev.shalePend, shaleDropped := t.dev.shaleDropped } }
            ∧ (bad = false → t.dev = s.dev))
  ∧ (∀ (s : State) (core : CoreId) (p : Packet) (n : AxisId), s.Admits core 0x29 p → axisOfByte p.axis = some n →
        passes (s.identChecks p.params n) →
          (s.ax n).drv.enabled = true ∧ (s.ax n).cfg.setpoint = false ∧ (s.ax n).mot.runs = [] ∧ (s.ax n).mot.queue = []
          ∧ ∃ i : IdentState, exec (.identifyMotor core) s = .next { s.started p with
              axes := upd s.axes n fun a => { a with prot := { a.prot with ident := some i } } }
            ∧ i.ref = p.ref ∧ i.itest = uAt p.params 0 2 ∧ i.wgain = (byteAt p.params 2).getLsbD 0 ∧ i.frame = 0
            ∧ i.amp = (s.ax n).drv.sel.amp)

/-- CLEAR_FAULT, where no parity fault of its scope still mismatches: one axis loses its latch, try counter, DIAG_FAIL, SHARE_ERR
and STALL and stays disabled; the group form does so on every axis of the group, and clears the link and parity faults of the group;
the module form clears GFAULT but what still stands, TAG_LOST and GPAR_FIX, and keeps of the live tags those that something names
(R332, R413, R430). -/
def Obligations.ClearFaultClearsItsScope : Prop :=
  ∀ (s : State) (core : CoreId) (p : Packet), s.Admits core 0x38 p → s.parityStands p = false →
    (∀ n : AxisId, axisOfByte p.axis = some n → exec (.clearFault core) s = .next { s.answered p .ok p.axis 0 with
        axes := upd s.axes n Axis.cleared })
    ∧ (∀ g : GroupId, p.axis = 0xFE → p.groupId = some g → ∃ t, exec (.clearFault core) s = .next t
        ∧ t = { s.answered p .ok p.axis 0 with
            axes := t.axes, groups := upd s.groups g fun x => { x with link := false, par := false }
            sb := { s.sb with faultSeen := t.sb.faultSeen, causes := t.sb.causes, announced := t.sb.announced } }
        ∧ ∀ n, t.ax n = if n ∈ s.addressed p then (s.ax n).cleared else s.ax n)
    ∧ (p.axis = 0xFF → ∃ t, exec (.clearFault core) s = .next t
        ∧ t = { s.answered p .ok p.axis 0 with
            dev := { s.dev with tagLost := false, gparFix := false
                                gfault := s.dev.gfault &&& (if s.dev.discNow then 0x21 else 0x01) }
            sb := { s.sb with faultSeen := t.sb.faultSeen, causes := t.sb.causes, announced := t.sb.announced }
            q := { (s.answered p .ok p.axis 0).q with live := t.q.live } }
        ∧ ∀ e, e ∈ t.q.live ↔ e ∈ s.q.live ∧ (s.answered p .ok p.axis 0).tagNamed e.1 = true)

/-- OWNERSHIP answers the owner's code, 0 HOST, 1 SIDEBAND, 2 LOCAL; with OP 0 it first gives an axis of LOCAL that rests, with no
button pressed, back to HOST, and is refused with REJECT_STATE on one that is in motion or whose button is pressed, with
REJECT_OWNER on one of SIDEBAND; another OP is refused (R133, R333). -/
def Obligations.OwnershipReleasesAndAnswers : Prop :=
  ∀ (s : State) (core : CoreId) (p : Packet) (n : AxisId), s.Admits core 0x39 p → axisOfByte p.axis = some n →
    (1 < (byteAt p.params 0).toNat → exec (.ownership core) s = .next (s.answered p .rejectParam p.axis 16))
    ∧ (uAt p.params 1 3 ≠ 0 → (byteAt p.params 0 = 1 ∨ (byteAt p.params 0 = 0 ∧ (s.ax n).prot.owner ≠ .sideband)) →
        exec (.ownership core) s = .next (s.answered p .rejectParam p.axis 17))
    ∧ (uAt p.params 1 3 = 0 → byteAt p.params 0 = 1 → exec (.ownership core) s = .next (s.answered p .ok p.axis
        (match (s.ax n).prot.owner with
          | .host => 0
          | .sideband => 1
          | .localJog => 2)))
    ∧ (uAt p.params 1 3 = 0 → byteAt p.params 0 = 0 → (s.ax n).prot.owner = .host → exec (.ownership core) s = .next (s.answered p .ok p.axis 0))
    ∧ (byteAt p.params 0 = 0 → (s.ax n).prot.owner = .sideband →
        exec (.ownership core) s = .next (s.answered p .rejectOwner p.axis 4))
    ∧ (uAt p.params 1 3 = 0 → byteAt p.params 0 = 0 → (s.ax n).prot.owner = .localJog → s.localFree n = false →
        exec (.ownership core) s = .next (s.answered p .rejectState p.axis 0xFFFFFFFF))
    ∧ (uAt p.params 1 3 = 0 → byteAt p.params 0 = 0 → (s.ax n).prot.owner = .localJog → s.localFree n = true →
        exec (.ownership core) s = .next { s.answered p .ok p.axis 0 with
          axes := upd s.axes n fun a => { a with prot := { a.prot with owner := .host, ownChg := true } } })

/-- SYNC_EPOCH waits with its frame number and mask for the next pulse boundary; there the frame counter takes N, every masked
master reads 0, positions of axes follow only masters computed from the frame number, and the command completes OK (R69, R70). Away
from a pulse boundary EPOCH_LOAD does nothing. -/
def Obligations.EpochsLoadAtThePulseBoundary : Prop :=
  (∀ (s : State) (core : CoreId) (p : Packet), s.Admits core 0x58 p → byteAt p.params 0 = 0 → (byteAt p.params 8).toNat < 128 →
    uAt p.params 9 3 = 0 → (s.tb.roleEff = 2 → s.tb.syncLock = true) → s.maskBound (byteAt p.params 8).toNat = false →
    s.tb.epoch = none →
      exec (.syncEpoch core) s = .next { s.started p with
        tb := { s.tb with epoch := some ⟨p.ref, BitVec.ofNat 64 (uAt p.params 0 8), (byteAt p.params 8).setWidth 7, 0⟩ } })
  ∧ (∀ s : State, s.tb.epoch = none ∨ s.epochDue = false → exec .epochLoad s = .next s)
  ∧ ∀ (s : State) (e : Epoch) (tag : BitVec 16) (q : BitVec 4), s.tb.epoch = some e → s.epochDue = true → e.ref = .host tag q →
      s.dev.suspended = false → s.dev.safeHold = false →
      ∃ t, exec .epochLoad s = .next t ∧ t.tb.frame = e.n ∧ t.tb.epoch = none ∧ t.tb.tick = s.tb.tick
        ∧ (∀ m : Fin 7, e.mask.getLsbD m.val = true → t.tb.snap[m.val] = 0)
        ∧ (∀ n : AxisId, (t.ax n).mot.pos = (s.ax n).mot.pos ∧ (t.ax n).mot.out = (s.ax n).mot.out
            ∧ (t.ax n).mot.master = (s.ax n).mot.master
            ∧ (t.ax n).mot.mProg = (s.ax n).mot.mProg + (if 5 ≤ (s.ax n).mot.master.val ∧
                ((s.ax n).mot.master.val = 7 ∨ e.mask.getLsbD (s.ax n).mot.master.val = false)
              then t.tb.snap[(s.ax n).mot.master.val] - s.tb.snap[(s.ax n).mot.master.val] else 0)
            ∧ (t.ax n).cfg = (s.ax n).cfg ∧ (t.ax n).drv = (s.ax n).drv ∧ (t.ax n).enc = (s.ax n).enc
            ∧ (t.ax n).prot = (s.ax n).prot)
        ∧ t.q.ring = s.q.ring ++ [⟨tag, .ok, 0, 0xFF, q, mpos32 t.tb.snap[7], 0, false⟩]
        ∧ t.q.packets = s.q.packets ∧ t.q.actions = s.q.actions ∧ t.legs = s.legs ∧ t.coils = s.coils ∧ t.groups = s.groups
        ∧ t.dev = s.dev ∧ t.nvm = s.nvm ∧ t.hp = s.hp ∧ t.sb = s.sb ∧ t.mp = s.mp ∧ t.pending = s.pending

/-! ### Tables, libraries, flash and firmware -/

/-- LOAD_TABLE that passes its checks: from flash it queues one read; from a packet without COMMIT it writes its entries into the
staging copy and answers OK; with COMMIT the whole copy waits to be installed between two frames, where the command is answered
(R330). The entries written are those of the packet, from FIRST on. TABLE_RELOAD_END: a table whose stored object passes is
restored; one whose object fails is invalid, with FL_ERR where the flash is not there; with no reload under way nothing happens
(R365, R410, R491). -/
def Obligations.TablesAreLoadedAndReloaded : Prop :=
  ((∀ (s : State) (core : CoreId) (p : Packet), s.Admits core 0x30 p → passes (s.tableChecks p.params) →
        let t := tableOf p.params
        let copy := fun (x : MicroTable) => writeEntries (x.staging.getD x.entries) (tableEntries p.params) (uAt p.params 2 2)
        ((byteAt p.params 1).getLsbD 0 = true → ∃ u, exec (.loadTable core) s = .next u ∧ (s.started p).onlyPort u
            ∧ u.mp.jobs = s.mp.jobs ++ [.table p.ref t (wordAt p.params 8)])
        ∧ (byteAt p.params 1 = 0 → exec (.loadTable core) s = .next { s.answered p .ok p.axis 0 with
            tables := upd s.tables t fun x => { x with staging := some (copy x) } })
        ∧ (byteAt p.params 1 = 2 → exec (.loadTable core) s = .next { s.started p with
            tables := upd s.tables t fun x => { x with staging := none }
            q := { (s.started p).q with snapOps := s.q.snapOps ++ [.installTable t (copy s.tables[t.val]) none p.ref] } }))
      ∧ (∀ (s : State) (t : Fin 4) (es : List Word) (fa : Option Word) (tag : BitVec 16) (q : BitVec 4),
          s.snapOp (.installTable t es fa (.host tag q)) = { s with
            tables := upd s.tables t fun x =>
              { x with custom := some es, faddr := fa, invalid := false, reloading := false, badEntries := [] }
            q := s.entered [⟨tag, .ok, 0, 0xFF, q, s.m7pos, 0, false⟩] })
      ∧ ∀ (old new : List Word) (first i : Nat), first + new.length ≤ old.length →
          (writeEntries old new first)[i]? = if first ≤ i ∧ i < first + new.length then new[i - first]? else old[i]?)
  ∧ (∀ (s : State) (t : Fin 4) (a : Word),
        (s.tables[t.val].reloading = false → exec (.tableReloadEnd t) s = .next s)
        ∧ (s.tables[t.val].reloading = true → s.tables[t.val].faddr = some a →
          let lost : State := { s with tables := upd s.tables t fun x => { x with invalid := true, reloading := false, badEntries := [] } }
          (s.flashThere a.toNat 4108 = false → exec (.tableReloadEnd t) s = .next { lost with mp := { s.mp with flErr := true } })
          ∧ (s.flashThere a.toNat 4108 = true → ∃ u, exec (.tableReloadEnd t) s = .next u
            ∧ (s.tableObject a.toNat = none → lost.onlyReads u)
            ∧ ∀ es, s.tableObject a.toNat = some es → State.onlyReads { s with
                tables := upd s.tables t fun x => { x with custom := some es, reloading := false, badEntries := [] } } u)))

/-- LOAD_LIBRARY queues the read of its library (R331). A stream goes on only while its next queue has room; the last record enters
its queue as the segment it describes, and LOAD_LIBRARY then completes OK with the number of records, the tags left over being free
(R331, R374). -/
def Obligations.LibrariesStreamIntoTheQueues : Prop :=
  (∀ (s : State) (core : CoreId) (p : Packet), s.Admits core 0x31 p →
    ∃ t, exec (.loadLibrary core) s = .next t ∧ (s.started p).onlyPort t ∧ t.mp.jobs = s.mp.jobs ++
      [.library p.ref (wordAt p.params 0) (uAt p.params 4 2) (uAt p.params 6 2) (uAt p.params 8 2) (uAt p.params 10 2)])
  ∧ ∀ (s : State) (st : Stream) (r : Record), s.dev.stage = .running → s.dev.suspended = false → s.dev.safeHold = false →
      s.mp.stream = some st →
      (∀ rest, st.records = r :: rest → s.queueFull r = true → exec .libraryStreamResume s = .next s)
      ∧ ∀ (n : AxisId) (tag : BitVec 16) (q : BitVec 4), st.records = [r] → st.ref = .host tag q → axisOfByte r.axis = some n →
          (s.ax n).mot.queue.length + (s.ax n).mot.runs.length < 16 →
          let p := r.packet (st.tag st.written) q
          p.axis = r.axis → p.batch = 0 → s.asyncCheck p = none → s.opening p = none → passes (s.segmentChecks p n) →
            exec .libraryStreamResume s = .next { s with
              axes := upd s.axes n fun a => { a with mot := { a.mot with queue := a.mot.queue ++ [p.segment] } }
              mp := { s.mp with stream := none }
              q := { s.entered [⟨tag, .ok, 0, 0xFF, q, s.m7pos, BitVec.ofNat 32 (st.written + 1), false⟩] with
                live := s.q.live.filter fun t => !(st.tagBase + (st.written + 1) ≤ t.1.toNat && t.1.toNat < st.tagBase + st.maxSeg) } }

/-- FLASH_OPERATION_END of the job that the port serves: a table that passes waits to be installed; a block is erased, or a page
holds its bytes, the prefetch lines it touched are gone, and FW_STAGE completes OK with its last operation; a verification that
finds no fault marks the bank and answers its version, and one that finds a fault answers its code (R330, R334, R367, R368, R370).
With no job nothing happens. -/
def Obligations.FlashOperationsEnd : Prop :=
  ∀ (s : State),
    (∀ ok, s.mp.jobs = [] → exec (.flashOperationEnd ok) s = .next s)
    ∧ (∀ (ref : CmdRef) (t : Fin 4) (a : Word) (es : List Word), s.served = some (.table ref t a) →
        s.tableObject a.toNat = some es → es.all entryOk = true → ∃ u, exec (.flashOperationEnd true) s = .next u
          ∧ State.onlyPort { s with
            tables := upd s.tables t fun x => { x with staging := none }
            q := { s.q with snapOps := s.q.snapOps ++ [.installTable t es (some a) ref] } } u
          ∧ u.mp.jobs = s.mp.jobs.erase (.table ref t a))
    ∧ (∀ (j : FlashJob) (tag : BitVec 16) (q : BitVec 4) (a k : Nat) (new : List Host.Cell), s.served = some j →
        (∃ b, j = .erase (.host tag q) b ∧ a = s.bankBase s.inactiveBank + 0x10000 * b ∧ k = 0x10000
            ∧ new = cellErase s.mp.flash a k)
          ∨ (∃ o l, j = .program (.host tag q) o l ∧ a = s.bankBase s.inactiveBank + o ∧ k = l.length
            ∧ new = cellWrite s.mp.flash a l) → s.flashThere a k = true →
        ∃ t, exec (.flashOperationEnd true) s = .next t ∧ t.mp.jobs = s.mp.jobs.erase j
          ∧ (∀ l ∈ t.mp.lines, l ∈ s.mp.lines ∧ rangesMeet (64 * l) 64 a k = false)
          ∧ ((s.mp.jobs.erase j).any FlashJob.isStage = true → State.onlyPort { s with mp := { s.mp with flash := new } } t)
          ∧ ((s.mp.jobs.erase j).any FlashJob.isStage = false → State.onlyPort { s with
              mp := { s.mp with flash := new, staging := false }
              q := s.entered [⟨tag, .ok, 0, 0xFF, q, s.m7pos, 0, false⟩] } t))
    ∧ (∀ (tag : BitVec 16) (q : BitVec 4), s.served = some (.verify (.host tag q)) →
        ∃ t, exec (.flashOperationEnd true) s = .next t ∧ t.mp.jobs = (s.mp.jobs.filter fun j => !j.isStage)
          ∧ (s.verifyCode s.inactiveBank = 0 →
            State.onlyPort { s with
              nvm := { s.nvm with markA := t.nvm.markA, markB := t.nvm.markB }
              mp := { s.mp with staging := false }
              q := s.entered [⟨tag, .ok, 0, 0xFF, q, s.m7pos, (imageOf ((s.imageHeader s.inactiveBank).getD [])).version, false⟩] } t
            ∧ t.mark s.inactiveBank = some ((imageOf ((s.imageHeader s.inactiveBank).getD [])).digest,
                (imageOf ((s.imageHeader s.inactiveBank).getD [])).version)
            ∧ t.mark (!s.inactiveBank) = s.mark (!s.inactiveBank))
          ∧ (s.verifyCode s.inactiveBank ≠ 0 → State.onlyPort { s with
              mp := { s.mp with staging := false, flErr := s.mp.flErr || s.verifyCode s.inactiveBank = 8 }
              q := s.entered [⟨tag, .integrityLost, 0, 0xFF, q, s.m7pos, BitVec.ofNat 32 (s.verifyCode s.inactiveBank), false⟩] } t))

/-- FW_STAGE that passes its checks marks a stage as running and queues its operations: four block erases, the pages of its data, or
one verification; an erase or a program first clears the bank's verified mark (R334, R368). The pages hold the data in order, and
none crosses a page boundary. -/
def Obligations.FirmwareStagingQueuesItsOperations : Prop :=
  (∀ (s : State) (core : CoreId) (p : Packet), s.Admits core 0x40 p → passes (s.stageChecks p) →
    ∃ t, exec (.fwStage core) s = .next t
      ∧ State.onlyPort { s.started p with
          mp := { s.mp with staging := true }, nvm := { s.nvm with markA := t.nvm.markA, markB := t.nvm.markB } } t
      ∧ t.mp.jobs = s.mp.jobs ++ stageJobs p.ref p.params p.plen
      ∧ t.mark (!s.inactiveBank) = s.mark (!s.inactiveBank)
      ∧ t.mark s.inactiveBank = if uAt p.params 0 1 = 2 then s.mark s.inactiveBank else none)
  ∧ (∀ (ref : CmdRef) (par : List Byte) (plen : Nat),
      (uAt par 0 1 = 0 → stageJobs ref par plen = [.erase ref 0, .erase ref 1, .erase ref 2, .erase ref 3])
      ∧ (uAt par 0 1 = 2 → stageJobs ref par plen = [.verify ref]))
  ∧ ∀ (ref : CmdRef) (par : List Byte) (plen : Nat), uAt par 0 1 = 1 → plen ≤ 240 →
      (stageJobs ref par plen).flatMap (fun j => match j with
          | .program _ _ d => d
          | _ => []) = (par.drop 8).take (plen - 8)
      ∧ ∀ j ∈ stageJobs ref par plen, ∃ o d, j = .program ref o d ∧ d ≠ [] ∧ o / 256 = (o + d.length - 1) / 256

/-- FW_SWITCH that passes its checks begins its code load where nothing runs that it must wait for, else it waits; FW_CODE_LOAD_END
lets a bank whose code matches its digest wait for its switch frame, and otherwise the bank loses its mark, dispatch goes on and the
command ends REJECT_STATE with WORD 5 (R335, R422, R423). BOOT_BANK_TRY takes a bank whose image is accepted, and otherwise goes on
to the next (R371). -/
def Obligations.FirmwareSwitchesAtAQuiescentPoint : Prop :=
  (∀ (s : State) (core : CoreId) (p : Packet), s.Admits core 0x41 p → uAt p.params 0 2 = 0xC3A5 → uAt p.params 2 2 = 0 →
    s.mp.cfgErr = false → (s.mark s.inactiveBank).isSome = true → s.mp.switch = none →
      (s.quiet = true → exec (.fwSwitch core) s = .next { s.started p with
          dev := { s.dev with suspended := true, wdSuspended := true }
          mp := { s.mp with switch := some (.loading p.ref s.inactiveBank), boot := [] } })
      ∧ (s.quiet = false → exec (.fwSwitch core) s = .next { s.started p with
          mp := { s.mp with switch := some (.waitQuiescent p.ref), boot := [] } }))
  ∧ (∀ (s : State) (tag : BitVec 16) (q : BitVec 4) (b : Bool), s.mp.switch = some (.loading (.host tag q) b) → s.dev.suspended = true →
      (∀ h, s.imageHeader b = some h → s.codeOk b (imageOf h) = true → ∃ t, exec .fwCodeLoadEnd s = .next t
        ∧ State.onlyReads { s with mp := { s.mp with switch := some (.waitBoundary (.host tag q) b) } } t)
      ∧ ((∀ h, s.imageHeader b = some h → s.codeOk b (imageOf h) = false) → s.dev.safeHold = false → s.sb.waiting = [] →
        ∃ t, exec .fwCodeLoadEnd s = .next t ∧ t.mark b = none ∧ t.mark (!b) = s.mark (!b) ∧ t.mp.switch = none
          ∧ t.dev.suspended = false ∧ t.dev.wdSuspended = false ∧ t.q.staged = []
          ∧ t.q.ring = s.q.ring ++ s.q.staged ++ [⟨tag, .rejectState, 0, 0xFF, q, s.m7pos, 5, false⟩]
          ∧ t.axes = s.axes ∧ t.legs = s.legs ∧ t.groups = s.groups ∧ t.tb = s.tb ∧ t.hp = s.hp ∧ t.q.packets = s.q.packets))
  ∧ ∀ (s : State) (b : Bool) (rest : List Bool), s.mp.boot = b :: rest → s.dev.ready = true → s.mp.switch = none →
      s.dev.suspended = false → s.quiet = true →
        ((s.bootImage b).isSome = true → ∃ t, exec .bootBankTry s = .next t ∧ State.onlyReads { s with
            dev := { s.dev with suspended := true, wdSuspended := true }
            mp := { s.mp with boot := [], switch := some (.waitBoundary .internal b) } } t)
        ∧ (s.bootImage b = none → ∃ t, exec .bootBankTry s = .next t
            ∧ State.onlyReads { s with mp := { s.mp with boot := rest, flErr := t.mp.flErr }
                                       dev := { s.dev with shalePend := t.dev.shalePend, shaleDropped := t.dev.shaleDropped } } t)

/-! ### Life cycle, fuses, the log and block resets -/

/-- LIFECYCLE that passes its checks answers the state with OP 0; OP 1, 2 and 3 write FIELD, RETIRED and FIELD and begin a device
reset of source 2, OP 2 also the erasure of keys and log (R336, R377, R400, R401, R404). DEVICE_RESET with its key begins a reset of
source 5 (R338). -/
def Obligations.LifecycleAndDeviceResetBeginAReset : Prop :=
  ∀ (s : State) (core : CoreId) (p : Packet),
    (s.Admits core 0x48 p → passes (s.lifeChecks p.params) →
      (byteAt p.params 0 = 0 → exec (.lifecycle core) s =
        .next (s.answered p .ok p.axis (BitVec.ofNat 32 (lcCode s.nvm.lc))))
      ∧ ∀ op : Nat, (byteAt p.params 0).toNat = op → 1 ≤ op → op ≤ 3 →
          ∃ t, exec (.lifecycle core) s = .next t ∧ s.ResetBegun t 2
            ∧ t.nvm.lc = (if op = 2 then .retired else .field) ∧ t.nvm.lcWord = lifeWord t.nvm.lc
            ∧ t.nvm.erasing = (s.nvm.erasing || op = 2))
    ∧ (s.Admits core 0x4F p → uAt p.params 0 2 = 0xC3A5 → uAt p.params 2 2 = 0 →
      ∃ t, exec (.deviceReset core) s = .next t ∧ s.ResetBegun t 5
        ∧ t.nvm.lc = (if s.nvm.lc = .service then .field else s.nvm.lc))

/-- FUSE_PROGRAM on unprogrammed pins starts one sequence over all of them, its pulse running where VDD allows it; on programmed
ones alone it skips them, sets WONCE_VIOL and answers OK (R337, R395). The end of the sequence leaves each of its pins at its code
and every other as it was, and answers the numbers programmed and skipped. -/
def Obligations.FusesAreProgrammedOnce : Prop :=
  (∀ (s : State) (core : CoreId) (p : Packet), s.Admits core 0x49 p → passes (s.fuseChecks p.params) →
    let l := fuseRecords p.params
    ((∀ r ∈ l, s.blown r.1 = false) → exec (.fuseProgram core) s = .next { s.started p with
        dev := { s.dev with
          fuseSeq := some (p.ref, l.map (fun r => (Fin.ofNat 144 r.1, BitVec.ofNat 2 r.2)), l.length, 0) }
        nvm := { s.nvm with pulse := s.nvm.pulse || s.sb.vdd } })
    ∧ ((∀ r ∈ l, s.blown r.1 = true) → ∃ t, exec (.fuseProgram core) s = .next t
        ∧ t = { s.answered p .ok p.axis (BitVec.ofNat 32 (l.length * 2 ^ 16)) with
            dev := { s.dev with gfault := s.dev.gfault ||| 0x80, shalePend := t.dev.shalePend, shaleDropped := t.dev.shaleDropped }
            sb := { s.sb with faultSeen := t.sb.faultSeen, causes := t.sb.causes, announced := t.sb.announced } }))
  ∧ ∀ (s : State) (f : Bool) (tag : BitVec 16) (q : BitVec 4) (l : List (Fin 144 × BitVec 2)) (done skipped : Nat),
      s.dev.fuseSeq = some (.host tag q, l, done, skipped) → (l.map (·.1)).Nodup → (s.sb.vdd = true ∨ s.nvm.pulse = true) →
        ∃ t, exec (.nvmProgramEnd .fuse f) s = .next t
          ∧ t = { s with
              dev := { s.dev with fuseSeq := none }
              nvm := { s.nvm with fuses := t.nvm.fuses, pulse := s.sb.vdd && s.dev.optWrite.isSome }
              q := s.entered [⟨tag, .ok, 0, 0xFF, q, s.m7pos, BitVec.ofNat 32 (done + skipped * 2 ^ 16), false⟩] }
          ∧ (∀ r ∈ l, t.nvm.fuses[r.1.val] = r.2)
          ∧ ∀ i : Fin 144, (∀ r ∈ l, r.1 ≠ i) → t.nvm.fuses[i.val] = s.nvm.fuses[i.val]

/-- While no pulse runs and VDD allows none, no NVM operation ends. The end of an option write leaves both copies at the record
written, or with a failed verify one of them failing and WR_FAIL set (R389, R480). A Shale entry waits in a queue of 64, beyond
which entries are only counted; the end of a Shale write puts the oldest waiting entry in front of the log under the next SEQ (R424,
R425). -/
def Obligations.NvmWritesAndShaleEntriesEnd : Prop :=
  ∀ (s : State), (s.sb.vdd = false → s.nvm.pulse = false → ∀ j f, exec (.nvmProgramEnd j f) s = .next s)
    ∧ (∀ (cls code src : Nat) (data : BitVec 24),
      (s.dev.shalePend.length < 64 → s.shale cls code src data = { s with dev := { s.dev with
          shalePend := s.dev.shalePend ++ [⟨BitVec.ofNat 8 cls, BitVec.ofNat 8 code, 0, s.nvm.pohSaved, BitVec.ofNat 8 src,
            s.tb.frame.setWidth 32, data, false⟩] } })
      ∧ (64 ≤ s.dev.shalePend.length →
          s.shale cls code src data = { s with dev := { s.dev with shaleDropped := s.dev.shaleDropped + 1 } }))
    ∧ (∀ r, s.dev.optWrite = some r → s.sb.pendBank = false → (s.sb.vdd = true ∨ s.nvm.pulse = true) →
      exec (.nvmProgramEnd .options false) s = .next { s with
        dev := { s.dev with optBusy := false, optWrite := none }
        nvm := { s.nvm with copyA := some r, copyB := some r, pulse := s.sb.vdd && s.dev.fuseSeq.isSome } }
      ∧ ∃ t, exec (.nvmProgramEnd .options true) s = .next t ∧ t.dev.wrFail = true ∧ t.dev.optBusy = false ∧ t.dev.optWrite = none
          ∧ t.dev.opts = s.dev.opts
          ∧ ((t.nvm.copyA = s.nvm.copyA ∧ t.nvm.copyB = none) ∨ (t.nvm.copyA = none ∧ t.nvm.copyB = some r))
          ∧ t = { s with
              nvm := { s.nvm with copyA := t.nvm.copyA, copyB := t.nvm.copyB, pulse := s.sb.vdd && s.dev.fuseSeq.isSome }
              dev := { s.dev with wrFail := true, optBusy := false, optWrite := none, free := s.dev.free + 1
                                  shalePend := t.dev.shalePend, shaleDropped := t.dev.shaleDropped } })
    ∧ (∀ (f : Bool) (e : ShaleEntry) (rest : List ShaleEntry), s.dev.shalePend = e :: rest → e.broken = false →
        s.dev.shaleDropped = 0 → s.nvm.shale.length ≤ 3968 → (s.sb.vdd = true ∨ s.nvm.pulse = true) →
        exec (.nvmProgramEnd .shale f) s = .next { s with
          dev := { s.dev with shalePend := rest }
          nvm := { s.nvm with shale := { e with seq := s.nvm.shaleSeq } :: s.nvm.shale
                              shalePos := (s.nvm.shalePos + 1) % 4096, shaleSeq := s.nvm.shaleSeq + 1 }
          sb := { s.sb with causes := s.sb.causes ||| 2, announced := s.sb.announced &&& ~~~2 } })
    ∧ (∀ f : Bool, (s.dev.optWrite = none → exec (.nvmProgramEnd .options f) s = .next s)
        ∧ (s.dev.fuseSeq = none → exec (.nvmProgramEnd .fuse f) s = .next s)
        ∧ (s.dev.shalePend = [] → exec (.nvmProgramEnd .shale f) s = .next s))
    ∧ exec .pohSave s = .next { s with nvm := { s.nvm with pohSaved := s.nvm.pohSaved + 1 } }

/-- BLOCK_RESET with its key resets an idle block, whose BLK_RST bit then reads 1, and waits; of a block that is not idle it is
refused with the reason in WORD and in BLK_RST_REFUSED (R338, R398, R399). BLOCK_RESET_END clears the bit and answers OK; that of
the memory port finds the flash devices that qualify (R364). Written through BLK_RST with the unlock of its port, the reset of an
idle block takes place: the memory port loses FL_ERR, its devices and its prefetch lines; Quartz reloads the trims of every term and
code table; the sync logic is standalone with no lock and keeps the frame counter; the side-band port loses its latched causes; a
group's axes, queues and legs are as at reset and every other group is untouched. A block that is not idle is refused with its
reason (R396, R398, R399, R478, R490, R497). -/
def Obligations.BlockResetsTakePlace : Prop :=
  ((∀ (s : State) (core : CoreId) (p : Packet) (b : Nat), s.Admits core 0x50 p → uAt p.params 0 2 = 0xC3A5 → uAt p.params 2 1 = b →
        uAt p.params 3 1 = 0 → b < 12 ∨ (16 ≤ b ∧ b < 20) →
          (∀ r, s.blockBusy b false = some r → exec (.blockReset core) s =
              .next { s.answered p .rejectState p.axis (BitVec.ofNat 32 r) with
                dev := { s.dev with refReason := BitVec.ofNat 8 r, refBit := BitVec.ofNat 5 b } })
          ∧ (s.blockBusy b false = none → ∃ t, exec (.blockReset core) s = .next t ∧ t.blockRunning b = true
              ∧ t.dev.blkCmds = s.dev.blkCmds ++ [(p.ref, b)] ∧ t.q.packets = (s.started p).q.packets))
      ∧ ∀ (s : State) (b : Fin 20) (tag : BitVec 16) (q : BitVec 4), (b.val < 12 ∨ 16 ≤ b.val) →
          s.dev.blkCmds = [(.host tag q, b.val)] →
            ∃ t, exec (.blockResetEnd b) s = .next t ∧ t.blockRunning b.val = false ∧ t.dev.blkCmds = []
              ∧ t.q = s.entered [⟨tag, .ok, 0, 0xFF, q, s.m7pos, 0, false⟩]
              ∧ (∀ k : Fin 20, k ≠ b → (k.val < 12 ∨ 16 ≤ k.val) → t.blockRunning k.val = s.blockRunning k.val) ∧ t.axes = s.axes ∧ t.legs = s.legs ∧ t.tb = s.tb
              ∧ t.sb = s.sb ∧ t.nvm = s.nvm
              ∧ (b = 16 → s.blockRunning 16 = true →
                  (t.mp.dev0 = true ↔ ∃ x, s.mp.chip0 = some x ∧ qualifies x = true)
                  ∧ (t.mp.dev1 = true ↔ ∃ x, s.mp.chip1 = some x ∧ qualifies x = true) ∧ t.mp.flash = s.mp.flash))
  ∧ (∀ (s : State) (port : Port), s.dev.ready = true → s.unlockedBy port = true →
        let own : Bool := port = .sideband
        (∀ c b, (c, b) ∈ ([(.mportBlockReset port, 16), (.quartzBlockReset port, 17), (.syncBlockReset port, 18),
              (.sbandBlockReset port, 19)] : List (Instr × Nat)) ++ allGroups.map (fun g => (Instr.groupBlockReset port g, g.val)) →
          ∀ r, s.blockBusy b own = some r → exec c s = .next { s.wrote port 1 1 with
            dev := { (s.wrote port 1 1).dev with refReason := BitVec.ofNat 8 r, refBit := BitVec.ofNat 5 b } })
        ∧ (s.blockBusy 16 own = none → exec (.mportBlockReset port) s = .next { s.wrote port 1 1 with
            mp := { s.mp with flErr := false, dev0 := false, dev1 := false, cfgErr := true, lines := [], cont0 := false, cont1 := false
                              running := none, blkRst := s.mp.blkRst ||| 1 } })
        ∧ (s.blockBusy 17 own = none → ∃ t, exec (.quartzBlockReset port) s = .next t ∧ t.mp = { s.mp with blkRst := s.mp.blkRst ||| 2 }
            ∧ (∀ m, (t.leg m).os = (s.legTrim m).os ∧ (t.leg m).gs = (s.legTrim m).gs0 ∧ (t.leg m).zring = [] ∧ (t.leg m).en = (s.leg m).en
                ∧ (t.leg m).on = (s.leg m).on ∧ (t.leg m).off = (s.leg m).off)
            ∧ (∀ a, (t.adc a).oa = (s.adcTrim a).oa ∧ (t.adc a).ga = (s.adcTrim a).ga)
            ∧ (∀ g, (t.grp g).taps = s.tapTrim g ∧ (t.grp g).fineLost = false) ∧ t.axes = s.axes ∧ t.tb = s.tb ∧ t.q = s.q)
        ∧ (s.blockBusy 18 own = none → s.tb.epoch = none → ∃ t, exec (.syncBlockReset port) s = .next t
            ∧ t.mp = { s.mp with blkRst := s.mp.blkRst ||| 4 }
            ∧ t.tb = { s.tb with role := 0, roleEff := 0, trim := 0, slew := 0, pherr := 0, lockRun := 0, sincePulse := 0, syncLock := false
                                 tsyncLow := false, pulseNow := false, pulseNext := false }
            ∧ t.axes = s.axes ∧ t.legs = s.legs ∧ t.q = s.q)
        ∧ (s.blockBusy 19 own = none → exec (.sbandBlockReset port) s = .next { s.wrote port 1 1 with
            sb := { (s.wrote port 1 1).sb with causes := 0, announced := 0, shadow := [], holding := [], unlocked := false, regErr := 0
                                               lastCmd := 0, result := 0, dataOut := [] }
            mp := { s.mp with blkRst := s.mp.blkRst ||| 8 } })
        ∧ ∀ g : GroupId, s.blockBusy g.val own = none → ∃ t, exec (.groupBlockReset port g) s = .next t
            ∧ (t.grp g).resetting = true ∧ (t.grp g).lockout = (s.grp g).lockout ∧ (t.grp g).hbDirect = 0 ∧ (t.grp g).dt = 5
            ∧ (∀ n, groupOf n = g → t.ax n = {
                mot := { mProg := s.m7, mProgPrev := s.m7 }
                enc := { a := (s.ax n).enc.a, b := (s.ax n).enc.b }
                prot := { owner := (s.ax n).prot.owner } })
            ∧ (∀ n, groupOf n ≠ g → t.ax n = s.ax n)
            ∧ (∀ m, groupOfLeg m = g → (t.leg m).en = false ∧ (t.leg m).on = 0 ∧ (t.leg m).off = 0 ∧ (t.leg m).gs = (s.leg m).gs)
            ∧ (∀ m, groupOfLeg m ≠ g → t.leg m = s.leg m) ∧ (∀ k, k ≠ g → t.grp k = s.grp k) ∧ t.tb = s.tb ∧ t.nvm = s.nvm)

/-! ### Register words and host frames -/

/-- The unlock is consumed by its port's next register-word write, whatever word it addresses and whether or not the write takes
effect; writing 0xC3A5 to KEY_UNLOCK sets it, another value removes it, and it lapses (R416). -/
def Obligations.KeyUnlockOpensOneWrite : Prop :=
  ∀ (s : State) (port other : Port), other ≠ port →
    (s.dev.ready = true → exec (.keyUnlock port 0x0000C3A5) s = .next (s.setUnlock port true))
    ∧ (∀ v : Word, v ≠ 0x0000C3A5 → s.dev.ready = true → exec (.keyUnlock port v) s = .next (s.setUnlock port false))
    ∧ exec (.unlockLapse port) s = .next (s.setUnlock port false)
    ∧ ∀ (page : BitVec 4) (word : BitVec 8) (v : Word), ¬(page = 0 ∧ word = 5 ∧ v = 0x0000C3A5) →
        ∃ t, exec (.hiWriteCommit port page word v) s = .next t ∧ t.unlockedBy port = false
          ∧ (¬(page = 1 ∧ word = 1) → t.unlockedBy other = s.unlockedBy other)

/-- A keyed word written without an unlock changes nothing but KEY_VIOL in GFAULT, the error code KEY, the alert cause of a fault,
and a Shale entry at most once in 1,000 frames (R417); while READY is 0 a write only leaves NOT_READY (R276). OPT_CTL, unlocked,
with no write of options under way: CMD 1 begins writing staged options that are all in range, with no axis enabled; CMD 2 and CMD 3
load the device key and the firmware key once, in MANUFACTURE, from the staging words, which they clear; a second load sets
WONCE_VIOL and leaves STATE (R389, R402). -/
def Obligations.KeyedWordsNeedTheirUnlock : Prop :=
  (∀ (s : State) (port : Port) (c : Instr),
        c ∈ ([.mportBlockReset port, .quartzBlockReset port, .syncBlockReset port, .sbandBlockReset port, .optionsWrite port,
              .deviceKeyLoad port, .firmwareKeyLoad port] : List Instr) ++ allGroups.map (fun g => Instr.groupBlockReset port g) →
          (s.dev.ready = false → exec c s = .next (s.wroteError port 5))
          ∧ (s.dev.ready = true → s.unlockedBy port = false → ∃ t, exec c s = .next t
            ∧ t = { s.wroteError port 4 with
                dev := { s.dev with gfault := s.dev.gfault ||| 0x40, shalePend := t.dev.shalePend, shaleDropped := t.dev.shaleDropped }
                hp := { (s.wroteError port 4).hp with keyFrame := t.hp.keyFrame }
                sb := { (s.wroteError port 4).sb with faultSeen := t.sb.faultSeen, causes := t.sb.causes, announced := t.sb.announced,
                                                        keyFrame := t.sb.keyFrame } }))
  ∧ (∀ (s : State) (port : Port), s.dev.ready = true → s.unlockedBy port = true → s.dev.optBusy = false →
        ((∀ n, (s.ax n).drv.enabled = false) → s.nvm.lc ≠ .retired →
          (optionsOk s.dev.staging = true → exec (.optionsWrite port) s = .next { s.wrote port 1 4 with
              dev := { (s.wrote port 1 4).dev with optBusy := true, optWrite := some s.dev.staging }
              nvm := { s.nvm with pulse := s.nvm.pulse || s.sb.vdd } })
          ∧ (optionsOk s.dev.staging = false → exec (.optionsWrite port) s = .next (s.wroteError port 3)))
        ∧ ((∃ n, (s.ax n).drv.enabled = true) → exec (.optionsWrite port) s = .next (s.wroteError port 2))
        ∧ (s.nvm.lc = .manufacture → s.nvm.devKey = none → exec (.deviceKeyLoad port) s = .next { s.wrote port 1 4 with
            dev := { (s.wrote port 1 4).dev with staging := Vector.replicate 64 0 }
            nvm := { s.nvm with devKey := some ((optBytes s.dev.staging).take 16) } })
        ∧ (s.nvm.lc = .manufacture → s.nvm.fwKey = none → exec (.firmwareKeyLoad port) s = .next { s.wrote port 1 4 with
            dev := { (s.wrote port 1 4).dev with staging := Vector.replicate 64 0 }
            nvm := { s.nvm with fwKey := some ((optBytes s.dev.staging).take 64) } })
        ∧ (∀ c, (c = Instr.deviceKeyLoad port ∧ (s.nvm.lc ≠ .manufacture ∨ s.nvm.devKey.isSome = true))
              ∨ (c = Instr.firmwareKeyLoad port ∧ (s.nvm.lc ≠ .manufacture ∨ s.nvm.fwKey.isSome = true)) →
            ∃ t, exec c s = .next t ∧ t.nvm = s.nvm ∧ t.dev.staging = s.dev.staging ∧ t.dev.gfault = s.dev.gfault ||| 0x80
              ∧ t.axes = s.axes ∧ t.q = s.q ∧ t.tb = s.tb ∧ t.mp = s.mp
              ∧ (match port with
                | .host => t.hp.regErr = 2
                | .sideband => t.sb.regErr = 2)))

/-- Loading a _LO word latches its _HI into the port's shadow, and loading the _HI returns the shadow: what was latched stays
although the value changes. A _LO written is only held; the _HI commits both as the preset of its master for the next boundary, or
is refused with STATE and leaves the committed _LO in the holding word (R40, R280, R501). FRAME_CFG takes a length while every EN
line is low; VMn_RATE holds a rate until its boundary; SYNC_CFG takes role and trim, a new role only with no axis enabled; SHALE_IDX
selects an entry and gives its bytes. Reserved codes leave RANGE, a forbidden state STATE, and nothing else (R57, R484, R493, R496,
R497). -/
def Obligations.RegisterWordsCommitTheirFields : Prop :=
  ((∀ (s : State) (port : Port) (page : BitVec 4) (lo : BitVec 8), pairLo page.toNat lo.toNat = some lo.toNat → s.nvm.lc ≠ .retired →
        exec (.loReadLatch port page lo) s =
            .next (s.setShadow port (pairKey page.toNat lo.toNat) (s.readWord port page.toNat (lo.toNat + 1)))
        ∧ ∀ u : State, u.nvm.lc ≠ .retired → u.hp.shadow = (s.setShadow port (pairKey page.toNat lo.toNat)
              (s.readWord port page.toNat (lo.toNat + 1))).hp.shadow →
            u.sb.shadow = (s.setShadow port (pairKey page.toNat lo.toNat) (s.readWord port page.toNat (lo.toNat + 1))).sb.shadow →
            (u.regRead port page.toNat (lo.toNat + 1)).1 = s.readWord port page.toNat (lo.toNat + 1))
      ∧ ∀ (s : State) (port : Port) (m : MasterId) (v : Word), s.dev.ready = true →
          let key := pairKey 3 (0x10 + 2 * m.val)
          exec (.hiWriteCommit port 3 (BitVec.ofNat 8 (0x10 + 2 * m.val)) v) s =
              .next ((s.wrote port 3 (0x10 + 2 * m.val)).setHolding port key v)
          ∧ ∀ c ∈ ([.mposPreset port m v, .hiWriteCommit port 3 (BitVec.ofNat 8 (0x11 + 2 * m.val)) v] : List Instr),
            (m.val ≠ 7 → (∀ n, (s.ax n).drv.enabled = true → (s.ax n).mot.master ≠ m) →
              exec c s =
                .next { (s.wrote port 3 (0x11 + 2 * m.val)).setHolding port key (s.holdingOf port key &&& 0xFFFF0000) with
                  tb := { s.tb with preset := s.tb.preset.set m.val (some ((v ++ s.holdingOf port key).toInt / 65536))
                                    index := if m.val = 0 then none else s.tb.index } })
            ∧ (m.val = 7 ∨ (∃ n, (s.ax n).drv.enabled = true ∧ (s.ax n).mot.master = m) →
              exec c s =
                .next ((s.wroteError port 2).setHolding port key (s.readWord port 3 (0x10 + 2 * m.val)))))
  ∧ (∀ (s : State) (port : Port) (v : Word), s.dev.ready = true →
        (6 ≤ (v.setWidth 3).toNat → exec (.frameCfg port v) s = .next (s.wroteError port 3))
        ∧ ((v.setWidth 3).toNat < 6 → (∀ m, (s.leg m).en = false) → exec (.frameCfg port v) s =
            .next { s.wrote port 3 0 with tb := { s.tb with flen := v.setWidth 3 } })
        ∧ ((v.setWidth 3).toNat < 6 → (∃ m, (s.leg m).en = true) → exec (.frameCfg port v) s = .next (s.wroteError port 2))
        ∧ (∀ i : Fin 2, exec (.vmRate port i v) s = .next { s.wrote port 3 (5 + i.val) with
            tb := { s.tb with virt := upd s.tb.virt i fun x => { x with reg := v, pend := true } } })
        ∧ (v.setWidth 2 = (3 : BitVec 2) → exec (.syncCfg port v) s = .next (s.wroteError port 3))
        ∧ (v.setWidth 2 ≠ (3 : BitVec 2) → (v.setWidth 2 ≠ s.tb.role → ∀ n, (s.ax n).drv.enabled = false) →
            exec (.syncCfg port v) s = .next { s.wrote port 3 7 with
              tb := { s.tb with role := v.setWidth 2, trim := (v >>> 8).setWidth 8 } })
        ∧ (v.setWidth 2 ≠ (3 : BitVec 2) → v.setWidth 2 ≠ s.tb.role → (∃ n, (s.ax n).drv.enabled = true) →
            exec (.syncCfg port v) s = .next (s.wroteError port 2))
        ∧ ∃ t, exec (.shaleIdx port v) s = .next t ∧ t = { s.wrote port 1 8 with
              dev := { (s.wrote port 1 8).dev with shaleIdx := v.setWidth 12, shaleD := t.dev.shaleD } }
            ∧ (∀ e : ShaleEntry, s.shaleValid[(v.setWidth 12).toNat]? = some e → ∀ k : Fin 4, t.dev.shaleD[k.val] = wordAt e.bytes (4 * k.val))
            ∧ (s.shaleValid.length ≤ (v.setWidth 12).toNat → t.dev.shaleD = Vector.replicate 4 0))

/-- HOSTEDGE is set only in SERVICE with the group's axes off, and cleared at any time; EDGE_ON and EDGE_OFF load the shadow pair of
a host-driven leg whose COMMIT bit is clear; COMMIT marks legs, late when it arrives in the last tick of the frame; a refused word
leaves its code alone (R171, R193 to R195). The side-band host cannot write the edge words and COMMIT (R352). HB_DIRECT, unlocked,
in SERVICE and for a host-driven group, takes its word: a leg asked for both switches is held off by the interlock with its HB_INTLK
bit set, and EN of any leg is high only where the group permits it; otherwise STATE is left (R257, R258, R513). -/
def Obligations.HostDrivenGroupsTakeEdgesAndDirectControl : Prop :=
  (∀ (s : State) (g : GroupId) (m : Fin 16) (off : Bool) (v : Word) (tick : Nat), s.dev.ready = true → (s.grp g).resetting = false →
        let page := 4 + g.val
        let word := (if off then 0x30 else 0x20) + m.val
        (∀ port : Port, (v.getLsbD 8 = true →
            (s.nvm.lc = .service ∧ ∀ n ∈ groupAxes g, (s.ax n).drv.enabled = false ∧ (s.ax n).drv.enabling = false) →
              exec (.hostedge port g v) s = .next { s.wrote port page 0 with groups := upd s.groups g fun x => { x with hostedge := true } })
          ∧ (v.getLsbD 8 = true →
            (s.nvm.lc ≠ .service ∨ ∃ n ∈ groupAxes g, (s.ax n).drv.enabled = true ∨ (s.ax n).drv.enabling = true) →
              exec (.hostedge port g v) s = .next (s.wroteError port 2))
          ∧ (v.getLsbD 8 = false →
              exec (.hostedge port g v) s = .next { s.wrote port page 0 with groups := upd s.groups g fun x => { x with hostedge := false } }))
        ∧ ((v.setWidth 20 : BitVec 20).toNat ≤ 16 * s.len → (s.grp g).hostDriven = true → (s.leg (legAt g m)).commitBit = false →
            exec (.edgeWordWrite .host g m off v) s = .next { s.wrote .host page word with
              legs := upd s.legs (legAt g m) fun l => if off then { l with offS := v.setWidth 20 }
                else { l with onS := v.setWidth 20, henS := v.getLsbD 31 } })
        ∧ (16 * s.len < (v.setWidth 20 : BitVec 20).toNat → exec (.edgeWordWrite .host g m off v) s = .next (s.wroteError .host 3))
        ∧ ((v.setWidth 20 : BitVec 20).toNat ≤ 16 * s.len → ((s.grp g).hostDriven = false ∨ (s.leg (legAt g m)).commitBit = true) →
            exec (.edgeWordWrite .host g m off v) s = .next (s.wroteError .host 2))
        ∧ (exec (.edgeWordWrite .sideband g m off v) s = .next (s.wroteError .sideband 2)
            ∧ exec (.commit .sideband g v tick) s = .next (s.wroteError .sideband 2)
            ∧ exec (.hbDirect .sideband g v) s = .next (s.wroteError .sideband 2))
        ∧ ((s.grp g).hostedge = true → ∃ t, exec (.commit .host g v tick) s = .next t
            ∧ t = { s.wrote .host page 0x0B with legs := t.legs }
            ∧ (∀ k : Fin 16, t.leg (legAt g k) = if v.getLsbD k.val && !(s.leg (legAt g k)).commitBit
                then { s.leg (legAt g k) with commitBit := true, commitLate := decide (s.len ≤ tick + 1) } else s.leg (legAt g k))
            ∧ (∀ l, groupOfLeg l ≠ g → t.leg l = s.leg l))
        ∧ ((s.grp g).hostedge = false → v.setWidth 16 ≠ (0 : BitVec 16) →
            exec (.commit .host g v tick) s = .next (s.wroteError .host 2)))
  ∧ (∀ (s : State) (g : GroupId) (v : Word), s.dev.ready = true → s.dev.stage = .running → (s.grp g).resetting = false →
        s.hp.unlocked = true →
          ((s.nvm.lc ≠ .service ∨ (s.grp g).hostDriven = false) → exec (.hbDirect .host g v) s = .next (s.wroteError .host 2))
          ∧ (s.nvm.lc = .service → (s.grp g).hostDriven = true → ∃ t, exec (.hbDirect .host g v) s = .next t
            ∧ t.grp g = { s.grp g with hbDirect := v }
            ∧ (∀ m : Fin 16, v.getLsbD (2 * m.val) = true → v.getLsbD (2 * m.val + 1) = true →
                (t.leg (legAt g m)).intlk = true ∧ (t.leg (legAt g m)).en = false)
            ∧ (∀ m : Fin 16, (t.leg (legAt g m)).en = true → s.enPermitted g)
            ∧ (∀ m : Fin 16, s.enPermitted g → (s.leg (legAt g m)).intlk = false → (s.leg (legAt g m)).intlkHold = false →
                v.getLsbD (2 * m.val) = false → v.getLsbD (2 * m.val + 1) = true → (s.leg (legAt g m)).tripped = false →
                  (t.leg (legAt g m)).en = true)
            ∧ (∀ l, groupOfLeg l ≠ g → t.leg l = s.leg l) ∧ (∀ k, k ≠ g → t.grp k = s.grp k)
            ∧ t.axes = s.axes ∧ t.tb = s.tb ∧ t.q = s.q ∧ t.nvm = s.nvm ∧ t.mp = s.mp))

/-- A read frame drives the status word and the words asked for, one after another and bit 7 first on the lanes of its width, and
changes only what its status reports once; here of words outside the pairs (R268, R269, R273, R278). A frame that ends with its
status, whatever its operation, moves no packet and no entry, and changes nothing more but the completion request (R275). A write
frame commits its whole words in order, each by the rules of its register at its own tick, after the status has been latched (R273,
R279). A frame with the reserved lane code, or one that ends in its header, is a frame error and changes nothing else (R272, R286);
a command byte with the OP of another row is none of a row's. -/
def Obligations.RegisterFramesReadAndWrite : Prop :=
  (∀ (s : State) (f : HostFrame), s.portUp = true → f.lanes ≠ 3 → 8 ≤ f.edges →
        (∀ k : Nat, f.op = .read → dataBits f s.hp.ta.toNat 1 = 32 * k → frameHead f s.hp.ta.toNat 1 ≤ f.edges →
          f.addr.toNat + k ≤ 256 → (∀ i < k, pairLo f.pq.toNat (f.addr.toNat + i) = none) → s.nvm.lc ≠ .retired →
            let data := (List.range k).flatMap fun i =>
              wordBytes ((s.latchStatus .read f).readWord .host f.pq.toNat (f.addr.toNat + i))
            exec (.registerReadFrame f) s = .next { s with hp := { s.hp with
              statusOut := some (s.statusWord .read f), frameErr := false, pushRej := false, regErr := 0, dataOut := data
              lanesOut := lanesOut f (leBytes 2 (s.statusWord .read f).toNat ++ data) } })
        ∧ (f.edges = frameHead f s.hp.ta.toNat 1 →
            (f.op = .write → exec (.registerWrite f) s = .next (s.latchStatus .write f))
            ∧ (f.op = .push → exec (.packetPush f) s = .next (s.latchStatus .push f))
            ∧ (f.op = .pull → exec (.completionPull f) s = .next { s.latchStatus .pull f with q := s.q.request })))
  ∧ (∀ (s : State) (f : HostFrame), s.portUp = true →
        (∀ k : Nat, f.op = .write → f.lanes ≠ 3 → 8 ≤ f.edges → dataBits f s.hp.ta.toNat 2 = 32 * k →
          exec (.registerWrite f) s = .next ((List.range k).foldl
            (fun u i => u.regWrite .host f.pq.toNat (f.addr.toNat + i) (wordAt (frameData f s.hp.ta.toNat) (4 * i)) (f.ticks.getD i 0))
            (s.latchStatus .write f)))
        ∧ ∀ (c : Instr) (o : FrameOp), (c, o) ∈ [(Instr.registerReadFrame f, FrameOp.read), (.registerWrite f, .write),
              (.packetPush f, .push), (.completionPull f, .pull)] →
            (f.op ≠ o → exec c s = .next s)
            ∧ ∀ code : BitVec 4, f.op = o →
              (f.lanes = 3 ∧ 2 ≤ f.edges ∧ code = 1) ∨ (f.lanes ≠ 3 ∧ 1 ≤ f.edges ∧ f.edges < 8 ∧ code = 2) →
                exec c s = .next { s with hp := { s.hp with
                  statusOut := none, lanesOut := [], dataOut := [], frameErr := true, pushRej := false, frameErrS := true, fcause := code } })

/-- A push of one whole packet that passes the checks of R292 puts it last in the rings with its tag live, and where a core is free
or the queue is not Q0 changes nothing else; one that fails is discarded with PUSH_REJ and its code, queue and tag (R282, R288,
R292, R294). What passes, and nothing else, has a live-table entry to spare, a slot count of 1 to 8 that its queue has room for, a
good PCRC and a fresh tag. A pull of whole entries returns them oldest first and takes them off the ring, their tags live no longer;
an entry that failed its check is sent as INTEGRITY_LOST from its tag's record (R284, R285, R294, R300, R412). The age timeout
raises the completion request while an entry waits (R305). -/
def Obligations.PacketsEnterAndEntriesLeave : Prop :=
  ((∀ (s : State) (f : HostFrame) (slots : Nat), s.portUp = true → f.op = .push → f.lanes ≠ 3 → 8 ≤ f.edges → f.addr = 0 →
        1 ≤ slots → slots ≤ 8 → dataBits f s.hp.ta.toNat 2 = 256 * slots → (byteAt (frameData f s.hp.ta.toNat) 5).toNat = slots →
          let s' := s.latchStatus .push f
          let data := frameData f s.hp.ta.toNat
          let n : QueueId := ⟨f.pq.toNat, f.pq.isLt⟩
          let tag := BitVec.ofNat 16 (uAt data 2 2)
          (s'.pushFault n data = none → (n ≠ 0 ∨ (s.dev.suspended = false ∧ (List.finRange 4).any s.coreFree = true)) →
            exec (.packetPush f) s = .next { s' with q := { s.q with
              packets := s.q.packets ++ [⟨data, n, s.q.nextSeq, none, none, false⟩], nextSeq := s.q.nextSeq + 1
              live := s.q.live ++ [(tag, f.pq, byteAt data 4)] } })
          ∧ ∀ c, s'.pushFault n data = some c → exec (.packetPush f) s = .next { s' with hp := { s'.hp with
              pushRej := true, pushRejS := true, pushCode := BitVec.ofNat 3 c, pushQueue := f.pq, pushTag := tag } })
      ∧ ∀ (s : State) (n : QueueId) (b : List Byte), s.pushFault n b = none ↔ s.dev.ready = true
          ∧ 1 ≤ (byteAt b 5).toNat ∧ (byteAt b 5).toNat ≤ 8 ∧ pcrcOk (b.take (32 * (byteAt b 5).toNat)) = true
          ∧ (byteAt b 5).toNat ≤ s.freeSlots n ∧ BitVec.ofNat 16 (uAt b 2 2) ≠ 0
          ∧ (∀ t ∈ s.q.live, t.1 ≠ BitVec.ofNat 16 (uAt b 2 2)) ∧ s.q.live.length < 512)
  ∧ ((∀ (s : State) (f : HostFrame) (k : Nat), s.portUp = true → s.dev.ready = true → f.op = .pull → f.lanes ≠ 3 → 8 ≤ f.edges → f.pq = 0 →
        frameHead f s.hp.ta.toNat 1 ≤ f.edges → dataBits f s.hp.ta.toNat 1 = 128 * k → k ≤ s.q.ring.length →
        (f.addr = 0 → k ≤ 64) → (f.addr ≠ 0 → k ≤ f.addr.toNat) →
          let data := (s.q.ring.take k).flatMap fun c => (s.sentEntry c).bytes
          exec (.completionPull f) s = .next { s.latchStatus .pull f with
            hp := { (s.latchStatus .pull f).hp with
              dataOut := data, lanesOut := (s.latchStatus .pull f).hp.lanesOut ++ lanesOut f data }
            q := ({ s.q with ring := s.q.ring.drop k
                             live := s.q.live.filter fun t => !((s.q.ring.take k).map (·.tag)).contains t.1 } : Queues).request })
      ∧ (∀ (s : State) (c : Completion), c.bad = false → s.sentEntry c = c)
      ∧ ∀ s : State, exec .hirqAgeTimeout s =
          .next (if s.q.tmo ≠ 0 ∧ s.q.ring ≠ [] then { s with q := { s.q with cplReq := true } } else s))

/-- A free core takes the oldest packet of Q0 that may be taken; without one it takes that of the current queue while credit is
left, spending one; the packet keeps its ring until it starts, with the verdict of its checks where they find fault (R293, R295,
R297). While dispatch is suspended, and in SAFE_HOLD, nothing is taken (R390, R418); here no side-band command waits before it. -/
def Obligations.CoresTakePacketsInTurn : Prop :=
  ∀ (s : State) (c : CoreId), s.dev.stage = .running →
    (s.dev.suspended = true ∨ s.dev.safeHold = true → exec (.arbiterDispatch c) s = .next s)
    ∧ (s.dev.suspended = false → s.dev.safeHold = false → s.sb.waiting = [] → (∀ p ∈ s.q.packets, p.verdict = none) → s.coreFree c = true →
      ∀ p : Packet, s.asyncCheck p = none →
        let taken := s.q.packets.map fun o => if o.seq = p.seq then { o with core := some c, verdict := none } else o
        (s.candidate 0 = some p → exec (.arbiterDispatch c) s = .next { s with q := { s.q with packets := taken } })
        ∧ (s.candidate 0 = none → s.candidate s.q.p = some p → 0 < s.q.cr →
            exec (.arbiterDispatch c) s = .next { s with q := { s.q with packets := taken, cr := s.q.cr - 1 } })
        ∧ (s.candidate 0 = none → (s.candidate s.q.p = none ∨ s.q.cr = 0) → s.candidate (nextQueue s.q.p) = some p →
            0 < s.q.weight[(nextQueue s.q.p).val].toNat →
            exec (.arbiterDispatch c) s = .next { s with q := { s.q with
              packets := taken, p := nextQueue s.q.p, cr := s.q.weight[(nextQueue s.q.p).val].toNat - 1 } }))
    ∧ (s.dev.suspended = false → s.dev.safeHold = false → s.sb.waiting = [] → ∀ (p : Packet) (st : Status) (w : Word), s.q.packets = [p] → p.core = none → p.queue = 0 →
        s.asyncCheck p = some (st, w) → exec (.arbiterDispatch c) s = .next (s.answered p st p.axis w))

/-! ### Frames, segments and masters -/

/-- A boundary of a running clock counts the frame, advances the time by the frame's length and its slew, takes every master's
snapshot with M7 at its rate, brings the time-base settings into force, and latches the group readings and pins; without a clock, or
before the module runs, nothing happens (R52, R56, R58, R59, R65). MISSED_COMMIT uncommits the pairs of a group that Mica plans and
counts them up to 0xFFFF; a host-driven group counts none (R60, R177, R193). -/
def Obligations.BoundariesAdvanceTimeAndSnapshots : Prop :=
  (∀ (s : State) (inp : FrameInputs), s.framing = false → exec (.frameBoundary inp) s = .next s)
  ∧ (∀ (s : State) (inp : FrameInputs), s.framing = true → ∃ t, exec (.frameBoundary inp) s = .next t
      ∧ t.tb.frame = s.tb.frame + 1 ∧ t.tb.count = s.tb.count + 1 ∧ t.tb.tick = ((s.tb.tick : Int) + s.len + s.slewNow).toNat
      ∧ t.tb.m7 = s.tb.m7 ∧ t.tb.flenEff = s.tb.flenEff ∧ t.tb.roleEff = s.tb.role ∧ t.tb.tbCfgEff = s.tb.tbCfg
      ∧ t.tb.cprEff = s.tb.cpr ∧ t.tb.tsepEff = s.tb.tsep ∧ t.tb.preset = Vector.replicate 8 none
      ∧ t.tb.snap[7] = s.tb.m7.vbase + s.tb.m7.rate * ((s.len : Int) * (((s.tb.frame + 1).toNat : Int) - s.tb.m7.fbase)) / 1250000
      ∧ (∀ i : Fin 5, s.tb.preset[i.val] = none → t.tb.edge[i.val] = { s.tb.edge[i.val] with
            still := s.tb.edge[i.val].still && decide (t.tstillTicks ≤ t.tb.tick / 2 - s.tb.edge[i.val].tLast) }
          ∧ t.tb.snap[i.val] = s.tb.edge[i.val].posAt t.tstillTicks (t.tb.tick / 2))
      ∧ (∀ g : GroupId, (t.grp g).temp = inp.temp[g.val] ∧ (t.grp g).vm = inp.vm[g.val] ∧ (t.grp g).octEff = (s.grp g).oct
          ∧ (t.grp g).dtEff = (s.grp g).dt ∧ (t.grp g).trnEff = (s.grp g).trn)
      ∧ (∀ p : PinId, (t.pin p).snap = (s.pin p).raw) ∧ t.pending = s.pending ∧ t.nvm.lc = s.nvm.lc ∧ t.nvm.fuses = s.nvm.fuses
      ∧ t.hp = s.hp)
  ∧ ∀ (s : State) (g : GroupId), ((s.grp g).hostDriven = true → exec (.missedCommit g) s = .next s)
      ∧ ((s.grp g).hostDriven = false → ∃ t, exec (.missedCommit g) s = .next t ∧ t = { s with legs := t.legs }
        ∧ (∀ m, groupOfLeg m = g → t.leg m = { s.leg m with
            committed := false, miss := if (s.leg m).miss = 0xFFFF then 0xFFFF else (s.leg m).miss + 1 })
        ∧ ∀ m, groupOfLeg m ≠ g → t.leg m = s.leg m)

/-- The head of the queue of an enabled axis at rest, seen by a snapshot and with no START or BATCH to wait for, starts at the
snapshot's whole m_prog from the present position by the plan of its type; a HOME away from its switch starts its FAST leg by a
VELOCITY plan; every other axis stays as it was (R34, R74 to R76, R86, R126). -/
def Obligations.SegmentsStartAtTheSnapshot : Prop :=
  ∀ (s : State) (n : AxisId) (g : Segment) (rest : List Segment), (s.ax n).mot.queue = g :: rest → g.seen = true → g.start = none →
    g.batch = 0 → g.flags.headDelayed = false → (s.ax n).drv.enabled = true → (s.ax n).drv.enabling = false →
    (s.ax n).drv.disabling = false → (s.ax n).mot.stop = none → (s.ax n).mot.jog = none → (s.ax n).mot.held = none →
    (s.ax n).mot.runs = [] → (s.ax n).mot.lastEnd = none →
      let a := (s.ax n).mot
      let pl := planSeg g.kind a.pos 0
      let ms := a.mProg / 65536
      (g.kind.homeOps = none → g.kind.limited = false ∨ s.limitOn n (segDir g.kind a.pos) = false → admitPlan g.kind pl = true →
        ∃ (t : State) (r : Run), exec (.segmentStart n) s = .next t ∧ s.onlyMoved t n ∧ t.q = s.q ∧ t.sb = s.sb
          ∧ sameQueue (t.ax n).mot.queue rest ∧ (t.ax n).mot.runs = [r] ∧ r.ps = a.pos ∧ r.vs = 0 ∧ r.phases = pl.phases
          ∧ r.target = pl.target ∧ r.unbounded = pl.unbounded ∧ r.seg.ref = g.ref ∧ r.seg.kind = g.kind ∧ r.decided = none
          ∧ r.onM7 = (match g.kind with
              | .hold _ true => true
              | _ => false)
          ∧ r.ms = (if r.onM7 then s.m7 / 65536 else ms) * 65536
          ∧ (t.ax n).mot.pos = (r.eval a.mProg s.m7).1 ∧ (t.ax n).mot.vel = (r.eval a.mProg s.m7).2)
      ∧ ∀ (h : HomeOps) (q : PinId), g.kind.homeOps = some h → s.homePin n = some q → (s.pin q).isOn = false →
          s.homeBlock n h.s = none →
          admitPlan (.velocity (h.s * h.vf) h.hacc h.hdec 0) (planVelocity a.pos 0 (h.s * h.vf) h.hacc h.hdec 0) = true →
            ∃ (t : State) (r : Run), exec (.segmentStart n) s = .next t ∧ s.onlyMoved t n ∧ t.q = s.q ∧ t.sb = s.sb
              ∧ (t.ax n).mot.queue = rest ∧ (t.ax n).mot.runs = [r] ∧ r.home = .fast ∧ r.ms = ms * 65536 ∧ r.ps = a.pos
              ∧ r.phases = (planVelocity a.pos 0 (h.s * h.vf) h.hacc h.hdec 0).phases ∧ r.unbounded = true
              ∧ r.timeoutAt = if h.timeout = 0 then none else some (BitVec.ofInt 32 (ms + h.timeout))

/-- A running segment whose plan is used up ends at its end position E with status OK and MPOS E, or m_prog for a VELOCITY; a stop
that is used up ends what it stops with STOPPED. The axis is then at rest where the plan ends (R77, R96, R302, R322, R323). -/
def Obligations.SegmentsEndWithTheirCompletion : Prop :=
  ∀ (s : State) (n : AxisId) (r : Run) (tag : BitVec 16) (q : BitVec 4), (s.ax n).mot.runs = [r] → (s.ax n).mot.jog = none →
    (s.ax n).mot.held = none → r.onM7 = false → r.seg.ref = .host tag q → r.seg.batch = 0 → r.seg.overlap = false →
    r.seg.flags.headDelayed = false → s.q.batches = [] →
      let a := (s.ax n).mot
      (∀ e : Int, a.stop = none → r.decided = none → r.over a.mProg s.m7 = true → e = r.ms / 65536 + totalLen r.phases →
        ∃ t, exec (.segmentEnd n) s = .next t ∧ s.onlyMoved t n ∧ t.sb = s.sb ∧ (t.ax n).mot.runs = []
          ∧ (t.ax n).mot.queue = a.queue ∧ (t.ax n).mot.pos = r.target.getD (endPos r.ps r.phases) ∧ (t.ax n).mot.vel = 0
          ∧ t.q = s.entered [⟨tag, .ok, segFlagByte r.seg.flags a.unsure, axByte n, q, r.seg.kind.endMpos e a.mProg, outWord a.out, false⟩])
      ∧ ∀ (st : StopMotion) (e : Int), a.stop = some st → st.onM7 = false → r.decided.getD (.stopped, none) = (.stopped, none) →
          (totalLen st.phases : Int) * 65536 ≤ a.mProg - st.ms → e = st.ms / 65536 + totalLen st.phases → s.q.actions = [] →
            ∃ t, exec (.segmentEnd n) s = .next t ∧ s.onlyMoved t n ∧ t.sb = s.sb ∧ (t.ax n).mot.runs = [] ∧ (t.ax n).mot.stop = none
              ∧ (t.ax n).mot.queue = a.queue ∧ (t.ax n).mot.pos = endPos st.ps st.phases ∧ (t.ax n).mot.vel = 0
              ∧ t.q = s.entered [⟨tag, .stopped,
                  segFlagByte { r.seg.flags with accelClamped := r.seg.flags.accelClamped || st.clamped } a.unsure, axByte n, q,
                  r.seg.kind.endMpos e a.mProg, outWord a.out, false⟩]

/-- A cruise that has lasted 2^30 mc goes on from a new start point there; one that has not is left (R93). A queued segment whose
deadline is due ends TIMEOUT, and a running one is stopped with TIMEOUT decided (R63, R99). A HOME whose timeout is due before its
SLOW edge is stopped with TIMEOUT decided (R131). -/
def Obligations.ReanchoringDeadlinesAndTimeouts : Prop :=
  (∀ (s : State) (n : AxisId) (r : Run) (ph : Phase), (s.ax n).mot.stop = none → (s.ax n).mot.held = none →
    (s.ax n).mot.jog = none → (s.ax n).mot.runs = [r] → r.phases.getLast? = some ph → r.unbounded = true →
      let at0 := r.ms + ((totalLen r.phases : Int) - ph.len) * 65536
      let p := phaseP ph (2 ^ 30 * 65536)
      ((r.at (s.ax n).mot.mProg s.m7 - at0 < 2 ^ 30 * 65536) → ∃ t, exec (.velocityReanchor n) s = .next t ∧ s.onlyMoved t n
          ∧ t.q = s.q ∧ t.sb = s.sb ∧ (t.ax n).mot.runs = [r])
      ∧ (2 ^ 30 * 65536 ≤ r.at (s.ax n).mot.mProg s.m7 - at0 →
          admitPlan r.seg.kind ⟨[{ ph with p0 := p, len := 2 ^ 30 }], none, false, true⟩ = true →
          ∃ t, exec (.velocityReanchor n) s = .next t ∧ s.onlyMoved t n ∧ t.q = s.q ∧ t.sb = s.sb ∧ (t.ax n).mot.runs =
            [{ r with ms := at0 + 2 ^ 30 * 65536, ps := p, vs := ph.v0, phases := [{ ph with p0 := p, len := 2 ^ 30 }] }]))
  ∧ (∀ (s : State) (n : AxisId) (refs : Segment → BitVec 16 × BitVec 4), (s.ax n).mot.held = none → (s.ax n).mot.stop = none →
      (s.ax n).mot.runs = [] → s.q.batches = [] → (∀ g ∈ (s.ax n).mot.queue, g.ref = .host (refs g).1 (refs g).2
          ∧ g.flags.headDelayed = false) →
        let due := fun (g : Segment) => (g.deadline.map (reached32 (s.ax n).mot.mProg)) = some true
        ∃ t, exec (.deadline n) s = .next t ∧ s.onlyMoved t n ∧ t.sb = s.sb
          ∧ (t.ax n).mot.queue = (s.ax n).mot.queue.filter (fun g => !due g)
          ∧ t.q = s.entered (((s.ax n).mot.queue.filter fun g => due g).map fun g =>
              { s.segEntry n g (refs g).1 (refs g).2 .timeout with word := 0 }))
  ∧ (∀ (s : State) (n : AxisId) (r : Run) (d : BitVec 32), (s.ax n).mot.held = none → (s.ax n).mot.stop = none →
      (s.ax n).mot.jog = none → (s.ax n).mot.runs = [r] → (s.ax n).mot.queue = [] → r.decided = none →
      r.seg.deadline = some d → reached32 (s.ax n).mot.mProg d = true → r.over (s.ax n).mot.mProg s.m7 = false →
      (∀ w timed, r.seg.kind ≠ .hold w timed) →
        ∃ t, exec (.deadline n) s = .next t ∧ s.onlyMoved t n ∧ t.q = s.q ∧ t.sb = s.sb
          ∧ (t.ax n).mot.runs = [(s.ax n).mot.stopped s.m7 r (.timeout, some 0)] ∧ (t.ax n).mot.stop.isSome = true)
  ∧ ∀ (s : State) (n : AxisId) (r : Run) (d : BitVec 32), (s.ax n).mot.held = none → (s.ax n).mot.stop = none →
      (s.ax n).mot.jog = none → (s.ax n).mot.runs = [r] → (r.seg.kind.homeOps).isSome = true → r.home ≠ .notHome →
      r.home ≠ .slowStop → r.decided = none → r.timeoutAt = some d → reached32 (s.ax n).mot.mProg d = true →
        ∃ t, exec (.homeTimeout n) s = .next t ∧ s.onlyMoved t n ∧ t.q = s.q ∧ t.sb = s.sb
          ∧ (t.ax n).mot.runs = [(s.ax n).mot.stopped s.m7 r (.timeout, some 0)] ∧ (t.ax n).mot.stop.isSome = true

/-- An edge of STPi or a valid step of the quadrature inputs counts its master by one in its direction, measures the interval when
the direction and the standstill time allow it, and ends a standstill; two inputs at once count nothing and are an error.
MASTER_STANDSTILL marks a master without an edge for TSTILL (R35, R42, R44, R47). An MSZ edge captures the position of M0; a rising
one records the count, and sets INDEX_ERR where the distance from the one before is no multiple of CPR (R43, R55). -/
def Obligations.EdgesCountTheirMaster : Prop :=
  (∀ (s : State) (t : Nat),
        let counted := fun (fwd : Bool) (e : EdgeMaster) =>
          let ok : Bool := e.edged && fwd = e.fwd && t - e.tLast ≤ s.tstillTicks
          ({ c := wrapS 48 (e.c + if fwd then 1 else -1), tLast := t, fwd := fwd, d := if ok then min (t - e.tLast) 0xFFFFFFFF else e.d
             dvalid := ok, still := false, edged := true } : EdgeMaster)
        (∀ (i : Fin 4) (dir : Bool), exec (.stpEdge i dir t) s = .next { s with
            tb := { s.tb with edge := upd s.tb.edge ⟨i.val + 1, by omega⟩ (counted (dir != s.dirInv ⟨i.val + 1, by omega⟩)) } })
        ∧ (∀ a b : Bool, (a ≠ s.tb.msa) ≠ (b ≠ s.tb.msb) → exec (.m0EncoderEdge a b t) s = .next { s with
            tb := { s.tb with msa := a, msb := b
                              edge := upd s.tb.edge 0 (counted ((decide (a ≠ s.tb.msa) == decide (a ≠ b)) != s.dirInv 0)) } })
        ∧ exec (.m0EncoderEdge s.tb.msa s.tb.msb t) s = .next s
        ∧ (∃ u, exec (.m0EncoderEdge (!s.tb.msa) (!s.tb.msb) t) s = .next u ∧ u = { s.flagged u 1 with
            tb := { s.tb with msa := !s.tb.msa, msb := !s.tb.msb, quadFrame := u.tb.quadFrame
                              edge := upd s.tb.edge 0 fun e => { e with dvalid := false, edged := false } } })
        ∧ ∀ m : Fin 5, exec (.masterStandstill m t) s = .next (if s.tstillTicks ≤ t - s.tb.edge[m.val].tLast then
            { s with tb := { s.tb with edge := upd s.tb.edge m fun e => { e with still := true } } } else s))
  ∧ (∀ (s : State) (t : Nat),
        let taken := s.tb.captures.filter (fun c => c.1 ≠ 96) ++ [(96, t, if 2 * t < s.tb.tick then s.tb.frame.toNat else (s.tb.frame + 1).toNat, s.masterAt 0 t)]
        exec (.mszIndexEdge false t) s = .next { s with tb := { s.tb with captures := taken } }
        ∧ (s.tb.cprEff = 0 → exec (.mszIndexEdge true t) s = .next { s with tb := { s.tb with captures := taken } })
        ∧ (s.tb.cprEff ≠ 0 → (∀ p, s.tb.index = some p → wrapS 48 (s.tb.edge[0].c - p) % (s.tb.cprEff.toNat : Int) = 0) →
            exec (.mszIndexEdge true t) s = .next { s with tb := { s.tb with captures := taken, index := some s.tb.edge[0].c } })
        ∧ ∀ p, s.tb.cprEff ≠ 0 → s.tb.index = some p → wrapS 48 (s.tb.edge[0].c - p) % (s.tb.cprEff.toNat : Int) ≠ 0 →
            ∃ u, exec (.mszIndexEdge true t) s = .next u ∧ u = { s.flagged u 2 with
              tb := { s.tb with captures := taken, index := some s.tb.edge[0].c } })

/-- A pending rate that is due takes effect with the position of its master at the boundary unchanged; a new frame length takes
effect with the positions of M5 to M7 unchanged and every pair, carry and ring of the old length cleared. Where nothing is pending
nothing happens (R53, R57, R178, R214). -/
def Obligations.RateAndLengthChangesKeepPositions : Prop :=
  ∀ (s : State),
    (∀ v : Fin 2, (s.rateDue v = false → exec (.rateEpochApply v) s = .next s)
      ∧ (s.rateDue v = true → ∃ t, exec (.rateEpochApply v) s = .next t ∧ t = { s with tb := { s.tb with virt := t.tb.virt } }
        ∧ t.tb.virt[v.val].rate = s.tb.virt[v.val].reg.toInt ∧ t.tb.virt[v.val].pend = false
        ∧ t.tb.virt[v.val].reg = s.tb.virt[v.val].reg
        ∧ t.tb.virt[v.val].posAt s.len s.frameNat 0 = s.tb.virt[v.val].posAt s.len s.frameNat 0
        ∧ ∀ k : Fin 2, k ≠ v → t.tb.virt[k.val] = s.tb.virt[k.val]))
    ∧ (s.tb.flen = s.tb.flenEff → exec .flenApply s = .next s)
    ∧ (s.tb.flen ≠ s.tb.flenEff → ∃ t, exec .flenApply s = .next t ∧ t.tb.flenEff = s.tb.flen ∧ t.tb.frame = s.tb.frame
        ∧ (∀ k : Fin 2, t.tb.virt[k.val].posAt t.len t.frameNat 0 = s.tb.virt[k.val].posAt s.len s.frameNat 0
            ∧ t.tb.virt[k.val].rate = s.tb.virt[k.val].rate)
        ∧ t.tb.m7.posAt t.len t.frameNat 0 = s.tb.m7.posAt s.len s.frameNat 0 ∧ t.tb.m7.rate = s.tb.m7.rate
        ∧ (∀ m, (t.leg m).on = 0 ∧ (t.leg m).off = 0 ∧ (t.leg m).committed = false ∧ (t.leg m).carry = 0 ∧ (t.leg m).tail = 0
            ∧ (t.leg m).en = (s.leg m).en ∧ (t.leg m).os = (s.leg m).os ∧ (t.leg m).gs = (s.leg m).gs)
        ∧ (∀ a, (t.adc a).zero = [] ∧ (t.adc a).plus = [] ∧ (t.adc a).neg = [] ∧ (t.adc a).oa = (s.adc a).oa
            ∧ (t.adc a).ga = (s.adc a).ga)
        ∧ t.axes = s.axes ∧ t.groups = s.groups ∧ t.q = s.q ∧ t.nvm = s.nvm ∧ t.dev = s.dev)

/-- A time master pulls TSYNC at every 256th frame. A follower takes the phase error of a falling edge against its nearest boundary:
with no axis enabled it moves its boundary onto the pulse and makes the frame number a multiple of 256 there, else it slews; four
edges within the window lock it. SYNC_LOST and SYNC_CONFLICT flag what their roles see (R64 to R67). In any other role nothing
happens. -/
def Obligations.FollowersAlignToTheTimeMaster : Prop :=
  ∀ (s : State),
    exec .tsyncPulse s = .next (if s.tb.roleEff = 1 ∧ s.tb.frame.toNat % 256 = 0
      then { s with tb := { s.tb with tsyncLow := true } } else s)
    ∧ (∀ tick : Nat, s.tb.roleEff ≠ 2 → exec (.tsyncEdge tick) s = .next s)
    ∧ (∀ tick : Nat, s.tb.roleEff = 2 → ∃ (t : State) (e : Int), exec (.tsyncEdge tick) s = .next t
        ∧ t = { s with tb := { s.tb with
            pherr := limitMag 127 e, sincePulse := 0, lockRun := if |e| ≤ 16 then min 4 (s.tb.lockRun + 1) else 0
            syncLock := s.tb.syncLock || t.tb.lockRun = 4, pulseNow := 0 ≤ e, pulseNext := e < 0, slew := t.tb.slew
            tick := t.tb.tick, frame := t.tb.frame } }
        ∧ ((tick : Int) - s.tb.trim.toNat - s.tb.tick - e) % (s.len : Int) = 0 ∧ 2 * |e| ≤ (s.len : Int)
        ∧ (s.anyEnabled = true → t.tb.slew = e ∧ t.tb.tick = s.tb.tick ∧ t.tb.frame = s.tb.frame)
        ∧ (s.anyEnabled = false → t.tb.slew = 0 ∧ t.tb.tick = ((s.tb.tick : Int) + e).toNat
            ∧ (0 ≤ e → t.tb.frame.toNat % 256 = 0) ∧ (e < 0 → (t.tb.frame + 1).toNat % 256 = 0)
            ∧ t.tb.frame.toNat / 256 = s.tb.frame.toNat / 256))
    ∧ ((s.tb.roleEff = 2 ∧ (768 ≤ s.tb.sincePulse ∨ 64 < |s.tb.pherr|)) → ∃ t, exec .syncLost s = .next t
        ∧ t = { s.flagged t 3 with tb := { s.tb with syncLock := false, lockRun := 0 } })
    ∧ (¬(s.tb.roleEff = 2 ∧ (768 ≤ s.tb.sincePulse ∨ 64 < |s.tb.pherr|)) → exec .syncLost s = .next s)
    ∧ (s.tb.roleEff = 1 → ∃ t, exec .syncConflict s = .next t ∧ t = s.flagged t 4)
    ∧ (s.tb.roleEff ≠ 1 → exec .syncConflict s = .next s)

/-! ### Pins, axes, the observer and protection -/

/-- AXIO_TRANSITION takes a new raw level with its times; AXIO_QUALIFY does nothing before DEB, drops a change that went back, and
lets a change that lasted qualify: a capture is taken and an encoder counts at once (quadrature up when A leads B, the choice of
notes/assumptions/28.md), any other change waits for step 3 of the next boundary (R115 to R117, R55). CHATTER_END ends the condition
after 200 ms (R118), LOCAL_RETURN gives an axis back to HOST (R133), and the overload of an output turns it off, flags it and is
retried (R110). -/
def Obligations.PinsQualifyAndReact : Prop :=
  ∀ (s : State) (i : PinId) (t : Nat),
    let p := s.pin i
    let w : Fin 3 := ⟨i.val / 32, by omega⟩
    exec (.axioTransition i p.raw t) s = .next s
    ∧ (isOutput p.func = false → exec (.axioTransition i (!p.raw) t) s = .next { s with
        pins := upd s.pins i fun p => { p with
          raw := !p.raw, tLast := t, tFirst := if p.raw = p.qual ∧ p.tFirst = none then some t else p.tFirst
          posFirst := if p.raw = p.qual ∧ p.tFirst = none
            then ((p.axis?.map fun n => s.masterAt (s.ax n).mot.master t).getD 0) else p.posFirst } })
    ∧ (isOutput p.func = true → exec (.axioTransition i (!p.raw) t) s = .next { s with
        pins := upd s.pins i fun p => { p with raw := !p.raw, tLast := t } })
    ∧ (p.tFirst = none ∨ t - p.tLast < entryDeb p.entry * 160000 ∨ isOutput p.func = true → exec (.axioQualify i t) s = .next s)
    ∧ (∀ t0, p.tFirst = some t0 → entryDeb p.entry * 160000 ≤ t - p.tLast → isOutput p.func = false →
      (p.raw = p.qual → exec (.axioQualify i t) s = .next { s with pins := upd s.pins i fun p => { p with tFirst := none } })
      ∧ (p.raw ≠ p.qual →
        let qual := fun (p : Pin) => { p with qual := p.raw, tFirst := none, edges := (t :: p.edges).take 9 }
        (isEncoder p.func = false → p.func ≠ 12 → exec (.axioQualify i t) s = .next { s with
            pins := upd s.pins i qual
            dev := { s.dev with step3 := insertStep (8 * t0 + if p.func = 11 then 3 else 4) (.edge i p.raw p.posFirst (chatters (qual p).edges)) s.dev.step3 } })
        ∧ (p.func = 12 → chatters (qual p).edges = false → exec (.axioQualify i t) s = .next { s with
            pins := upd s.pins i fun p => { qual p with acted := p.raw }
            tb := { s.tb with captures := (s.tb.captures.filter fun c => c.1 ≠ i.val) ++ [(i.val, t0,
              if 2 * t < s.tb.tick then s.tb.frame.toNat else (s.tb.frame + 1).toNat, p.posFirst)] } })
        ∧ ∀ n, p.axis? = some n → p.func = 1 → chatters (qual p).edges = false →
            (s.ax n).enc.a ≠ (p.raw != entryInv p.entry) → exec (.axioQualify i t) s = .next { s with
              pins := upd s.pins i fun p => { qual p with acted := p.raw }
              axes := upd s.axes n fun x => { x with enc := { x.enc with
                a := !x.enc.a, count := wrapS 48 (x.enc.count + if x.enc.a = x.enc.b then 1 else -1) } } }))
    ∧ (p.chatter = false ∨ t - p.edges.headD 0 < 200 * 160000 → exec (.chatterEnd i t) s = .next s)
    ∧ (p.chatter = true → 200 * 160000 ≤ t - p.edges.headD 0 →
        (p.func ≠ 9 → p.func ≠ 10 → p.func ≠ 11 → exec (.chatterEnd i t) s = .next { s with
          pins := upd s.pins i fun p => { p with chatter := false, edges := [] } })
        ∧ ∃ u, exec (.chatterEnd i t) s = .next u ∧ u.pins = upd s.pins i fun p => { p with chatter := false, edges := [] })
    ∧ (∀ n : AxisId, exec (.localReturn n) s = .next
        (if (s.ax n).prot.owner = .localJog ∧ (s.ax n).mot.jog = none ∧ s.button n 1 = false ∧ s.button n (-1) = false then
          { s with axes := upd s.axes n fun x => { x with prot := { x.prot with owner := .host, ownChg := true } } } else s))
    ∧ exec (.axioOutputOverload i) s = .next { s with
        pins := upd s.pins i fun p => { p with overloaded := true, sink := false }
        dev := { s.dev with axioOvl := upd s.dev.axioOvl w (· ||| BitVec.ofNat 32 (2 ^ (i.val % 32))) } }
    ∧ (p.overloaded = false → exec (.axioOutputRetry i) s = .next s)
    ∧ (p.overloaded = true → exec (.axioOutputRetry i) s = .next { s with
        pins := upd s.pins i fun p => { p with overloaded := false, sink := isOutput p.func && (p.active != entryInv p.entry) } })

/-- The brake delay: after ENABLE the brake releases and a waiting ENABLE completes OK; in a DISABLE the legs go high-impedance at
the next boundary (R121, R325). Boost is disarmed when its time is used up (R148). An axis that has stood for TSTAND takes ghold as
its target, and one that is not energised has no current asked for (R143, R146, R147, R150). ENCODER_SETTLE: an encoder that stands
aligns EOFF so that penc is the position, and arms the check or closes the loop; the ENABLE that waited for it completes OK. Where
the loop does not close, an ENABLE ends with STALL and the axis off, and a retry counts one more try (R166, R234, R252, R325). -/
def Obligations.BrakesAmplitudesAndEncodersSettle : Prop :=
  (∀ (s : State) (n : AxisId),
        let d := (s.ax n).drv
        (d.brakeWait = false → exec (.brakeDelay n) s = .next s)
        ∧ (d.brakeWait = true → d.disabling = true → exec (.brakeDelay n) s = .next { s with
            axes := upd s.axes n fun x => { x with drv := { x.drv with offPend := true } } })
        ∧ (d.brakeWait = true → d.disabling = false → d.enabling = false → exec (.brakeDelay n) s = .next { s with
            axes := upd s.axes n fun x => { x with drv := { x.drv with brakeWait := false, brake := x.drv.energised } } })
        ∧ (∀ act tag q, d.brakeWait = true → d.disabling = false → d.enabling = true → (s.ax n).cfg.setpoint = false →
            (s.ax n).prot.retry = .none → s.SoleAction n act .enable tag q → exec (.brakeDelay n) s = .next { s with
              axes := upd s.axes n fun x => { x with drv := { x.drv with brakeWait := false, brake := x.drv.energised, enabling := false } }
              q := s.soleDone n tag q .ok 0 })
        ∧ (d.sel.armed = false ∨ d.sel.boostT < msTicks (s.ax n).cfg.tboost → exec (.boostExpiry n) s = .next s)
        ∧ (d.sel.armed = true → msTicks (s.ax n).cfg.tboost ≤ d.sel.boostT → exec (.boostExpiry n) s = .next { s with
            axes := upd s.axes n fun x => { x with drv := { x.drv with sel := { x.drv.sel with armed := false, noBoostT := 0 } } } })
        ∧ ∃ t, exec (.standstillTimeout n) s = .next t ∧ sameButAxis n s t ∧ (t.ax n).cfg = (s.ax n).cfg ∧ (t.ax n).prot = (s.ax n).prot
            ∧ (t.ax n).mot = { (s.ax n).mot with moving := s.movingNow n } ∧ (t.ax n).drv.enabled = d.enabled
            ∧ (d.energised = true → s.movingNow n = false → msTicks (s.ax n).cfg.tstand ≤ d.selPrev.idleT →
                (t.ax n).drv.sel.target = d.ghold)
            ∧ (d.energised = false → (t.ax n).drv.ia = 0 ∧ (t.ax n).drv.ib = 0 ∧ (t.ax n).drv.sel.amp = 0))
  ∧ (∀ (s : State) (n : AxisId),
        let x := s.ax n
        (x.drv.energised = false → x.prot.retry ≠ .energise → ∀ b, exec (.encoderSettle n b) s = .next s)
        ∧ (x.drv.energised = true → x.enc.disarmed = false → x.cfg.setpoint = false → x.cfg.cprm ≠ 0 → x.enc.armed = false →
            s.hasEncoder n = true → exec (.encoderSettle n true) s = .next { s with axes := upd s.axes n fun x => { x with
              mot := { x.mot with eoff := x.mot.out - (x.penc - x.mot.eoff) }, enc := { x.enc with armed := true } } })
        ∧ (x.drv.energised = true → x.enc.fallback = true → x.cfg.setpoint = true → exec (.encoderSettle n true) s = .next s)
        ∧ (x.drv.energised = true → x.enc.fallback = false → x.cfg.setpoint = true → x.enc.closed = false →
            let closed := fun (x : Axis) => { x with
              mot := { x.mot with eoff := x.mot.pos - (x.penc - x.mot.eoff) }
              enc := { x.enc with closed := true, armed := !x.enc.disarmed, loop := {}, loopPrev := {} } }
            (x.drv.enabling = false ∨ x.prot.retry = .energise →
              exec (.encoderSettle n true) s = .next { s with axes := upd s.axes n closed })
            ∧ (∀ act tag q, x.drv.enabling = true → x.prot.retry ≠ .energise → s.SoleAction n act .enable tag q →
                exec (.encoderSettle n true) s = .next { s with
                  axes := upd s.axes n fun x => { closed x with drv := { x.drv with enabling := false } }
                  q := s.soleDone n tag q .ok 0 })
            ∧ (x.drv.enabling = true → x.prot.retry = .none → ∃ t, exec (.encoderSettle n false) s = .next t ∧ s.axisOff t n)
            ∧ (x.prot.retry = .energise → (s.grp (groupOf n)).trnEff.toNat < min 255 (x.prot.tries + 1) →
                ∃ t, exec (.encoderSettle n false) s = .next t ∧ s.axisOff t n ∧ (t.ax n).prot.latched = true
                  ∧ (t.ax n).prot.retry = .latch ∧ (t.ax n).prot.tries = min 255 (x.prot.tries + 1) ∧ (t.ax n).prot.cls = 5)
            ∧ (x.prot.retry = .energise → min 255 (x.prot.tries + 1) ≤ (s.grp (groupOf n)).trnEff.toNat →
                ∃ t, exec (.encoderSettle n false) s = .next t ∧ (t.ax n).prot.retry = .wait ∧ (t.ax n).drv.energised = false
                  ∧ (t.ax n).prot.tries = min 255 (x.prot.tries + 1) ∧ (t.ax n).prot.cls = 5)))

/-- A probe is recorded on a disabled axis with plug sense, and two equal new verdicts change its plug state with PLUG_CHG (R136,
R137). A coil found open in two frames, or two bridges that share unequally for 16, turn the axis off (R164, R259, R260); a coil
without usable samples for 16 frames is flagged (R155); encoder inputs that change together are an error (R169). What the turning
off of an axis ends, in its order: the running segment of your host with the status and word of the event, unless another was
decided, then the queued one FLUSHED, both with m_prog as MPOS (R78, R238, R302, R323). -/
def Obligations.AxesAreTurnedOffByTheirFaults : Prop :=
  (∀ (s : State) (n : AxisId),
        (∀ ra rb : Nat, let v := probeVerdict ra rb
          ((s.ax n).cfg.plugEn = false ∨ (s.ax n).drv.enabled = true ∨ (s.grp (groupOf n)).diag ≠ none →
            exec (.plugProbe n ra rb) s = .next s)
          ∧ ((s.ax n).cfg.plugEn = true → (s.ax n).drv.enabled = false → (s.grp (groupOf n)).diag = none →
            let cfg := fun (x : Axis) => if v = .plugged then { x.cfg with rcoil := (ra + rb) / 2 } else x.cfg
            let legs := s.legs.mapFinIdx fun m l h => if axisOfLeg ⟨m, h⟩ = n then { l with testTicks := 0 } else l
            ((s.ax n).prot.probe ≠ v → exec (.plugProbe n ra rb) s = .next { s with
              legs := legs
              axes := upd s.axes n fun x => { x with cfg := cfg x, prot := { x.prot with ra := ra, rb := rb, probe := v } } })
            ∧ ((s.ax n).prot.probe = v → (s.ax n).prot.plug ≠ v →
                (v = .plugged → ∀ p ∈ s.pinsOf n (· = 11), (s.pin p).isOn = true) →
                ∃ t, exec (.plugProbe n ra rb) s = .next t ∧ t = { s.logs t with
                  legs := legs
                  axes := upd s.axes n fun x => { x with
                    cfg := cfg x, prot := { x.prot with ra := ra, rb := rb, plug := v, plugChg := true } } })))
        ∧ (let a := 2 ≤ (s.coil (coilA n)).openRun
           let b := 2 ≤ (s.coil (coilB n)).openRun
           ((s.ax n).drv.enabled = false ∨ ¬(a ∨ b) → exec (.unplugDetect n) s = .next s)
           ∧ ((s.ax n).drv.enabled = true → a ∨ b → ∃ t, exec (.unplugDetect n) s = .next t ∧ s.axisOff t n
                ∧ (t.ax n).prot.plug = .unplugged ∧ (t.ax n).prot.plugChg = true ∧ (t.ax n).prot.latched = (s.ax n).prot.latched
                ∧ (t.ax n).mot.unsure = ((s.ax n).mot.unsure || !(s.ax n).cfg.setpoint)))
        ∧ (let due := s.ganged n = true ∧ s.isPartner n = false ∧ (16 ≤ (s.ax n).prot.shareA ∨ 16 ≤ (s.ax n).prot.shareB)
           (¬due → exec (.shareErr n) s = .next s)
           ∧ (due → ∃ t, exec (.shareErr n) s = .next t ∧ s.axisOff t n ∧ (t.ax n).prot.shareErr = true
                ∧ (t.ax n).prot.shareA = 0 ∧ (t.ax n).prot.shareB = 0))
        ∧ (∀ c : CoilId,
            ((s.coil c).lost < 16 ∨ (s.coil c).sampleLost = true → exec (.sampleLost c) s = .next s)
            ∧ (16 ≤ (s.coil c).lost → (s.coil c).sampleLost = false → ∃ t, exec (.sampleLost c) s = .next t
              ∧ t = { s.logs t with coils := upd s.coils c fun k => { k with sampleLost := true } }))
        ∧ (s.hasEncoder n = false → exec (.encErr n) s = .next s)
        ∧ (s.hasEncoder n = true → ∃ t, exec (.encErr n) s = .next t ∧ t = { s.logs t with axes := upd s.axes n fun x => { x with
            enc := { x.enc with err := true, armed := false, disarmed := true, fallback := x.cfg.setpoint }
            mot := { x.mot with unsure := true } } }))
  ∧ (∀ (s : State) (n : AxisId) (r : Run) (g : Segment) (st : Status) (w : Word) (tr tg : BitVec 16) (qr qg : BitVec 4),
        s.axisOff (s.turnOff n st w) n
        ∧ ((s.ax n).mot.runs = [r] → (s.ax n).mot.queue = [g] → r.seg.ref = .host tr qr → g.ref = .host tg qg → r.seg.batch = 0 →
            g.batch = 0 → s.q.batches = [] → s.q.actions = [] → r.seg.flags.headDelayed = false → g.flags.headDelayed = false →
            g.lost = false → (s.ax n).prot.ident = none →
              let e := s.segEntry n r.seg tr qr (r.decided.getD (st, none)).1
              (s.turnOff n st w).q = { s.entered [{ e with word := ((r.decided.getD (st, some w)).2).getD (outWord (s.ax n).mot.out) },
                    s.segEntry n g tg qg .flushed] with
                snapOps := s.q.snapOps.filter fun o => o ≠ .energise n }))

/-- DELAY_LINE_MEASURE in its frame: a valid measurement gives the next code table, whole where no leg of the group is enabled and
by at most 2 taps an entry otherwise, and the gain targets of the die temperature; an invalid one sets FINE_LOST and leaves the
table (R199 to R202, R210). FORCED_SLOT takes the chosen coil's instant, or the converter is starved (R215 to R217).
RCOIL_WINDOW_END: a full window with current enough moves RCOIL toward its target by at most 1/64, at least 1 mΩ, and clears
RES_SUSPECT; a target out of bounds sets RES_SUSPECT and leaves RCOIL (R218, R219). The end of an injection reference gives ym, dy
and INJ_WEAK (R229), and that of KE learning gives KE (R232). -/
def Obligations.CalibrationAndLearning : Prop :=
  ((∀ (s : State) (g : GroupId) (c : Vector Nat 16),
        (s.frameNat % 64 ≠ 5 * g.val % 64 → exec (.delayLineMeasure g c) s = .next s)
        ∧ (s.frameNat % 64 = 5 * g.val % 64 → (s.grp g).fineLost = false ∨ (s.grp g).fineGood < 3 → ∃ t, exec (.delayLineMeasure g c) s = .next t
            ∧ t = { s.logs t with groups := t.groups, legs := t.legs, adcs := t.adcs } ∧ (∀ k, k ≠ g → t.grp k = s.grp k)
            ∧ (∀ m, groupOfLeg m ≠ g → t.leg m = s.leg m)
            ∧ (∀ m, groupOfLeg m = g → (t.leg m).gs = (s.leg m).gs ∧ (t.leg m).en = (s.leg m).en ∧ (t.leg m).onS = (s.leg m).onS
                ∧ (t.leg m).gsTarget = some (clampI 12288 20480
                    (gsTargetAt (s.legTrim m).gs0 (s.legTrim m).k1 (s.legTrim m).k2 (s.grp g).temp.toInt)).toNat)
            ∧ (t.grp g).lastS = c.toList.sum ∧ (t.grp g).taps = (s.grp g).taps
            ∧ ((∀ x ∈ c.toList, 16 ≤ x ∧ x ≤ 95) → (t.grp g).fineLost = (s.grp g).fineLost ∧ t.dev = s.dev
                ∧ (t.grp g).fineGood = (if (s.grp g).fineLost = true then (s.grp g).fineGood + 1 else 0)
                ∧ ((∀ m, groupOfLeg m = g → (s.leg m).en = false) →
                    (t.grp g).tapsNext = some ((List.range 16).map fun f => (f * c.toList.sum + 128) / 256))
                ∧ ((∃ m, groupOfLeg m = g ∧ (s.leg m).en = true) → ∃ l, (t.grp g).tapsNext = some l
                    ∧ ∀ k a b : Nat, l[k]? = some a → (s.grp g).taps[k]? = some b → a ≤ b + 2 ∧ b ≤ a + 2))
            ∧ (¬(∀ x ∈ c.toList, 16 ≤ x ∧ x ≤ 95) → (t.grp g).fineLost = true ∧ (t.grp g).fineGood = 0
                ∧ (t.grp g).tapsNext = (s.grp g).tapsNext))
        ∧ (s.frameNat % 64 = 5 * g.val % 64 → (s.grp g).fineLost = true → 3 ≤ (s.grp g).fineGood →
            (∀ x ∈ c.toList, 16 ≤ x ∧ x ≤ 95) → ∃ t, exec (.delayLineMeasure g c) s = .next t ∧ (t.grp g).fineLost = false
              ∧ (t.grp g).fineGood = 0
              ∧ (t.grp g).tapsNext = some ((List.range 16).map fun f => (f * c.toList.sum + 128) / 256)))
      ∧ ∀ (s : State) (a : AdcId),
          let x := s.adc a
          let due := x.slotPlan = none ∧ x.forcedPlan = none ∧ 4096 < x.noSlot ∧ (s.grp (groupOfAdc a)).hostDriven = false
          (¬due → exec (.forcedSlot a) s = .next s)
          ∧ (due → latestEarlier (s.forcedCandidates a) = none → exec (.forcedSlot a) s = .next { s with
              adcs := upd s.adcs a fun x => { x with calStarved := true } })
          ∧ ∀ c : CoilId, due → latestEarlier (s.forcedCandidates a) = some c → ∃ t, exec (.forcedSlot a) s = .next t
              ∧ t = { s.logs t with adcs := t.adcs, axes := t.axes } ∧ (∀ k, k ≠ a → t.adc k = s.adc k)
              ∧ (t.adc a).forcedPlan = some c ∧ (t.adc a).noSlot = 0 ∧ (t.adc a).calForced = true ∧ (t.adc a).calStarved = false
              ∧ (t.adc a).oa = x.oa ∧ (t.adc a).ga = x.ga ∧ (∀ k, k ≠ axisOfCoil c → t.ax k = s.ax k)
              ∧ (∀ r ∈ (t.ax (axisOfCoil c)).mot.runs, r.seg.flags.calForced = true)
              ∧ (t.ax (axisOfCoil c)).cfg = (s.ax (axisOfCoil c)).cfg ∧ (t.ax (axisOfCoil c)).drv = (s.ax (axisOfCoil c)).drv)
  ∧ (∀ (s : State) (n : AxisId),
        let w := (s.ax n).prot.rwin
        let r := (s.ax n).cfg.rcoil
        let t0 := w.su * 256000 / (w.si : Int)
        let o := (s.ax n).obs
        (w.frames ≠ 256 → exec (.rcoilWindowEnd n) s = .next s)
        ∧ (w.frames = 256 → w.si < 256 * 25600 → exec (.rcoilWindowEnd n) s = .next { s with
            axes := upd s.axes n fun x => { x with prot := { x.prot with rwin := {} } } })
        ∧ (w.frames = 256 → 256 * 25600 ≤ w.si →
            (100 ≤ t0 ∧ t0 ≤ 100000 ∧ (r : Int) ≤ 2 * t0 ∧ t0 ≤ 2 * r → ∃ t, exec (.rcoilWindowEnd n) s = .next t
              ∧ t = { s with coils := t.coils
                             axes := upd s.axes n fun x => { x with
                               cfg := { x.cfg with rcoil := (r + limitMag (max 1 ((r / 64 : Nat) : Int)) (t0 - r)).toNat }
                               prot := { x.prot with rwin := {}, resSuspect := false } } }
              ∧ (∀ c, c ≠ coilA n → c ≠ coilB n → t.coil c = s.coil c)
              ∧ ∀ c, ∃ i : Int, t.coil c = { s.coil c with integ := i })
            ∧ (¬(100 ≤ t0 ∧ t0 ≤ 100000 ∧ (r : Int) ≤ 2 * t0 ∧ t0 ≤ 2 * r) → ∃ t, exec (.rcoilWindowEnd n) s = .next t
              ∧ t = { s.logs t with axes := upd s.axes n fun x => { x with prot := { x.prot with rwin := {}, resSuspect := true } } }))
        ∧ (o.refRun = false ∨ o.refLeft ≠ 0 → exec (.injectionReferenceEnd n) s = .next s)
        ∧ (o.refRun = true → o.refLeft = 0 →
            let ym := (o.refPar / 32 + o.refPerp / 32) / 2
            let dy := (o.refPar / 32 - o.refPerp / 32) / 2
            ∃ t, exec (.injectionReferenceEnd n) s = .next t ∧ t = { s.logs t with axes := upd s.axes n fun x => { x with
                obs := { x.obs with ym := ym, dy := dy, refDone := true, refRun := false, injWeak := decide (dy < ym / 16) } } }
              ∧ (¬dy < ym / 16 → t.dev = s.dev))
        ∧ (o.keLearning = false ∨ o.keCount ≠ 256 → exec (.keLearned n) s = .next s)
        ∧ (o.keLearning = true → o.keCount = 256 → o.keSumF ≠ 0 → exec (.keLearned n) s = .next { s with
            axes := upd s.axes n fun x => { x with
              cfg := { x.cfg with ke := min (2 ^ 24 - 1) (o.keSumE * 65536 / o.keSumF) }
              obs := { x.obs with keLearning := false, keSumE := 0, keSumF := 0, keCount := 0 } } }))

/-- STALL, once STALL_N consecutive frames met a criterion: it sets STALL and POSITION_UNSURE and captures where it was seen; REACT
0 does no more, REACT 1 decides STALL with the captured position as WORD and asks for a stop at the next snapshot, REACT 2 turns the
axis off (R235, R237 to R239). -/
def Obligations.StallsAreCapturedAndReactedTo : Prop :=
  ∀ (s : State) (n : AxisId),
    let o := (s.ax n).obs
    let due := (s.ax n).cfg.stallN.toNat ≤ o.stallRun ∧ 0 < o.stallRun ∧ o.stallDone = false
    (¬due → exec (.stall n) s = .next s)
    ∧ (due → ∃ t, exec (.stall n) s = .next t ∧ s.onlyAxis t n ∧ (t.ax n).cfg = (s.ax n).cfg
        ∧ (t.ax n).obs.stall = true ∧ (t.ax n).obs.stallDone = true ∧ (t.ax n).obs.capture.frame = s.tb.frame
        ∧ (t.ax n).obs.capture.pout = (s.ax n).mot.out ∧ (t.ax n).obs.capture.delta = o.delta
        ∧ (t.ax n).obs.capture.efMag = o.efMag ∧ (t.ax n).obs.capture.critA = o.critA ∧ (t.ax n).obs.capture.critB = o.critB
        ∧ (t.ax n).obs.capture.mpos = (if (s.ax n).mot.jog.isSome then s.m7 else s.tb.snap[(s.ax n).mot.master.val])
        ∧ (t.ax n).mot.unsure = ((s.ax n).mot.unsure || (s.ax n).enc.fallback || !(s.ax n).cfg.setpoint)
        ∧ ((s.ax n).cfg.react.toNat = 0 → t.q = s.q ∧ t.sb = s.sb ∧ (t.ax n).drv = (s.ax n).drv
            ∧ (t.ax n).mot = { (s.ax n).mot with unsure := (t.ax n).mot.unsure })
        ∧ ((s.ax n).cfg.react.toNat = 1 → (s.ax n).mot.stop = none →
            t.q = { s.q with snapOps := s.q.snapOps ++ [.stallStop n] } ∧ (t.ax n).drv = (s.ax n).drv
            ∧ (t.ax n).mot.runs = (s.ax n).mot.runs.map fun r => { r with
                decided := some (r.decided.getD (.stall, some (mpos32 (t.ax n).obs.capture.mpos))) })
        ∧ ((s.ax n).cfg.react.toNat = 2 → s.axisOff t n))

/-- A trip turns its leg off at once, with the EN lines of its axis, and waits for its classification in step 3 of the next
boundary; in a host-driven group it turns off that leg alone (R248, R250, R257). WAIT passes to CHECK, of two axes of one OUT_SHORT
at the later of their ends (R251); a CHECK that passes energises the axis at the next boundary, one that fails waits for step 3,
counts a try of class 5 there and latches the axis beyond TRN (R252, R254, R256); the resumed axis shifts what it held by the
master's advance (R253), and completes LIMIT where it would run into an active limit (R123); 1 s of RUN clears the counter. -/
def Obligations.TripsAreRetriedAndLatched : Prop :=
  ∀ (s : State),
    (∀ (m : LegId) (hs hard : Bool) (t : Nat), let g := groupOfLeg m
      let n := s.driver (axisOfLeg m)
      ∃ u, exec (.legTrip m hs hard t) s = .next u
      ∧ u = { s with groups := upd s.groups g fun x => { x with trips := x.trips ++ [⟨m, hs, hard, t⟩] }
                     axes := u.axes, legs := u.legs, dev := { s.dev with step3 := u.dev.step3 } }
      ∧ (u.leg m).en = false ∧ (u.leg m).tripped = true
      ∧ ((s.grp g).hostDriven = true → u.axes = s.axes ∧ ∀ k, k ≠ m → u.leg k = s.leg k)
      ∧ ((s.grp g).hostDriven = false →
          (∀ k, k ∈ s.drivenLegs (axisOfLeg m) → (u.leg k).en = false ∧ (u.leg k).carry = 0)
          ∧ (∀ k, k ≠ m → k ∉ s.drivenLegs (axisOfLeg m) → u.leg k = s.leg k)
          ∧ ∀ k, u.ax k = if k = n then { s.ax k with obs := (s.ax k).obs.noCriteria } else s.ax k)
      ∧ let groupOnce := if (s.grp g).trips = [] then insertStep (8 * t + 2) (.trips g) s.dev.step3 else s.dev.step3
        u.dev.step3 = if ∃ x ∈ (s.grp g).trips, s.driver (axisOfLeg x.leg) = n then groupOnce
          else insertStep (8 * t + 2) (.tripAxis n) groupOnce)
    ∧ ∀ n : AxisId,
      let checking := fun (x : Axis) => { x with prot := { x.prot with retry := .check, waitDone := false } }
      ((s.ax n).prot.retry ≠ .wait → exec (.retryWaitEnd n) s = .next s)
      ∧ ((s.ax n).prot.retry = .wait → s.retryMate n = none → exec (.retryWaitEnd n) s = .next { s with axes := upd s.axes n checking })
      ∧ (∀ k, (s.ax n).prot.retry = .wait → (s.ax n).prot.partner = some k → (s.ax k).prot.partner = some n → (s.ax k).prot.retry = .wait →
          ((s.ax k).prot.waitDone = true →
            exec (.retryWaitEnd n) s = .next { s with axes := upd (upd s.axes n checking) k checking })
          ∧ ((s.ax k).prot.waitDone = false → exec (.retryWaitEnd n) s = .next { s with
              axes := upd s.axes n fun x => { x with prot := { x.prot with waitDone := true } } }))
      ∧ (∀ a b t, (s.ax n).prot.retry ≠ .check → exec (.retryCheckEnd n a b t) s = .next s)
      ∧ (∀ t, (s.ax n).prot.retry = .check → exec (.retryCheckEnd n false false t) s = .next { s with
          axes := upd s.axes n fun x => { x with prot := { x.prot with retry := .energise } }
          q := { s.q with snapOps := s.q.snapOps ++ [.energise n] } })
      ∧ (∀ a b t, (s.ax n).prot.retry = .check → a = true ∨ b = true → exec (.retryCheckEnd n a b t) s = .next { s with
          dev := { s.dev with step3 := insertStep (8 * t + 2) (.checkFail n (legOf n (if a = true then 0 else 2))) s.dev.step3 } })
      ∧ (∀ m, (s.ax n).prot.retry = .check →
          let u := s.faultStep (.checkFail n m)
          (u.ax n).prot.tries = min 255 ((s.ax n).prot.tries + 1) ∧ (u.ax n).prot.cls = 5
          ∧ (u.ax n).prot.firstLeg = m.val ∧ (∀ k, k ≠ n → u.ax k = s.ax k)
          ∧ ((s.grp (groupOf n)).trnEff.toNat < min 255 ((s.ax n).prot.tries + 1) → s.axisOff u n
              ∧ (u.ax n).prot.latched = true ∧ (u.ax n).prot.retry = .latch)
          ∧ (min 255 ((s.ax n).prot.tries + 1) ≤ (s.grp (groupOf n)).trnEff.toNat → (u.ax n).prot.retry = .wait
              ∧ (u.ax n).mot.held.isSome = true ∧ (u.ax n).drv.energised = false ∧ (u.ax n).drv.brake = false
              ∧ (u.ax n).drv.enabled = (s.ax n).drv.enabled ∧ (∀ k ∈ s.drivenLegs n, (u.leg k).en = false)
              ∧ u = { s with axes := u.axes, legs := u.legs, sb := u.sb }))
      ∧ ((s.ax n).mot.held = none ∨ (s.ax n).prot.retry ≠ .energise ∨ (s.ax n).drv.energised = false →
          exec (.retryRunResume n) s = .next s)
      ∧ (∀ m1 m7, (s.ax n).mot.held = some (m1, m7) → (s.ax n).prot.retry = .energise → (s.ax n).drv.energised = true →
          (s.ax n).drv.brakeWait = false → (s.ax n).cfg.setpoint = false → (s.ax n).drv.enabling = false →
          (∀ r ∈ (s.ax n).mot.runs, r.seg.kind.limited = false ∨ s.limitOn n r.dir = false) →
          ∃ u, exec (.retryRunResume n) s = .next u ∧ u = { s with axes := u.axes } ∧ (∀ k, k ≠ n → u.ax k = s.ax k)
            ∧ (u.ax n).mot.held = none ∧ (u.ax n).mot.unsure = true ∧ (u.ax n).prot.retry = .run
            ∧ (u.ax n).prot.tries = (s.ax n).prot.tries
            ∧ (u.ax n).mot.runs.map (fun r => r.ms) = (s.ax n).mot.runs.map (fun r => r.ms +
                if r.onM7 then s.m7 - m7 else (s.ax n).mot.mProg - m1)
            ∧ (u.ax n).mot.queue.map (fun g => g.start) = (s.ax n).mot.queue.map (fun g => g.start))
      ∧ (∀ r held, (s.ax n).mot.held = some held → (s.ax n).prot.retry = .energise → (s.ax n).drv.energised = true →
          (s.ax n).drv.brakeWait = false → (s.ax n).cfg.setpoint = false → (s.ax n).drv.enabling = false → (s.ax n).mot.stop = none →
          (s.ax n).mot.runs = [r] → r.seg.kind.limited = true → r.dir ≠ 0 → s.limitOn n r.dir = true →
          ∃ u, exec (.retryRunResume n) s = .next u ∧ (u.ax n).mot.held = none ∧ (u.ax n).mot.runs = [] ∧ (u.ax n).mot.queue = []
            ∧ (u.ax n).prot.retry = .run)
      ∧ exec (.retryCounterClear n) s = .next { s with axes := upd s.axes n fun x => { x with
          prot := if x.prot.retry = .run then { x.prot with retry := .none, tries := 0 } else x.prot } }

/-- A lock-out of a gate supply or of VM turns the EN lines of its group low at once, is active and sticky, holds the supply, and
waits for step 3, where the axes' segments end; its release lets the enabled axes be energised at the next boundary (R241 to R243).
A thermal shutdown or a group link whose configuration write failed turns the group's EN lines low, is flagged, and turns off every
axis that is enabled; a shutdown clears at 145 °C (R445, R446), the link's other failures only lose samples or nothing (R17). What
runs when a link fails ends by the model's choice (notes/assumptions/29.md). A baseplate reading out of range reads as 100 °C with
BP_ERR (R441). -/
def Obligations.GroupsAreHeldAndShutDown : Prop :=
  (∀ (s : State) (g : GroupId),
        (∀ (at' : Nat) (c : Instr) (k : Fin 4), (c, k) ∈ ([(.gateSupplyLockout g false at', 0), (.gateSupplyLockout g true at', 1),
            (.vmLockout g false at', 2), (.vmLockout g true at', 3)] : List (Instr × Fin 4)) →
          ∃ t, exec c s = .next t ∧ s.groupDark t g
            ∧ t = { s.logs t with axes := t.axes, legs := t.legs, groups := t.groups, q := t.q, sb := t.sb
                                  dev := { (s.logs t).dev with step3 := insertStep (8 * at' + 1) (.supply g k) s.dev.step3 } }
            ∧ (t.grp g).lockout = (s.grp g).lockout ||| BitVec.ofNat 4 (2 ^ k.val) ∧ (t.grp g).supplyHold = true
            ∧ (t.grp g).faults = (s.grp g).faults ||| BitVec.ofNat 8 (2 ^ k.val) ∧ (t.grp g).diag = none
            ∧ (∀ j, j ≠ g → t.grp j = s.grp j) ∧ (∀ n, groupOf n = g → .energise n ∉ t.q.snapOps) ∧ t.q.packets = s.q.packets)
        ∧ exec (.lockoutRelease g) s = .next { s with
            groups := upd s.groups g fun x => { x with lockout := 0, supplyHold := false }
            q := { s.q with snapOps := s.q.snapOps ++ ((groupAxes g).filter fun n =>
              (s.ax n).drv.enabled && !(s.ax n).drv.energised && (s.ax n).prot.retry = .none).map SnapOp.energise } })
  ∧ (∀ (s : State) (g : GroupId),
        (∀ temp : BitVec 16, (s.grp g).thermSd = true → exec (.thermalShutdown g temp) s = .next { s with
          groups := upd s.groups g fun x => { x with temp := temp } })
        ∧ (∀ temp : BitVec 16, (s.grp g).thermSd = false → ∃ t, exec (.thermalShutdown g temp) s = .next t
          ∧ t = { s.logs t with axes := t.axes, legs := t.legs, pins := t.pins, q := t.q, sb := t.sb
                                groups := upd s.groups g fun x => { x with temp := temp, thermSd := true, thermSticky := true, tlevel := 5 } }
          ∧ (∀ m, t.leg m = if groupOfLeg m = g then (s.leg m).turnOff else s.leg m)
          ∧ (∀ n, groupOf n ≠ g → t.ax n = s.ax n)
          ∧ ∀ n, groupOf n = g → (t.ax n).drv.enabled = false ∧ (t.ax n).drv.energised = false ∧ (t.ax n).drv.enabling = false
              ∧ (t.ax n).cfg = (s.ax n).cfg ∧ ((s.ax n).drv.enabled = true → (t.ax n).mot.runs = [] ∧ (t.ax n).mot.queue = []
                ∧ (t.ax n).mot.unsure = ((s.ax n).mot.unsure || !(s.ax n).cfg.setpoint))
              ∧ ∀ p, (s.pin p).func = 13 → (s.pin p).axis? = some n → (s.ax n).drv.enabled = true →
                  t.pin p = { s.pin p with active := false, sink := entryInv (s.pin p).entry && !(s.pin p).overloaded })
        ∧ exec (.thermalShutdownClear g) s = .next { s with
            groups := upd s.groups g fun x => { x with thermSd := x.thermSd && decide (1160 < x.temp.toInt) } }
        ∧ exec (.groupLinkFailure g .repeatedOk) s = .next s
        ∧ (∀ (c : Fin 8) (gap : Bool), exec (.groupLinkFailure g (.sample c gap)) s = .next { s with
            groups := upd s.groups g fun x => { x with linkLost := x.linkLost ++ [(c, gap)] } })
        ∧ (∃ t, exec (.groupLinkFailure g .configWrite) s = .next t
          ∧ t = { s.logs t with axes := t.axes, legs := t.legs, q := t.q, sb := t.sb, groups := upd s.groups g fun x => { x with link := true } }
          ∧ (∀ m, t.leg m = if groupOfLeg m = g then (s.leg m).turnOff else s.leg m)
          ∧ (∀ n, groupOf n ≠ g → t.ax n = s.ax n)
          ∧ ∀ n, groupOf n = g → (t.ax n).drv.enabled = false ∧ (t.ax n).drv.energised = false ∧ (t.ax n).cfg = (s.ax n).cfg)
        ∧ ∀ v : BitVec 16, (-400 ≤ v.toInt → v.toInt ≤ 1200 → exec (.baseplateReading v) s = .next { s with
              dev := { s.dev with tbase := v, bpErr := false } })
            ∧ (v.toInt < -400 ∨ 1200 < v.toInt → exec (.baseplateReading v) s = .next { s with
              dev := { s.dev with tbase := 800, bpErr := true } }))

/-- A safe-off input that goes low turns every EN line and every brake low at once, with no clock, and waits for step 3; both inputs
high for 10 ms end SAFE_ACT, after a discrepancy only once both had been low together (R262 to R264). A lost clock is flagged and
the module enters SAFE_HOLD with every EN line low and READY 0 (R28, R390). -/
def Obligations.SafeOffAndClockLossStopEverything : Prop :=
  ∀ s : State,
    (∀ t, exec (.safeOff false false t) s = .next s)
    ∧ (∀ (a b : Bool) (at' : Nat), a = true ∨ b = true → ∃ t, exec (.safeOff a b at') s = .next t
        ∧ t = { s with
            legs := t.legs, axes := t.axes, pins := t.pins, q := { s.q with snapOps := t.q.snapOps }
            dev := { s.dev with safeA := !a, safeB := !b, discNow := false, bothLow := s.dev.bothLow || (s.dev.safeDisc && a && b)
                                step3 := insertStep (8 * at') (.safe a b) s.dev.step3 } }
        ∧ (∀ m, (t.leg m) = (s.leg m).turnOff)
        ∧ (∀ n, t.ax n = { s.ax n with drv := { (s.ax n).drv with energised := false, brake := false, brakeWait := false } })
        ∧ (∀ o, o ∈ t.q.snapOps ↔ o ∈ s.q.snapOps ∧ ∀ n, o ≠ .energise n)
        ∧ ∀ p, t.pin p = if (s.pin p).func = 13 then { s.pin p with
            active := false, sink := entryInv (s.pin p).entry && !(s.pin p).overloaded } else s.pin p)
    ∧ (s.dev.safeDisc = true → s.dev.bothLow = false → exec .safeActClear s = .next { s with
        dev := { s.dev with safeA := true, safeB := true, discNow := false } })
    ∧ (s.dev.safeDisc = false ∨ s.dev.bothLow = true → exec .safeActClear s = .next { s with
        dev := { s.dev with safeA := true, safeB := true, safeAct := s.dev.step3.any (fun e => e.2.isSafe), safeDisc := false
                            discNow := false, bothLow := false } })
    ∧ (∀ aLow, s.dev.safeA = true → s.dev.safeB = true → exec (.safeDisc aLow) s = .next s)
    ∧ (∀ aLow, s.dev.safeA = false ∨ s.dev.safeB = false → ∃ t, exec (.safeDisc aLow) s = .next t
        ∧ t = { s.flagged t 5 with dev := { (s.flagged t 5).dev with
            safeA := !aLow, safeB := aLow, safeDisc := true, discNow := true, bothLow := false, safeAct := true } })
    ∧ ∃ t, exec .clkLost s = .next t
        ∧ t = { s.flagged t 0 with legs := t.legs, axes := t.axes
                                   dev := { (s.flagged t 0).dev with safeHold := true, ready := false } }
        ∧ (∀ m, (t.leg m) = (s.leg m).turnOff)
        ∧ ∀ n, t.ax n = { s.ax n with drv := { (s.ax n).drv with energised := false, brake := false, brakeWait := false } }

/-! ### Resets, integrity and the side-band port -/

/-- Each source of a reset begins one from any state, but that an external NRST is not seen while the module drives it and that the
second stage of the watchdog belongs to suspended dispatch; SERVICE does not last through it (R377, R378, R397, R403, R421). The
stages follow each other: the fuses are latched, a pulse is waited for, the options are loaded, NRST is released, the RAM is wiped,
and the module comes up READY, in SAFE_HOLD or RETIRED (R381, R385, R387, R388, R393, R404); any other stage's end does nothing. -/
def Obligations.ResetsRunThroughTheirStages : Prop :=
  ∀ s : State,
    let began := fun (c : Instr) (src : Fin 7) =>
      ∃ t, exec c s = .next t ∧ s.ResetBegun t src ∧ t.nvm.lc = (if s.nvm.lc = .service then .field else s.nvm.lc)
    began .powerOnReset 0 ∧ began .brownOutReset 1
    ∧ (s.dev.nrstDrive = true → exec .nrstReset s = .next s) ∧ (s.dev.nrstDrive = false → began .nrstReset 6)
    ∧ (s.dev.stage ≠ .running ∨ s.dev.suspended = false → exec .watchdogSecondStage s = .next s)
    ∧ (s.dev.stage = .running → s.dev.suspended = true → began .watchdogSecondStage 3)
    ∧ (s.dev.stage ≠ .fuseSensing → exec .fuseSensingEnd s = .next s)
    ∧ (s.dev.stage = .fuseSensing → exec .fuseSensingEnd s = .next { s with dev := { s.dev with
        fuseState := s.nvm.fuses, nrstDrive := true, stage := if s.nvm.pulse then .nvmDeferral else .optionsLoad } })
    ∧ (s.dev.stage = .nvmDeferral → exec .nvmPulseEnd s = .next { s with
        nvm := { s.nvm with pulse := false }, dev := { s.dev with stage := .optionsLoad } })
    ∧ (s.dev.stage = .running → exec .nvmPulseEnd s = .next s)
    ∧ (∀ ok, s.dev.stage ≠ .optionsLoad → exec (.optionsLoadEnd ok) s = .next s)
    ∧ (∀ ok, s.dev.stage = .optionsLoad → ∃ t, exec (.optionsLoadEnd ok) s = .next t
        ∧ t.dev.stage = .nrstWait ∧ t.dev.nrstDrive = false ∧ t.dev.pinsTaken = true ∧ t.dev.staging = t.dev.opts
        ∧ t.nvm.lc = lifeOf s.nvm.lcWord ∧ t.nvm.fuses = s.nvm.fuses ∧ t.axes = s.axes ∧ t.tb = s.tb ∧ t.q = s.q ∧ t.mp = s.mp
        ∧ (∀ g, t.grp g = { s.grp g with taps := (t.grp g).taps }) ∧ (∀ m, t.leg m = { s.leg m with os := (t.leg m).os, gs := (t.leg m).gs })
        ∧ (∀ a, t.adc a = { s.adc a with oa := (t.adc a).oa, ga := (t.adc a).ga })
        ∧ (s.nvm.erasing = true → t.nvm.devKey = none ∧ t.nvm.fwKey = none ∧ t.nvm.passcode = 0 ∧ t.nvm.markA = none
            ∧ t.nvm.markB = none ∧ t.nvm.floor = 0 ∧ t.nvm.shale = [] ∧ t.nvm.erasing = false)
        ∧ (ok = false → t.dev.opts = defaultOptions ∧ t.dev.defaults = true ∧ t.sb.addr = s.sb.addr
            ∧ (∀ m, (t.leg m).os = 0 ∧ (t.leg m).gs = 16384) ∧ (∀ a, (t.adc a).oa = 0 ∧ (t.adc a).ga = 16384)
            ∧ ∀ g, (t.grp g).taps = siliconTaps)
        ∧ ∀ r, ok = true → s.nvm.copyA = some r → optHeader r = true → t.dev.opts = fixOptions r ∧ t.dev.defaults = false
            ∧ t.dev.aBad = false ∧ t.sb.addr = (optByte (fixOptions r) 10).setWidth 7 
            ∧ (∀ m, (t.leg m).os = s.nvm.legTrim[m].os ∧ (t.leg m).gs = s.nvm.legTrim[m].gs0)
            ∧ (∀ a, (t.adc a).oa = s.nvm.adcTrim[a].oa ∧ (t.adc a).ga = s.nvm.adcTrim[a].ga)
            ∧ ∀ g, (t.grp g).taps = s.nvm.tapTrim[g])
    ∧ (s.dev.stage ≠ .nrstWait → exec .nrstRelease s = .next s)
    ∧ (s.dev.stage = .nrstWait → exec .nrstRelease s = .next { s with dev := { s.dev with stage := .ramWipe } })
    ∧ (∀ a b, s.dev.stage ≠ .ramWipe → exec (.ramWipeEnd a b) s = .next s)
    ∧ (∀ a b, s.dev.stage = .ramWipe → ∃ t, exec (.ramWipeEnd a b) s = .next t
        ∧ t.dev.stage = .running ∧ t.mp.chip0 = a ∧ t.mp.chip1 = b ∧ t.axes = s.axes ∧ t.legs = s.legs ∧ t.tb = s.tb ∧ t.q = s.q
        ∧ (t.mp.dev0 = true ↔ ∃ d, a = some d ∧ qualifies d = true) ∧ (t.mp.dev1 = true ↔ ∃ d, b = some d ∧ qualifies d = true)
        ∧ (s.dev.defaults = true → t.dev.safeHold = true ∧ t.dev.ready = s.dev.ready ∧ t.nvm = s.nvm)
        ∧ (s.dev.defaults = false → s.dev.safeHold = true ∨ s.nvm.lc = .retired → t.dev.ready = s.dev.ready
            ∧ t.dev.safeHold = s.dev.safeHold ∧ t.sb = s.sb)
        ∧ (s.dev.defaults = false → s.dev.safeHold = false → s.nvm.lc ≠ .retired → t.dev.ready = true ∧ t.dev.safeHold = false
            ∧ t.dev.rstSrc = s.dev.sources ∧ t.dev.sources = 0 ∧ t.dev.restarts = 0
            ∧ (s.sb.pendReset = true → t.sb.result = 0 ∧ t.sb.pendReset = false)))

/-- The first stage of the watchdog restarts the cores: dispatch is suspended, the restart counted, and packets they held return
untaken (R397, R418, R419); resumed, dispatch goes on and the staged completions enter the ring (R420). A memory error is counted, a
word once in one frame, and marks what it hit (R406 to R413); a parity mismatch of a guarded word is recorded with its place and
waits for the next boundary (R414, R415). -/
def Obligations.IntegrityChecksMarkWhatFailed : Prop :=
  ∀ s : State,
    (s.dev.stage ≠ .running ∨ s.dev.wdSuspended = true → exec .watchdogFirstStage s = .next s)
    ∧ (s.dev.stage = .running → s.dev.wdSuspended = false → ∃ t, exec .watchdogFirstStage s = .next t
        ∧ t.dev.suspended = true ∧ t.dev.restarts = (if s.dev.restarts = 0xFF then 0xFF else s.dev.restarts + 1)
        ∧ (∀ p ∈ t.q.packets, p.core = none ∧ p.verdict = none) ∧ t.q.packets.map (·.bytes) = s.q.packets.map (·.bytes)
        ∧ t.q.ring = s.q.ring ∧ t.mp.stream = none ∧ (∀ n, (t.ax n).prot.ident = none)
        ∧ (∀ n, (t.ax n).mot = (s.ax n).mot ∧ (t.ax n).drv = (s.ax n).drv ∧ (t.ax n).cfg = (s.ax n).cfg)
        ∧ t.legs = s.legs ∧ t.groups = s.groups ∧ t.tb = s.tb ∧ t.hp = s.hp ∧ t.pins = s.pins)
    ∧ (s.dev.suspended = false ∨ s.mp.switching = true → exec .dispatchResume s = .next s)
    ∧ (s.dev.suspended = true → s.mp.switching = false → s.sb.waiting = [] →
        exec .dispatchResume s = .next { s with
          dev := { s.dev with suspended := false, wdSuspended := false }
          q := ({ s.q with ring := s.q.ring ++ s.q.staged, staged := [] } : Queues).request })
    ∧ (∀ r w, s.dev.stage ≠ .running ∨ w ∈ s.dev.sramSeen → exec (.sramScrub r w) s = .next s)
    ∧ (∀ w, exec (.sramScrub .free w) s = .next s)
    ∧ (∀ w, s.dev.stage = .running → w ∉ s.dev.sramSeen →
        let counted := fun (t : State) => { s.logs t with
          dev := { (s.logs t).dev with
            sramErr := (if s.dev.sramErr = 0xFFFF then 0xFFFF else s.dev.sramErr + 1)
            sramSeen := w :: s.dev.sramSeen } }
        (∀ r, (∃ n, r = .profileCache n) ∨ r = .codeCache → ∃ t, exec (.sramScrub r w) s = .next t ∧ t = counted t)
        ∧ (∀ (i : Fin 4) (e : Fin 1024),
            (s.tables[i.val].custom = none → ∃ t, exec (.sramScrub (.microstepTable i e) w) s = .next t ∧ t = counted t)
            ∧ (s.tables[i.val].custom.isSome = true → s.tables[i.val].faddr = none →
                ∃ t, exec (.sramScrub (.microstepTable i e) w) s = .next t
                  ∧ t = { counted t with tables := upd s.tables i fun x => { x with invalid := true } })
            ∧ (s.tables[i.val].custom.isSome = true → s.tables[i.val].faddr.isSome = true → s.tables[i.val].invalid = false →
                ∃ t, exec (.sramScrub (.microstepTable i e) w) s = .next t
                  ∧ t = { counted t with tables := upd s.tables i fun x => { x with reloading := true, badEntries := e.val :: x.badEntries } }))
        ∧ (∀ tag, (∃ p ∈ s.q.packets, p.tag = tag) → ∃ t, exec (.sramScrub (.packet tag) w) s = .next t
            ∧ t = { counted t with q := { s.q with packets := s.q.packets.map fun p => if p.tag = tag then { p with bad := true } else p } })
        ∧ (∀ i, i < s.q.ring.length → ∃ t, exec (.sramScrub (.completion i) w) s = .next t
            ∧ t = { counted t with q := { s.q with ring := s.q.ring.modify i fun c => { c with bad := true } } })
        ∧ (∀ n c, (s.ax n).mot.runs = [] → (s.ax n).mot.queue = [] → exec (.sramScrub (.descriptor n c) w) s = .next s)
        ∧ (∀ n, (s.ax n).mot.runs ≠ [] ∨ (s.ax n).mot.queue ≠ [] → ∃ t, exec (.sramScrub (.descriptor n true) w) s = .next t
            ∧ (t.ax n).drv.enabled = false ∧ (t.ax n).mot.runs = [] ∧ (t.ax n).mot.queue = [] ∧ (∀ k, k ≠ n → t.ax k = s.ax k))
        ∧ (∀ l, ∃ t, exec (.sramScrub (.firmwareData false l) w) s = .next t ∧ t = counted t)
        ∧ ∀ l, ∃ t, exec (.sramScrub (.firmwareData true l) w) s = .next t ∧ t.dev.suspended = true ∧ t.dev.tagLost = (s.dev.tagLost || l))
    ∧ ∀ (page : BitVec 4) (w : BitVec 8) (bad : Bool),
        let marked := ({ s.dev with parPage := page, parWord := w, parValid := true } : Device)
        (s.dev.stage ≠ .running → exec (.parityScrub page w bad) s = .next s)
        ∧ (s.dev.stage = .running → 4 ≤ page.toNat → guardedGroup w.toNat = true → ∃ t, exec (.parityScrub page w bad) s = .next t
          ∧ t = { s.logs t with dev := { marked with
              shalePend := t.dev.shalePend, shaleDropped := t.dev.shaleDropped
              parityBad := (page.toNat, w.toNat) :: s.dev.parityBad.filter (· ≠ (page.toNat, w.toNat))
              parityPend := s.dev.parityPend ++ [(page.toNat, w.toNat, false)] } })
        ∧ (s.dev.stage = .running → page.toNat < 4 → guardedGlobal page.toNat w.toNat = true →
          exec (.parityScrub page w bad) s = .next { s with dev := { marked with
            parityPend := s.dev.parityPend ++ [(page.toNat, w.toNat, bad)] } })

/-- The port wakes at its address and sleeps after 1 s (R342, R343), and each transaction takes up SB_CFG as last written (R362);
VDD makes it ACTIVE once the options are loaded, and its loss latches an alert (R344, R353); a bus time-out ends what was returned
(R340), an error of a transaction leaves its code and no effect, unless it is no error of that command (R347); VSB power starts the
port anew (R490). The port answers an alert response while it pulls SBALRT low, and where it wins its causes are announced (R354); a
silent host latches an alert where HSIL asks for it (R353). A read command of the side-band port returns a byte count, the bytes it
asks for and the PEC of the whole transaction, waking the port; one that may not act (RETIRED, or a port that is not ACTIVE or a
module that is not READY where the command needs it) returns the count 0. A read changes nothing but what is returned, STATUS and
REG_READ apart (R345 to R352). -/
def Obligations.TheSideBandPortReadsAndFollowsItsSupplies : Prop :=
  (∀ s : State,
        exec .sbWake s = .next s.sbWoken ∧ s.sbWoken = { s with sb := { s.sb with
            pecUse := s.sb.pecReq, amaskUse := s.sb.amask, hsilUse := s.sb.hsil
            power := if s.sb.power = .standby then .awake else s.sb.power } }
        ∧ exec .sbAwakeTimeout s = .next { s with sb := { s.sb with power := if s.sb.power = .awake then .standby else s.sb.power } }
        ∧ exec .sbVddValid s = .next { s with
            sb := { s.sb with
              vdd := true, power := if s.dev.stage = .nrstWait ∨ s.dev.stage = .ramWipe ∨ s.dev.stage = .running then .active else s.sb.power }
            nvm := { s.nvm with pulse :=
              if s.dev.stage = .running then s.dev.optWrite.isSome || s.dev.fuseSeq.isSome else s.nvm.pulse } }
        ∧ exec .sbVddLost s = .next { s with sb := { s.sb with
            vdd := false, power := if s.sb.power = .active then .awake else s.sb.power
            causes := s.sb.causes ||| 0x10, announced := s.sb.announced &&& ~~~0x10 } }
        ∧ exec .sbBusTimeout s = .next { s with sb := { s.sb with dataOut := [] } }
        ∧ (∀ code, exec (.sbTransactionError (.badCommand code)) s = .next (if sbForm code = none then s.sbRefused 0x83 else s.sbWoken))
        ∧ (∀ code f k, sbForm code = some f → exec (.sbTransactionError (.short code k)) s = .next
            (if f.write = true ∧ k < f.args then s.sbRefused 0x82 else s.sbWoken))
        ∧ exec (.sbTransactionError .pecMismatch) s = .next (s.sbRefused 0x81)
        ∧ exec (.sbTransactionError .missingPec) s = .next (if s.sb.pecReq = true then s.sbRefused 0x81 else s.sbWoken)
        ∧ (∀ e : SbError, e = .byteAfterPec ∨ e = .readPecNotRead → exec (.sbTransactionError e) s = .next s.sbWoken)
        ∧ (∃ t, exec .vsbPowerOn s = .next t ∧ t = { s with sb := t.sb } ∧ t.sb.power = .standby ∧ t.sb.addr = 0x50 ∧ t.sb.pecReq = false
            ∧ t.sb.amask = 0x1F ∧ t.sb.hsil = 0 ∧ t.sb.causes = 0 ∧ t.sb.vdd = s.sb.vdd)
        ∧ (let u := ({ s with sb := { s.sb with pecUse := s.sb.pecReq, amaskUse := s.sb.amask, hsilUse := s.sb.hsil } } : State)
          (s.sb.causes &&& s.sb.amask &&& ~~~s.sb.announced = 0 → ∀ won, exec (.alertResponse won) s = .next u)
          ∧ (s.sb.causes &&& s.sb.amask &&& ~~~s.sb.announced ≠ 0 → ∀ won, exec (.alertResponse won) s = .next { u with sb := { u.sb with
            dataOut := [s.sb.addr.setWidth 8 <<< 1], announced := if won then s.sb.causes else s.sb.announced } }))
        ∧ (s.sb.hsilUse = 0 ∨ s.dev.ready = false → exec .hostSilent s = .next s)
        ∧ (s.sb.hsilUse ≠ 0 → s.dev.ready = true → exec .hostSilent s = .next { s with sb := { s.sb with
            causes := s.sb.causes ||| 8, announced := s.sb.announced &&& ~~~8 } }))
  ∧ (∀ s : State,
        let u := s.sbWoken
        let addr : Byte := s.sb.addr.setWidth 8 <<< 1
        let out := fun (code : Byte) (args l : List Byte) => (BitVec.ofNat 8 l.length :: l) ++
          [crc8Smbus (addr :: code :: args ++ (addr ||| 1) :: BitVec.ofNat 8 l.length :: l)]
        let ret := fun (code : Byte) (args l : List Byte) => ({ u with sb := { u.sb with dataOut := out code args l } } : State)
        let shut := s.nvm.lc = .retired ∨ s.sb.power ≠ .active ∨ s.dev.ready = false
        exec .identity s = .next (ret 0x01 [] (wordBytes 0x00004896 ++ [s.dev.step.setWidth 8, 0x43, 0, 0] ++
          [optByte u.sbOptions 8, s.sb.addr.setWidth 8]))
        ∧ exec .lcQuery s = .next (ret 0x02 [] [BitVec.ofNat 8 (lcCode s.nvm.lc), BitVec.ofNat 8 (sbPowerCode u.sb.power)])
        ∧ (s.nvm.lc = .retired → exec .status s = .next (ret 0x04 [] [])
            ∧ ∀ i : BitVec 16, exec (.shaleRead i) s = .next (ret 0x08 (leBytes 2 i.toNat) []))
        ∧ (s.nvm.lc ≠ .retired →
            exec .status s = .next { ret 0x04 [] u.sbStatus with sb := { (ret 0x04 [] u.sbStatus).sb with
              regErr := 0, causes := 0, announced := 0 } }
            ∧ ∀ i : BitVec 16,
                (∀ e, s.shaleValid[i.toNat]? = some e → exec (.shaleRead i) s = .next (ret 0x08 (leBytes 2 i.toNat) e.bytes))
                ∧ (s.shaleValid.length ≤ i.toNat →
                    exec (.shaleRead i) s = .next (ret 0x08 (leBytes 2 i.toNat) (List.replicate 16 0))))
        ∧ (shut → (∀ p w, exec (.regRead p w) s = .next (ret 0x10 [p, w] [])) ∧ (∀ a, exec (.envRead a) s = .next (ret 0x18 [a] []))
            ∧ ∀ a, exec (.axisRead a) s = .next (ret 0x19 [a] []))
        ∧ (¬shut →
            (∀ p w : Byte, p.toNat < 16 → ∃ t, exec (.regRead p w) s = .next t
              ∧ t.sb.dataOut = out 0x10 [p, w] (wordBytes (u.regRead .sideband p.toNat w.toNat).1))
            ∧ (∀ p w : Byte, 16 ≤ p.toNat → ∃ t, exec (.regRead p w) s = .next t ∧ t.sb.dataOut = out 0x10 [p, w] [])
            ∧ (∀ (a : Byte) (g : GroupId), a.toNat = g.val → exec (.envRead a) s = .next (ret 0x18 [a]
                (leBytes 2 (s.grp g).temp.toNat ++ leBytes 4 (s.grp g).vm.toNat ++ leBytes 2 (s.grp g).stat.toNat)))
            ∧ (∃ vd vs : BitVec 16, exec (.envRead 12) s = .next { ret 0x18 [12]
                (leBytes 2 s.dev.tbase.toNat ++ leBytes 2 vd.toNat ++ leBytes 2 vs.toNat ++ [0, 0]) with
                  dev := { s.dev with free := s.dev.free + 1 } })
            ∧ (∀ a : Byte, 12 < a.toNat → exec (.envRead a) s = .next (ret 0x18 [a] []))
            ∧ (∀ (a : Byte) (n : AxisId), axisOfByte a = some n → s.isPartner n = false → exec (.axisRead a) s = .next (ret 0x19 [a]
                (wordBytes (s.axStat n) ++ wordBytes (s.axOwner n) ++ wordBytes (hiWord (s.ax n).mot.out) ++ wordBytes (s.axMpos n))))
            ∧ ∀ a : Byte, axisOfByte a = none ∨ (∃ n, axisOfByte a = some n ∧ s.isPartner n = true) →
                exec (.axisRead a) s = .next (ret 0x19 [a] [])))

/-- Write commands of the side-band port. One whose PEC is wrong, or missing where SB_CFG asks for it, is discarded with its code
(R347); one that may not act has the code of the state: RETIRED, a port that is not ACTIVE, a module that is not READY (R345). On
the module: WAKE lets an awake port stand by (R342), REG_WRITE writes its word (R352), a wrong key is REJECT_KEY and changes nothing
else, STOP_ALL waits for the next boundary, at once while dispatch is suspended, and completes where no axis is enabled (R308,
R358), SERVICE_ENTER and MODULE_RESET begin a reset whose result reads OK after READY (R360, R361, R401), PASSCODE_SET with the old
passcode sets the new one, a lock-out lapses (R360), and BANK_SELECT of a verified bank begins an option write (R361). -/
def Obligations.SideBandModuleCommands : Prop :=
  ∀ (s : State) (pec : Option Byte),
    (∀ (code : Byte) (data : List Byte) (c : Instr) (f : SbForm), sbRow code data pec = some c → sbForm code = some f → f.write = true →
      (¬s.pecGood code data pec → exec c s = .next (s.sbRefused 0x81))
      ∧ (s.pecGood code data pec → s.nvm.lc = .retired → exec c s = .next (s.sbDone code Status.rejectState.code))
      ∧ (s.pecGood code data pec → s.nvm.lc ≠ .retired → f.vsb = false → s.sb.power ≠ .active → exec c s = .next (s.sbDone code 0x84))
      ∧ (s.pecGood code data pec → s.nvm.lc ≠ .retired → f.vsb = false → s.sb.power = .active → s.dev.ready = false → code ≠ 0x20 →
          exec c s = .next (s.sbDone code 0x85)))
    ∧ (∀ v : Byte, s.nvm.lc ≠ .retired → s.pecGood 0x03 [v] pec →
      (1 < v.toNat → exec (.wake v pec) s = .next (s.sbDone 0x03 Status.rejectParam.code))
      ∧ (v = 1 → exec (.wake v pec) s = .next (s.sbDone 0x03 0))
      ∧ (v = 0 → exec (.wake v pec) s = .next { s.sbDone 0x03 0 with sb := { (s.sbDone 0x03 0).sb with
          power := if s.sbWoken.sb.power = .awake then .standby else s.sbWoken.sb.power } }))
    ∧ exec .passcodeLockoutEnd s = .next { s with sb := { s.sb with lockedOut := false } }
    ∧ (s.nvm.lc ≠ .retired → s.sb.power = .active → s.framing = true → s.q.packets = [] → s.mp.stream = none →
        s.pecGood 0x20 [0xA5, 0xC3] pec → s.dev.suspended = true ∨ s.dev.safeHold = true ∨ s.sb.waiting = [] →
        ((∃ n, (s.ax n).drv.enabled = true) → exec (.sbStopAll 0xC3A5 pec) s = .next { s with
              q := { s.q with actions := s.q.actions ++
                                [⟨s.q.nextAct, .sideband, 0xFF, .stopAll, allAxes.filter fun n => (s.ax n).drv.enabled, [], 0, 0⟩]
                              nextAct := s.q.nextAct + 1, snapOps := s.q.snapOps ++ [.stopAll s.q.nextAct] }
              sb := { (s.sbDone 0x20 0x80).sb with pendAct := some s.q.nextAct } })
        ∧ (s.ActionsFresh → (∀ n, (s.ax n).drv.enabled = false) → exec (.sbStopAll 0xC3A5 pec) s = .next { s with
              q := { s.q with nextAct := s.q.nextAct + 1, snapOps := s.q.snapOps ++ [.stopAll s.q.nextAct] }
              sb := { (s.sbDone 0x20 0).sb with causes := s.sb.causes ||| 0x20, announced := s.sb.announced &&& ~~~0x20 } }))
    ∧ (s.sbActs →
        (∀ v : Word, s.pecGood 0x11 ([0x00, 0x05] ++ wordBytes v) pec → exec (.regWrite 0 0x05 v pec) s = .next { s.sbDone 0x11 0 with
            sb := { (s.sbDone 0x11 0).sb with unlocked := decide (v = 0x0000C3A5) } })
        ∧ (∀ (p w : Byte) (v : Word), 16 ≤ p.toNat → s.pecGood 0x11 ([p, w] ++ wordBytes v) pec →
            exec (.regWrite p w v pec) s = .next ((s.regError .sideband 1).sbDone 0x11 Status.rejectParam.code))
        ∧ (∀ k : BitVec 16, k ≠ 0xC3A5 →
            (s.pecGood 0x20 (leBytes 2 k.toNat) pec → exec (.sbStopAll k pec) s = (if s.framing then .next (s.sbDone 0x20 Status.rejectKey.code)
              else .next (s.sbDone 0x20 0x85)))
            ∧ (s.pecGood 0x3F (leBytes 2 k.toNat) pec → exec (.moduleReset k pec) s = .next (s.sbDone 0x3F Status.rejectKey.code))
            ∧ ∀ b, s.pecGood 0x38 (leBytes 2 k.toNat ++ [b]) pec →
                exec (.bankSelect k b pec) s = .next (s.sbDone 0x38 Status.rejectKey.code))
        ∧ (s.pecGood 0x3F [0xA5, 0xC3] pec → ∃ t, exec (.moduleReset 0xC3A5 pec) s = .next t ∧ s.ResetBegun t 4 ∧ t.sb.pendReset = true
            ∧ t.sb.result = 0x80 ∧ t.sb.lastCmd = 0x3F)
        ∧ (∀ code : BitVec 64, s.pecGood 0x30 (leBytes 8 code.toNat) pec →
            (s.sb.lockedOut = true → exec (.serviceEnter code pec) s = .next (s.sbDone 0x30 0x86))
            ∧ (s.sb.lockedOut = false → s.nvm.lc ≠ .field ∨ s.anyEnabled = true →
                exec (.serviceEnter code pec) s = .next (s.sbDone 0x30 Status.rejectState.code))
            ∧ (s.sb.lockedOut = false → s.nvm.lc = .field → s.anyEnabled = false → code = s.nvm.passcode →
                ∃ t, exec (.serviceEnter code pec) s = .next t ∧ s.ResetBegun t 2 ∧ t.nvm.lc = .service ∧ t.sb.pendReset = true)
            ∧ (s.sb.lockedOut = false → s.nvm.lc = .field → s.anyEnabled = false → code ≠ s.nvm.passcode → s.sb.wrongPass = [] →
                ∃ t, exec (.serviceEnter code pec) s = .next t ∧ t = { (s.sbDone 0x30 Status.rejectKey.code).logs t with
                  sb := { (s.sbDone 0x30 Status.rejectKey.code).sb with wrongPass := [s.tb.tick] } }))
        ∧ (∀ new : BitVec 64, s.pecGood 0x31 (leBytes 8 s.nvm.passcode.toNat ++ leBytes 8 new.toNat) pec → s.sb.lockedOut = false →
            s.nvm.lc = .manufacture ∨ s.nvm.lc = .service →
            exec (.passcodeSet s.nvm.passcode new pec) s = .next { s.sbDone 0x31 0 with nvm := { s.nvm with passcode := new } })
        ∧ (∀ b : Bool, s.pecGood 0x38 [0xA5, 0xC3, if b then 1 else 0] pec → (s.mark b).isSome = true →
            ∃ t, exec (.bankSelect 0xC3A5 (if b then 1 else 0) pec) s = .next t
            ∧ t.dev.optWrite.isSome = true ∧ t.sb.pendBank = true ∧ t.sb.result = 0x80 ∧ t.axes = s.axes ∧ t.legs = s.legs
            ∧ t.nvm.copyA = s.nvm.copyA ∧ t.nvm.copyB = s.nvm.copyB ∧ t.q = s.q ∧ t.tb = s.tb))

/-- Write commands of the side-band port on one axis take their turn as packets of Q0: each leaves its effect for the next snapshot
under one new action, its result PENDING; an axis that is not the port's own is REJECT_OWNER, one above 47 or a gang partner
REJECT_AXIS; while dispatch is suspended, or a packet of Q0 accepted before has not been taken, the command waits (R348, R350, R355
to R359, R420). A jog that is not renewed stops (R357). -/
def Obligations.SideBandAxisCommands : Prop :=
  ∀ (s : State) (pec : Option Byte), s.sbActs →
    (∀ (a : Byte) (n : AxisId), axisOfByte a = some n → s.isPartner n = false →
      (s.pecGood 0x21 [a, 0] pec → s.sbFree (.axisStop a 0 pec) →
        exec (.axisStop a 0 pec) s = .next (s.sbAwaits 0x21 n .stop [.stop n false false s.q.nextAct]))
      ∧ (s.pecGood 0x21 [a, 1] pec → s.sbFree (.axisStop a 1 pec) →
        exec (.axisStop a 1 pec) s = .next (s.sbAwaits 0x21 n .quickstop [.stop n true false s.q.nextAct]))
      ∧ (s.pecGood 0x21 [a, 2] pec → s.sbFree (.axisStop a 2 pec) → (s.ax n).drv.enabled = true → s.disablingNow n = false →
          s.mp.stream = none → exec (.axisStop a 2 pec) s = .next (s.sbAwaits 0x21 n .disable [.disable n s.q.nextAct]))
      ∧ (∀ m : Byte, 2 < m.toNat → s.pecGood 0x21 [a, m] pec → s.sbFree (.axisStop a m pec) →
          exec (.axisStop a m pec) s = .next (s.sbDone 0x21 Status.rejectParam.code))
      ∧ (s.pecGood 0x28 [a] pec → s.sbFree (.take a pec) →
          ((s.ax n).prot.owner = .sideband → exec (.take a pec) s = .next (s.sbDone 0x28 0))
          ∧ ((s.ax n).prot.owner ≠ .sideband → exec (.take a pec) s = .next (s.sbAwaits 0x28 n .take [.take n s.q.nextAct])))
      ∧ ((s.ax n).prot.owner ≠ .sideband →
          (s.pecGood 0x29 [a] pec → s.sbFree (.handBack a pec) →
            exec (.handBack a pec) s = .next (s.sbDone 0x29 Status.rejectOwner.code))
          ∧ (s.pecGood 0x22 [a] pec → s.sbFree (.axisEnable a pec) →
            exec (.axisEnable a pec) s = .next (s.sbDone 0x22 Status.rejectOwner.code))
          ∧ (s.pecGood 0x23 [a, 1] pec → s.sbFree (.sbJog a 1 pec) →
            exec (.sbJog a 1 pec) s = .next (s.sbDone 0x23 Status.rejectOwner.code)))
      ∧ ((s.ax n).prot.owner = .sideband → s.q.actions = [] →
          (s.pecGood 0x29 [a] pec → s.sbFree (.handBack a pec) →
            exec (.handBack a pec) s = .next { s.sbAwaits 0x29 n .handBack [.handBack n s.q.nextAct] with
              sb := { (s.sbAwaits 0x29 n .handBack []).sb with
                jogs := s.sb.jogs.filter (· ≠ n), jogWait := s.sb.jogWait.filter fun j => j.1 ≠ n } })
          ∧ (s.pecGood 0x22 [a] pec → s.sbFree (.axisEnable a pec) → passes (s.enableChecks n) → (s.ax n).drv.enabled = false →
              (s.ax n).drv.enabling = false → exec (.axisEnable a pec) s = .next { s.sbAwaits 0x22 n .enable [.energise n] with
                axes := upd s.axes n fun x => { x with drv := { x.drv with enabling := true } } })
          ∧ (∀ (d : Byte) (pos : Bool), (d = 0x01 ∧ pos = true) ∨ (d = 0xFF ∧ pos = false) → s.pecGood 0x23 [a, d] pec →
              s.sbFree (.sbJog a d pec) → (s.ax n).drv.enabled = true →
              s.sb.jogs = [] → (s.ax n).mot.jog = none → exec (.sbJog a d pec) s = .next { s.sbAwaits 0x23 n .sbJog [] with
                sb := { (s.sbAwaits 0x23 n .sbJog []).sb with jogWait := (s.sb.jogWait.filter fun j => j.1 ≠ n) ++ [(n, pos)] } })
          ∧ (s.pecGood 0x23 [a, 0] pec → s.sbFree (.sbJog a 0 pec) → exec (.sbJog a 0 pec) s = .next { s.sbDone 0x23 0 with
                q := { s.q with snapOps := s.q.snapOps ++ [.handBack n s.q.nextAct] }
                sb := { (s.sbDone 0x23 0).sb with
                  jogs := s.sb.jogs.filter (· ≠ n), jogWait := s.sb.jogWait.filter fun j => j.1 ≠ n } })))
    ∧ (∀ a : Byte, axisOfByte a = none ∨ (∃ n, axisOfByte a = some n ∧ s.isPartner n = true) →
        (s.pecGood 0x28 [a] pec → s.sbFree (.take a pec) → exec (.take a pec) s = .next (s.sbDone 0x28 Status.rejectAxis.code))
        ∧ (s.pecGood 0x29 [a] pec → s.sbFree (.handBack a pec) →
          exec (.handBack a pec) s = .next (s.sbDone 0x29 Status.rejectAxis.code))
        ∧ (s.pecGood 0x22 [a] pec → s.sbFree (.axisEnable a pec) →
          exec (.axisEnable a pec) s = .next (s.sbDone 0x22 Status.rejectAxis.code))
        ∧ ∀ m, s.pecGood 0x21 [a, m] pec → s.sbFree (.axisStop a m pec) →
          exec (.axisStop a m pec) s = .next (s.sbDone 0x21 Status.rejectAxis.code))
    ∧ (∀ (c : Instr) (code : Byte) (data : List Byte), sbRow code data pec = some c → code ∈ ([0x21, 0x22, 0x23, 0x28, 0x29] : List Byte) →
        s.pecGood code data pec →
        let waits := fun (s : State) => ({ s.sbDone code 0x80 with
          q := { s.q with nextSeq := s.q.nextSeq + 1 }
          sb := { (s.sbDone code 0x80).sb with waiting := s.sb.waiting ++ [(s.q.nextSeq, c)], pendWait := true } } : State)
        exec c { s with dev := { s.dev with suspended := true } } = .next (waits { s with dev := { s.dev with suspended := true } })
        ∧ (∀ p ∈ s.q.packets, p.queue = 0 → p.seq < s.q.nextSeq → p.core = none → (∃ k, s.coreFree k = true) →
            exec c s = .next (waits s)))
    ∧ ∀ n : AxisId, (s.sb.jogs.contains n = false → exec (.sbJogExpiry n) s = .next s)
        ∧ (s.sb.jogs.contains n = true → exec (.sbJogExpiry n) s = .next { s with
            q := { s.q with snapOps := s.q.snapOps ++ [.handBack n s.q.nextAct] }
            sb := { s.sb with jogs := s.sb.jogs.filter (· ≠ n), causes := s.sb.causes ||| 4, announced := s.sb.announced &&& ~~~4 } })
end

