-- ==== Sys2Proof/Laws/State.lean ====
section
/-! SUPPORT. What each update of the state leaves and what it changes: one lemma per field per update, so that no proof unfolds a
record update. -/
namespace Sys2Proof.Machine
open Sys2Proof

/-! ### Elements of a vector -/

theorem upd_self {α : Type} {k : Nat} (v : Vector α k) (i : Fin k) (f : α → α) : (upd v i f)[i.val] = f v[i.val] := by
  simp [upd]

theorem upd_other {α : Type} {k : Nat} (v : Vector α k) (i j : Fin k) (f : α → α) (h : j ≠ i) : (upd v i f)[j.val] = v[j.val] := by
  have : i.val ≠ j.val := fun e => h (Fin.ext e.symm)
  simp [upd, this]

theorem upd_upd {α : Type} {k : Nat} (v : Vector α k) (i : Fin k) (f g : α → α) : upd (upd v i f) i g = upd v i fun x => g (f x) := by
  simp [upd]

theorem upd_same {α : Type} {k : Nat} (v : Vector α k) (i : Fin k) (f : α → α) (h : f v[i.val] = v[i.val]) : upd v i f = v := by
  simp [upd, h]

/-- Only the value at the place decides. -/
theorem upd_congr {α : Type} {k : Nat} (v : Vector α k) (i : Fin k) (f g : α → α) (h : f v[i.val] = g v[i.val]) : upd v i f = upd v i g := by
  simp [upd, h]

/-! ### modAxis -/

@[simp] theorem modAxis_pending (s : State) (n : AxisId) (f : Axis → Axis) : (s.modAxis n f).pending = s.pending := rfl
@[simp] theorem modAxis_dev (s : State) (n : AxisId) (f : Axis → Axis) : (s.modAxis n f).dev = s.dev := rfl
@[simp] theorem modAxis_nvm (s : State) (n : AxisId) (f : Axis → Axis) : (s.modAxis n f).nvm = s.nvm := rfl
@[simp] theorem modAxis_tb (s : State) (n : AxisId) (f : Axis → Axis) : (s.modAxis n f).tb = s.tb := rfl
@[simp] theorem modAxis_coils (s : State) (n : AxisId) (f : Axis → Axis) : (s.modAxis n f).coils = s.coils := rfl
@[simp] theorem modAxis_legs (s : State) (n : AxisId) (f : Axis → Axis) : (s.modAxis n f).legs = s.legs := rfl
@[simp] theorem modAxis_adcs (s : State) (n : AxisId) (f : Axis → Axis) : (s.modAxis n f).adcs = s.adcs := rfl
@[simp] theorem modAxis_groups (s : State) (n : AxisId) (f : Axis → Axis) : (s.modAxis n f).groups = s.groups := rfl
@[simp] theorem modAxis_pins (s : State) (n : AxisId) (f : Axis → Axis) : (s.modAxis n f).pins = s.pins := rfl
@[simp] theorem modAxis_tables (s : State) (n : AxisId) (f : Axis → Axis) : (s.modAxis n f).tables = s.tables := rfl
@[simp] theorem modAxis_q (s : State) (n : AxisId) (f : Axis → Axis) : (s.modAxis n f).q = s.q := rfl
@[simp] theorem modAxis_hp (s : State) (n : AxisId) (f : Axis → Axis) : (s.modAxis n f).hp = s.hp := rfl
@[simp] theorem modAxis_sb (s : State) (n : AxisId) (f : Axis → Axis) : (s.modAxis n f).sb = s.sb := rfl
@[simp] theorem modAxis_mp (s : State) (n : AxisId) (f : Axis → Axis) : (s.modAxis n f).mp = s.mp := rfl
@[simp] theorem modAxis_coil (s : State) (n : AxisId) (f : Axis → Axis) (i : CoilId) : (s.modAxis n f).coil i = s.coil i := rfl
@[simp] theorem modAxis_leg (s : State) (n : AxisId) (f : Axis → Axis) (i : LegId) : (s.modAxis n f).leg i = s.leg i := rfl
@[simp] theorem modAxis_adc (s : State) (n : AxisId) (f : Axis → Axis) (i : AdcId) : (s.modAxis n f).adc i = s.adc i := rfl
@[simp] theorem modAxis_grp (s : State) (n : AxisId) (f : Axis → Axis) (i : GroupId) : (s.modAxis n f).grp i = s.grp i := rfl
@[simp] theorem modAxis_pin (s : State) (n : AxisId) (f : Axis → Axis) (i : PinId) : (s.modAxis n f).pin i = s.pin i := rfl

/-! ### modCfg -/

@[simp] theorem modCfg_pending (s : State) (n : AxisId) (f : AxisCfg → AxisCfg) : (s.modCfg n f).pending = s.pending := rfl
@[simp] theorem modCfg_dev (s : State) (n : AxisId) (f : AxisCfg → AxisCfg) : (s.modCfg n f).dev = s.dev := rfl
@[simp] theorem modCfg_nvm (s : State) (n : AxisId) (f : AxisCfg → AxisCfg) : (s.modCfg n f).nvm = s.nvm := rfl
@[simp] theorem modCfg_tb (s : State) (n : AxisId) (f : AxisCfg → AxisCfg) : (s.modCfg n f).tb = s.tb := rfl
@[simp] theorem modCfg_coils (s : State) (n : AxisId) (f : AxisCfg → AxisCfg) : (s.modCfg n f).coils = s.coils := rfl
@[simp] theorem modCfg_legs (s : State) (n : AxisId) (f : AxisCfg → AxisCfg) : (s.modCfg n f).legs = s.legs := rfl
@[simp] theorem modCfg_adcs (s : State) (n : AxisId) (f : AxisCfg → AxisCfg) : (s.modCfg n f).adcs = s.adcs := rfl
@[simp] theorem modCfg_groups (s : State) (n : AxisId) (f : AxisCfg → AxisCfg) : (s.modCfg n f).groups = s.groups := rfl
@[simp] theorem modCfg_pins (s : State) (n : AxisId) (f : AxisCfg → AxisCfg) : (s.modCfg n f).pins = s.pins := rfl
@[simp] theorem modCfg_tables (s : State) (n : AxisId) (f : AxisCfg → AxisCfg) : (s.modCfg n f).tables = s.tables := rfl
@[simp] theorem modCfg_q (s : State) (n : AxisId) (f : AxisCfg → AxisCfg) : (s.modCfg n f).q = s.q := rfl
@[simp] theorem modCfg_hp (s : State) (n : AxisId) (f : AxisCfg → AxisCfg) : (s.modCfg n f).hp = s.hp := rfl
@[simp] theorem modCfg_sb (s : State) (n : AxisId) (f : AxisCfg → AxisCfg) : (s.modCfg n f).sb = s.sb := rfl
@[simp] theorem modCfg_mp (s : State) (n : AxisId) (f : AxisCfg → AxisCfg) : (s.modCfg n f).mp = s.mp := rfl
@[simp] theorem modCfg_coil (s : State) (n : AxisId) (f : AxisCfg → AxisCfg) (i : CoilId) : (s.modCfg n f).coil i = s.coil i := rfl
@[simp] theorem modCfg_leg (s : State) (n : AxisId) (f : AxisCfg → AxisCfg) (i : LegId) : (s.modCfg n f).leg i = s.leg i := rfl
@[simp] theorem modCfg_adc (s : State) (n : AxisId) (f : AxisCfg → AxisCfg) (i : AdcId) : (s.modCfg n f).adc i = s.adc i := rfl
@[simp] theorem modCfg_grp (s : State) (n : AxisId) (f : AxisCfg → AxisCfg) (i : GroupId) : (s.modCfg n f).grp i = s.grp i := rfl
@[simp] theorem modCfg_pin (s : State) (n : AxisId) (f : AxisCfg → AxisCfg) (i : PinId) : (s.modCfg n f).pin i = s.pin i := rfl

/-! ### modMot -/

@[simp] theorem modMot_pending (s : State) (n : AxisId) (f : AxisMotion → AxisMotion) : (s.modMot n f).pending = s.pending := rfl
@[simp] theorem modMot_dev (s : State) (n : AxisId) (f : AxisMotion → AxisMotion) : (s.modMot n f).dev = s.dev := rfl
@[simp] theorem modMot_nvm (s : State) (n : AxisId) (f : AxisMotion → AxisMotion) : (s.modMot n f).nvm = s.nvm := rfl
@[simp] theorem modMot_tb (s : State) (n : AxisId) (f : AxisMotion → AxisMotion) : (s.modMot n f).tb = s.tb := rfl
@[simp] theorem modMot_coils (s : State) (n : AxisId) (f : AxisMotion → AxisMotion) : (s.modMot n f).coils = s.coils := rfl
@[simp] theorem modMot_legs (s : State) (n : AxisId) (f : AxisMotion → AxisMotion) : (s.modMot n f).legs = s.legs := rfl
@[simp] theorem modMot_adcs (s : State) (n : AxisId) (f : AxisMotion → AxisMotion) : (s.modMot n f).adcs = s.adcs := rfl
@[simp] theorem modMot_groups (s : State) (n : AxisId) (f : AxisMotion → AxisMotion) : (s.modMot n f).groups = s.groups := rfl
@[simp] theorem modMot_pins (s : State) (n : AxisId) (f : AxisMotion → AxisMotion) : (s.modMot n f).pins = s.pins := rfl
@[simp] theorem modMot_tables (s : State) (n : AxisId) (f : AxisMotion → AxisMotion) : (s.modMot n f).tables = s.tables := rfl
@[simp] theorem modMot_q (s : State) (n : AxisId) (f : AxisMotion → AxisMotion) : (s.modMot n f).q = s.q := rfl
@[simp] theorem modMot_hp (s : State) (n : AxisId) (f : AxisMotion → AxisMotion) : (s.modMot n f).hp = s.hp := rfl
@[simp] theorem modMot_sb (s : State) (n : AxisId) (f : AxisMotion → AxisMotion) : (s.modMot n f).sb = s.sb := rfl
@[simp] theorem modMot_mp (s : State) (n : AxisId) (f : AxisMotion → AxisMotion) : (s.modMot n f).mp = s.mp := rfl
@[simp] theorem modMot_coil (s : State) (n : AxisId) (f : AxisMotion → AxisMotion) (i : CoilId) : (s.modMot n f).coil i = s.coil i := rfl
@[simp] theorem modMot_leg (s : State) (n : AxisId) (f : AxisMotion → AxisMotion) (i : LegId) : (s.modMot n f).leg i = s.leg i := rfl
@[simp] theorem modMot_adc (s : State) (n : AxisId) (f : AxisMotion → AxisMotion) (i : AdcId) : (s.modMot n f).adc i = s.adc i := rfl
@[simp] theorem modMot_grp (s : State) (n : AxisId) (f : AxisMotion → AxisMotion) (i : GroupId) : (s.modMot n f).grp i = s.grp i := rfl
@[simp] theorem modMot_pin (s : State) (n : AxisId) (f : AxisMotion → AxisMotion) (i : PinId) : (s.modMot n f).pin i = s.pin i := rfl

/-! ### modDrv -/

@[simp] theorem modDrv_pending (s : State) (n : AxisId) (f : AxisDrive → AxisDrive) : (s.modDrv n f).pending = s.pending := rfl
@[simp] theorem modDrv_dev (s : State) (n : AxisId) (f : AxisDrive → AxisDrive) : (s.modDrv n f).dev = s.dev := rfl
@[simp] theorem modDrv_nvm (s : State) (n : AxisId) (f : AxisDrive → AxisDrive) : (s.modDrv n f).nvm = s.nvm := rfl
@[simp] theorem modDrv_tb (s : State) (n : AxisId) (f : AxisDrive → AxisDrive) : (s.modDrv n f).tb = s.tb := rfl
@[simp] theorem modDrv_coils (s : State) (n : AxisId) (f : AxisDrive → AxisDrive) : (s.modDrv n f).coils = s.coils := rfl
@[simp] theorem modDrv_legs (s : State) (n : AxisId) (f : AxisDrive → AxisDrive) : (s.modDrv n f).legs = s.legs := rfl
@[simp] theorem modDrv_adcs (s : State) (n : AxisId) (f : AxisDrive → AxisDrive) : (s.modDrv n f).adcs = s.adcs := rfl
@[simp] theorem modDrv_groups (s : State) (n : AxisId) (f : AxisDrive → AxisDrive) : (s.modDrv n f).groups = s.groups := rfl
@[simp] theorem modDrv_pins (s : State) (n : AxisId) (f : AxisDrive → AxisDrive) : (s.modDrv n f).pins = s.pins := rfl
@[simp] theorem modDrv_tables (s : State) (n : AxisId) (f : AxisDrive → AxisDrive) : (s.modDrv n f).tables = s.tables := rfl
@[simp] theorem modDrv_q (s : State) (n : AxisId) (f : AxisDrive → AxisDrive) : (s.modDrv n f).q = s.q := rfl
@[simp] theorem modDrv_hp (s : State) (n : AxisId) (f : AxisDrive → AxisDrive) : (s.modDrv n f).hp = s.hp := rfl
@[simp] theorem modDrv_sb (s : State) (n : AxisId) (f : AxisDrive → AxisDrive) : (s.modDrv n f).sb = s.sb := rfl
@[simp] theorem modDrv_mp (s : State) (n : AxisId) (f : AxisDrive → AxisDrive) : (s.modDrv n f).mp = s.mp := rfl
@[simp] theorem modDrv_coil (s : State) (n : AxisId) (f : AxisDrive → AxisDrive) (i : CoilId) : (s.modDrv n f).coil i = s.coil i := rfl
@[simp] theorem modDrv_leg (s : State) (n : AxisId) (f : AxisDrive → AxisDrive) (i : LegId) : (s.modDrv n f).leg i = s.leg i := rfl
@[simp] theorem modDrv_adc (s : State) (n : AxisId) (f : AxisDrive → AxisDrive) (i : AdcId) : (s.modDrv n f).adc i = s.adc i := rfl
@[simp] theorem modDrv_grp (s : State) (n : AxisId) (f : AxisDrive → AxisDrive) (i : GroupId) : (s.modDrv n f).grp i = s.grp i := rfl
@[simp] theorem modDrv_pin (s : State) (n : AxisId) (f : AxisDrive → AxisDrive) (i : PinId) : (s.modDrv n f).pin i = s.pin i := rfl

/-! ### modEnc -/

@[simp] theorem modEnc_pending (s : State) (n : AxisId) (f : AxisEnc → AxisEnc) : (s.modEnc n f).pending = s.pending := rfl
@[simp] theorem modEnc_dev (s : State) (n : AxisId) (f : AxisEnc → AxisEnc) : (s.modEnc n f).dev = s.dev := rfl
@[simp] theorem modEnc_nvm (s : State) (n : AxisId) (f : AxisEnc → AxisEnc) : (s.modEnc n f).nvm = s.nvm := rfl
@[simp] theorem modEnc_tb (s : State) (n : AxisId) (f : AxisEnc → AxisEnc) : (s.modEnc n f).tb = s.tb := rfl
@[simp] theorem modEnc_coils (s : State) (n : AxisId) (f : AxisEnc → AxisEnc) : (s.modEnc n f).coils = s.coils := rfl
@[simp] theorem modEnc_legs (s : State) (n : AxisId) (f : AxisEnc → AxisEnc) : (s.modEnc n f).legs = s.legs := rfl
@[simp] theorem modEnc_adcs (s : State) (n : AxisId) (f : AxisEnc → AxisEnc) : (s.modEnc n f).adcs = s.adcs := rfl
@[simp] theorem modEnc_groups (s : State) (n : AxisId) (f : AxisEnc → AxisEnc) : (s.modEnc n f).groups = s.groups := rfl
@[simp] theorem modEnc_pins (s : State) (n : AxisId) (f : AxisEnc → AxisEnc) : (s.modEnc n f).pins = s.pins := rfl
@[simp] theorem modEnc_tables (s : State) (n : AxisId) (f : AxisEnc → AxisEnc) : (s.modEnc n f).tables = s.tables := rfl
@[simp] theorem modEnc_q (s : State) (n : AxisId) (f : AxisEnc → AxisEnc) : (s.modEnc n f).q = s.q := rfl
@[simp] theorem modEnc_hp (s : State) (n : AxisId) (f : AxisEnc → AxisEnc) : (s.modEnc n f).hp = s.hp := rfl
@[simp] theorem modEnc_sb (s : State) (n : AxisId) (f : AxisEnc → AxisEnc) : (s.modEnc n f).sb = s.sb := rfl
@[simp] theorem modEnc_mp (s : State) (n : AxisId) (f : AxisEnc → AxisEnc) : (s.modEnc n f).mp = s.mp := rfl
@[simp] theorem modEnc_coil (s : State) (n : AxisId) (f : AxisEnc → AxisEnc) (i : CoilId) : (s.modEnc n f).coil i = s.coil i := rfl
@[simp] theorem modEnc_leg (s : State) (n : AxisId) (f : AxisEnc → AxisEnc) (i : LegId) : (s.modEnc n f).leg i = s.leg i := rfl
@[simp] theorem modEnc_adc (s : State) (n : AxisId) (f : AxisEnc → AxisEnc) (i : AdcId) : (s.modEnc n f).adc i = s.adc i := rfl
@[simp] theorem modEnc_grp (s : State) (n : AxisId) (f : AxisEnc → AxisEnc) (i : GroupId) : (s.modEnc n f).grp i = s.grp i := rfl
@[simp] theorem modEnc_pin (s : State) (n : AxisId) (f : AxisEnc → AxisEnc) (i : PinId) : (s.modEnc n f).pin i = s.pin i := rfl

/-! ### modObs -/

@[simp] theorem modObs_pending (s : State) (n : AxisId) (f : AxisObs → AxisObs) : (s.modObs n f).pending = s.pending := rfl
@[simp] theorem modObs_dev (s : State) (n : AxisId) (f : AxisObs → AxisObs) : (s.modObs n f).dev = s.dev := rfl
@[simp] theorem modObs_nvm (s : State) (n : AxisId) (f : AxisObs → AxisObs) : (s.modObs n f).nvm = s.nvm := rfl
@[simp] theorem modObs_tb (s : State) (n : AxisId) (f : AxisObs → AxisObs) : (s.modObs n f).tb = s.tb := rfl
@[simp] theorem modObs_coils (s : State) (n : AxisId) (f : AxisObs → AxisObs) : (s.modObs n f).coils = s.coils := rfl
@[simp] theorem modObs_legs (s : State) (n : AxisId) (f : AxisObs → AxisObs) : (s.modObs n f).legs = s.legs := rfl
@[simp] theorem modObs_adcs (s : State) (n : AxisId) (f : AxisObs → AxisObs) : (s.modObs n f).adcs = s.adcs := rfl
@[simp] theorem modObs_groups (s : State) (n : AxisId) (f : AxisObs → AxisObs) : (s.modObs n f).groups = s.groups := rfl
@[simp] theorem modObs_pins (s : State) (n : AxisId) (f : AxisObs → AxisObs) : (s.modObs n f).pins = s.pins := rfl
@[simp] theorem modObs_tables (s : State) (n : AxisId) (f : AxisObs → AxisObs) : (s.modObs n f).tables = s.tables := rfl
@[simp] theorem modObs_q (s : State) (n : AxisId) (f : AxisObs → AxisObs) : (s.modObs n f).q = s.q := rfl
@[simp] theorem modObs_hp (s : State) (n : AxisId) (f : AxisObs → AxisObs) : (s.modObs n f).hp = s.hp := rfl
@[simp] theorem modObs_sb (s : State) (n : AxisId) (f : AxisObs → AxisObs) : (s.modObs n f).sb = s.sb := rfl
@[simp] theorem modObs_mp (s : State) (n : AxisId) (f : AxisObs → AxisObs) : (s.modObs n f).mp = s.mp := rfl
@[simp] theorem modObs_coil (s : State) (n : AxisId) (f : AxisObs → AxisObs) (i : CoilId) : (s.modObs n f).coil i = s.coil i := rfl
@[simp] theorem modObs_leg (s : State) (n : AxisId) (f : AxisObs → AxisObs) (i : LegId) : (s.modObs n f).leg i = s.leg i := rfl
@[simp] theorem modObs_adc (s : State) (n : AxisId) (f : AxisObs → AxisObs) (i : AdcId) : (s.modObs n f).adc i = s.adc i := rfl
@[simp] theorem modObs_grp (s : State) (n : AxisId) (f : AxisObs → AxisObs) (i : GroupId) : (s.modObs n f).grp i = s.grp i := rfl
@[simp] theorem modObs_pin (s : State) (n : AxisId) (f : AxisObs → AxisObs) (i : PinId) : (s.modObs n f).pin i = s.pin i := rfl

/-! ### modProt -/

@[simp] theorem modProt_pending (s : State) (n : AxisId) (f : AxisProt → AxisProt) : (s.modProt n f).pending = s.pending := rfl
@[simp] theorem modProt_dev (s : State) (n : AxisId) (f : AxisProt → AxisProt) : (s.modProt n f).dev = s.dev := rfl
@[simp] theorem modProt_nvm (s : State) (n : AxisId) (f : AxisProt → AxisProt) : (s.modProt n f).nvm = s.nvm := rfl
@[simp] theorem modProt_tb (s : State) (n : AxisId) (f : AxisProt → AxisProt) : (s.modProt n f).tb = s.tb := rfl
@[simp] theorem modProt_coils (s : State) (n : AxisId) (f : AxisProt → AxisProt) : (s.modProt n f).coils = s.coils := rfl
@[simp] theorem modProt_legs (s : State) (n : AxisId) (f : AxisProt → AxisProt) : (s.modProt n f).legs = s.legs := rfl
@[simp] theorem modProt_adcs (s : State) (n : AxisId) (f : AxisProt → AxisProt) : (s.modProt n f).adcs = s.adcs := rfl
@[simp] theorem modProt_groups (s : State) (n : AxisId) (f : AxisProt → AxisProt) : (s.modProt n f).groups = s.groups := rfl
@[simp] theorem modProt_pins (s : State) (n : AxisId) (f : AxisProt → AxisProt) : (s.modProt n f).pins = s.pins := rfl
@[simp] theorem modProt_tables (s : State) (n : AxisId) (f : AxisProt → AxisProt) : (s.modProt n f).tables = s.tables := rfl
@[simp] theorem modProt_q (s : State) (n : AxisId) (f : AxisProt → AxisProt) : (s.modProt n f).q = s.q := rfl
@[simp] theorem modProt_hp (s : State) (n : AxisId) (f : AxisProt → AxisProt) : (s.modProt n f).hp = s.hp := rfl
@[simp] theorem modProt_sb (s : State) (n : AxisId) (f : AxisProt → AxisProt) : (s.modProt n f).sb = s.sb := rfl
@[simp] theorem modProt_mp (s : State) (n : AxisId) (f : AxisProt → AxisProt) : (s.modProt n f).mp = s.mp := rfl
@[simp] theorem modProt_coil (s : State) (n : AxisId) (f : AxisProt → AxisProt) (i : CoilId) : (s.modProt n f).coil i = s.coil i := rfl
@[simp] theorem modProt_leg (s : State) (n : AxisId) (f : AxisProt → AxisProt) (i : LegId) : (s.modProt n f).leg i = s.leg i := rfl
@[simp] theorem modProt_adc (s : State) (n : AxisId) (f : AxisProt → AxisProt) (i : AdcId) : (s.modProt n f).adc i = s.adc i := rfl
@[simp] theorem modProt_grp (s : State) (n : AxisId) (f : AxisProt → AxisProt) (i : GroupId) : (s.modProt n f).grp i = s.grp i := rfl
@[simp] theorem modProt_pin (s : State) (n : AxisId) (f : AxisProt → AxisProt) (i : PinId) : (s.modProt n f).pin i = s.pin i := rfl

/-! ### modCoil -/

@[simp] theorem modCoil_pending (s : State) (c : CoilId) (f : Coil → Coil) : (s.modCoil c f).pending = s.pending := rfl
@[simp] theorem modCoil_dev (s : State) (c : CoilId) (f : Coil → Coil) : (s.modCoil c f).dev = s.dev := rfl
@[simp] theorem modCoil_nvm (s : State) (c : CoilId) (f : Coil → Coil) : (s.modCoil c f).nvm = s.nvm := rfl
@[simp] theorem modCoil_tb (s : State) (c : CoilId) (f : Coil → Coil) : (s.modCoil c f).tb = s.tb := rfl
@[simp] theorem modCoil_axes (s : State) (c : CoilId) (f : Coil → Coil) : (s.modCoil c f).axes = s.axes := rfl
@[simp] theorem modCoil_legs (s : State) (c : CoilId) (f : Coil → Coil) : (s.modCoil c f).legs = s.legs := rfl
@[simp] theorem modCoil_adcs (s : State) (c : CoilId) (f : Coil → Coil) : (s.modCoil c f).adcs = s.adcs := rfl
@[simp] theorem modCoil_groups (s : State) (c : CoilId) (f : Coil → Coil) : (s.modCoil c f).groups = s.groups := rfl
@[simp] theorem modCoil_pins (s : State) (c : CoilId) (f : Coil → Coil) : (s.modCoil c f).pins = s.pins := rfl
@[simp] theorem modCoil_tables (s : State) (c : CoilId) (f : Coil → Coil) : (s.modCoil c f).tables = s.tables := rfl
@[simp] theorem modCoil_q (s : State) (c : CoilId) (f : Coil → Coil) : (s.modCoil c f).q = s.q := rfl
@[simp] theorem modCoil_hp (s : State) (c : CoilId) (f : Coil → Coil) : (s.modCoil c f).hp = s.hp := rfl
@[simp] theorem modCoil_sb (s : State) (c : CoilId) (f : Coil → Coil) : (s.modCoil c f).sb = s.sb := rfl
@[simp] theorem modCoil_mp (s : State) (c : CoilId) (f : Coil → Coil) : (s.modCoil c f).mp = s.mp := rfl
@[simp] theorem modCoil_ax (s : State) (c : CoilId) (f : Coil → Coil) (i : AxisId) : (s.modCoil c f).ax i = s.ax i := rfl
@[simp] theorem modCoil_leg (s : State) (c : CoilId) (f : Coil → Coil) (i : LegId) : (s.modCoil c f).leg i = s.leg i := rfl
@[simp] theorem modCoil_adc (s : State) (c : CoilId) (f : Coil → Coil) (i : AdcId) : (s.modCoil c f).adc i = s.adc i := rfl
@[simp] theorem modCoil_grp (s : State) (c : CoilId) (f : Coil → Coil) (i : GroupId) : (s.modCoil c f).grp i = s.grp i := rfl
@[simp] theorem modCoil_pin (s : State) (c : CoilId) (f : Coil → Coil) (i : PinId) : (s.modCoil c f).pin i = s.pin i := rfl

/-! ### modLeg -/

@[simp] theorem modLeg_pending (s : State) (m : LegId) (f : Leg → Leg) : (s.modLeg m f).pending = s.pending := rfl
@[simp] theorem modLeg_dev (s : State) (m : LegId) (f : Leg → Leg) : (s.modLeg m f).dev = s.dev := rfl
@[simp] theorem modLeg_nvm (s : State) (m : LegId) (f : Leg → Leg) : (s.modLeg m f).nvm = s.nvm := rfl
@[simp] theorem modLeg_tb (s : State) (m : LegId) (f : Leg → Leg) : (s.modLeg m f).tb = s.tb := rfl
@[simp] theorem modLeg_axes (s : State) (m : LegId) (f : Leg → Leg) : (s.modLeg m f).axes = s.axes := rfl
@[simp] theorem modLeg_coils (s : State) (m : LegId) (f : Leg → Leg) : (s.modLeg m f).coils = s.coils := rfl
@[simp] theorem modLeg_adcs (s : State) (m : LegId) (f : Leg → Leg) : (s.modLeg m f).adcs = s.adcs := rfl
@[simp] theorem modLeg_groups (s : State) (m : LegId) (f : Leg → Leg) : (s.modLeg m f).groups = s.groups := rfl
@[simp] theorem modLeg_pins (s : State) (m : LegId) (f : Leg → Leg) : (s.modLeg m f).pins = s.pins := rfl
@[simp] theorem modLeg_tables (s : State) (m : LegId) (f : Leg → Leg) : (s.modLeg m f).tables = s.tables := rfl
@[simp] theorem modLeg_q (s : State) (m : LegId) (f : Leg → Leg) : (s.modLeg m f).q = s.q := rfl
@[simp] theorem modLeg_hp (s : State) (m : LegId) (f : Leg → Leg) : (s.modLeg m f).hp = s.hp := rfl
@[simp] theorem modLeg_sb (s : State) (m : LegId) (f : Leg → Leg) : (s.modLeg m f).sb = s.sb := rfl
@[simp] theorem modLeg_mp (s : State) (m : LegId) (f : Leg → Leg) : (s.modLeg m f).mp = s.mp := rfl
@[simp] theorem modLeg_ax (s : State) (m : LegId) (f : Leg → Leg) (i : AxisId) : (s.modLeg m f).ax i = s.ax i := rfl
@[simp] theorem modLeg_coil (s : State) (m : LegId) (f : Leg → Leg) (i : CoilId) : (s.modLeg m f).coil i = s.coil i := rfl
@[simp] theorem modLeg_adc (s : State) (m : LegId) (f : Leg → Leg) (i : AdcId) : (s.modLeg m f).adc i = s.adc i := rfl
@[simp] theorem modLeg_grp (s : State) (m : LegId) (f : Leg → Leg) (i : GroupId) : (s.modLeg m f).grp i = s.grp i := rfl
@[simp] theorem modLeg_pin (s : State) (m : LegId) (f : Leg → Leg) (i : PinId) : (s.modLeg m f).pin i = s.pin i := rfl

/-! ### modAdc -/

@[simp] theorem modAdc_pending (s : State) (a : AdcId) (f : Adc → Adc) : (s.modAdc a f).pending = s.pending := rfl
@[simp] theorem modAdc_dev (s : State) (a : AdcId) (f : Adc → Adc) : (s.modAdc a f).dev = s.dev := rfl
@[simp] theorem modAdc_nvm (s : State) (a : AdcId) (f : Adc → Adc) : (s.modAdc a f).nvm = s.nvm := rfl
@[simp] theorem modAdc_tb (s : State) (a : AdcId) (f : Adc → Adc) : (s.modAdc a f).tb = s.tb := rfl
@[simp] theorem modAdc_axes (s : State) (a : AdcId) (f : Adc → Adc) : (s.modAdc a f).axes = s.axes := rfl
@[simp] theorem modAdc_coils (s : State) (a : AdcId) (f : Adc → Adc) : (s.modAdc a f).coils = s.coils := rfl
@[simp] theorem modAdc_legs (s : State) (a : AdcId) (f : Adc → Adc) : (s.modAdc a f).legs = s.legs := rfl
@[simp] theorem modAdc_groups (s : State) (a : AdcId) (f : Adc → Adc) : (s.modAdc a f).groups = s.groups := rfl
@[simp] theorem modAdc_pins (s : State) (a : AdcId) (f : Adc → Adc) : (s.modAdc a f).pins = s.pins := rfl
@[simp] theorem modAdc_tables (s : State) (a : AdcId) (f : Adc → Adc) : (s.modAdc a f).tables = s.tables := rfl
@[simp] theorem modAdc_q (s : State) (a : AdcId) (f : Adc → Adc) : (s.modAdc a f).q = s.q := rfl
@[simp] theorem modAdc_hp (s : State) (a : AdcId) (f : Adc → Adc) : (s.modAdc a f).hp = s.hp := rfl
@[simp] theorem modAdc_sb (s : State) (a : AdcId) (f : Adc → Adc) : (s.modAdc a f).sb = s.sb := rfl
@[simp] theorem modAdc_mp (s : State) (a : AdcId) (f : Adc → Adc) : (s.modAdc a f).mp = s.mp := rfl
@[simp] theorem modAdc_ax (s : State) (a : AdcId) (f : Adc → Adc) (i : AxisId) : (s.modAdc a f).ax i = s.ax i := rfl
@[simp] theorem modAdc_coil (s : State) (a : AdcId) (f : Adc → Adc) (i : CoilId) : (s.modAdc a f).coil i = s.coil i := rfl
@[simp] theorem modAdc_leg (s : State) (a : AdcId) (f : Adc → Adc) (i : LegId) : (s.modAdc a f).leg i = s.leg i := rfl
@[simp] theorem modAdc_grp (s : State) (a : AdcId) (f : Adc → Adc) (i : GroupId) : (s.modAdc a f).grp i = s.grp i := rfl
@[simp] theorem modAdc_pin (s : State) (a : AdcId) (f : Adc → Adc) (i : PinId) : (s.modAdc a f).pin i = s.pin i := rfl

/-! ### modGroup -/

@[simp] theorem modGroup_pending (s : State) (g : GroupId) (f : Group → Group) : (s.modGroup g f).pending = s.pending := rfl
@[simp] theorem modGroup_dev (s : State) (g : GroupId) (f : Group → Group) : (s.modGroup g f).dev = s.dev := rfl
@[simp] theorem modGroup_nvm (s : State) (g : GroupId) (f : Group → Group) : (s.modGroup g f).nvm = s.nvm := rfl
@[simp] theorem modGroup_tb (s : State) (g : GroupId) (f : Group → Group) : (s.modGroup g f).tb = s.tb := rfl
@[simp] theorem modGroup_axes (s : State) (g : GroupId) (f : Group → Group) : (s.modGroup g f).axes = s.axes := rfl
@[simp] theorem modGroup_coils (s : State) (g : GroupId) (f : Group → Group) : (s.modGroup g f).coils = s.coils := rfl
@[simp] theorem modGroup_legs (s : State) (g : GroupId) (f : Group → Group) : (s.modGroup g f).legs = s.legs := rfl
@[simp] theorem modGroup_adcs (s : State) (g : GroupId) (f : Group → Group) : (s.modGroup g f).adcs = s.adcs := rfl
@[simp] theorem modGroup_pins (s : State) (g : GroupId) (f : Group → Group) : (s.modGroup g f).pins = s.pins := rfl
@[simp] theorem modGroup_tables (s : State) (g : GroupId) (f : Group → Group) : (s.modGroup g f).tables = s.tables := rfl
@[simp] theorem modGroup_q (s : State) (g : GroupId) (f : Group → Group) : (s.modGroup g f).q = s.q := rfl
@[simp] theorem modGroup_hp (s : State) (g : GroupId) (f : Group → Group) : (s.modGroup g f).hp = s.hp := rfl
@[simp] theorem modGroup_sb (s : State) (g : GroupId) (f : Group → Group) : (s.modGroup g f).sb = s.sb := rfl
@[simp] theorem modGroup_mp (s : State) (g : GroupId) (f : Group → Group) : (s.modGroup g f).mp = s.mp := rfl
@[simp] theorem modGroup_ax (s : State) (g : GroupId) (f : Group → Group) (i : AxisId) : (s.modGroup g f).ax i = s.ax i := rfl
@[simp] theorem modGroup_coil (s : State) (g : GroupId) (f : Group → Group) (i : CoilId) : (s.modGroup g f).coil i = s.coil i := rfl
@[simp] theorem modGroup_leg (s : State) (g : GroupId) (f : Group → Group) (i : LegId) : (s.modGroup g f).leg i = s.leg i := rfl
@[simp] theorem modGroup_adc (s : State) (g : GroupId) (f : Group → Group) (i : AdcId) : (s.modGroup g f).adc i = s.adc i := rfl
@[simp] theorem modGroup_pin (s : State) (g : GroupId) (f : Group → Group) (i : PinId) : (s.modGroup g f).pin i = s.pin i := rfl

/-! ### modPin -/

@[simp] theorem modPin_pending (s : State) (p : PinId) (f : Pin → Pin) : (s.modPin p f).pending = s.pending := rfl
@[simp] theorem modPin_dev (s : State) (p : PinId) (f : Pin → Pin) : (s.modPin p f).dev = s.dev := rfl
@[simp] theorem modPin_nvm (s : State) (p : PinId) (f : Pin → Pin) : (s.modPin p f).nvm = s.nvm := rfl
@[simp] theorem modPin_tb (s : State) (p : PinId) (f : Pin → Pin) : (s.modPin p f).tb = s.tb := rfl
@[simp] theorem modPin_axes (s : State) (p : PinId) (f : Pin → Pin) : (s.modPin p f).axes = s.axes := rfl
@[simp] theorem modPin_coils (s : State) (p : PinId) (f : Pin → Pin) : (s.modPin p f).coils = s.coils := rfl
@[simp] theorem modPin_legs (s : State) (p : PinId) (f : Pin → Pin) : (s.modPin p f).legs = s.legs := rfl
@[simp] theorem modPin_adcs (s : State) (p : PinId) (f : Pin → Pin) : (s.modPin p f).adcs = s.adcs := rfl
@[simp] theorem modPin_groups (s : State) (p : PinId) (f : Pin → Pin) : (s.modPin p f).groups = s.groups := rfl
@[simp] theorem modPin_tables (s : State) (p : PinId) (f : Pin → Pin) : (s.modPin p f).tables = s.tables := rfl
@[simp] theorem modPin_q (s : State) (p : PinId) (f : Pin → Pin) : (s.modPin p f).q = s.q := rfl
@[simp] theorem modPin_hp (s : State) (p : PinId) (f : Pin → Pin) : (s.modPin p f).hp = s.hp := rfl
@[simp] theorem modPin_sb (s : State) (p : PinId) (f : Pin → Pin) : (s.modPin p f).sb = s.sb := rfl
@[simp] theorem modPin_mp (s : State) (p : PinId) (f : Pin → Pin) : (s.modPin p f).mp = s.mp := rfl
@[simp] theorem modPin_ax (s : State) (p : PinId) (f : Pin → Pin) (i : AxisId) : (s.modPin p f).ax i = s.ax i := rfl
@[simp] theorem modPin_coil (s : State) (p : PinId) (f : Pin → Pin) (i : CoilId) : (s.modPin p f).coil i = s.coil i := rfl
@[simp] theorem modPin_leg (s : State) (p : PinId) (f : Pin → Pin) (i : LegId) : (s.modPin p f).leg i = s.leg i := rfl
@[simp] theorem modPin_adc (s : State) (p : PinId) (f : Pin → Pin) (i : AdcId) : (s.modPin p f).adc i = s.adc i := rfl
@[simp] theorem modPin_grp (s : State) (p : PinId) (f : Pin → Pin) (i : GroupId) : (s.modPin p f).grp i = s.grp i := rfl

/-! ### modTable -/

@[simp] theorem modTable_pending (s : State) (t : Fin 4) (f : MicroTable → MicroTable) : (s.modTable t f).pending = s.pending := rfl
@[simp] theorem modTable_dev (s : State) (t : Fin 4) (f : MicroTable → MicroTable) : (s.modTable t f).dev = s.dev := rfl
@[simp] theorem modTable_nvm (s : State) (t : Fin 4) (f : MicroTable → MicroTable) : (s.modTable t f).nvm = s.nvm := rfl
@[simp] theorem modTable_tb (s : State) (t : Fin 4) (f : MicroTable → MicroTable) : (s.modTable t f).tb = s.tb := rfl
@[simp] theorem modTable_axes (s : State) (t : Fin 4) (f : MicroTable → MicroTable) : (s.modTable t f).axes = s.axes := rfl
@[simp] theorem modTable_coils (s : State) (t : Fin 4) (f : MicroTable → MicroTable) : (s.modTable t f).coils = s.coils := rfl
@[simp] theorem modTable_legs (s : State) (t : Fin 4) (f : MicroTable → MicroTable) : (s.modTable t f).legs = s.legs := rfl
@[simp] theorem modTable_adcs (s : State) (t : Fin 4) (f : MicroTable → MicroTable) : (s.modTable t f).adcs = s.adcs := rfl
@[simp] theorem modTable_groups (s : State) (t : Fin 4) (f : MicroTable → MicroTable) : (s.modTable t f).groups = s.groups := rfl
@[simp] theorem modTable_pins (s : State) (t : Fin 4) (f : MicroTable → MicroTable) : (s.modTable t f).pins = s.pins := rfl
@[simp] theorem modTable_q (s : State) (t : Fin 4) (f : MicroTable → MicroTable) : (s.modTable t f).q = s.q := rfl
@[simp] theorem modTable_hp (s : State) (t : Fin 4) (f : MicroTable → MicroTable) : (s.modTable t f).hp = s.hp := rfl
@[simp] theorem modTable_sb (s : State) (t : Fin 4) (f : MicroTable → MicroTable) : (s.modTable t f).sb = s.sb := rfl
@[simp] theorem modTable_mp (s : State) (t : Fin 4) (f : MicroTable → MicroTable) : (s.modTable t f).mp = s.mp := rfl
@[simp] theorem modTable_ax (s : State) (t : Fin 4) (f : MicroTable → MicroTable) (i : AxisId) : (s.modTable t f).ax i = s.ax i := rfl
@[simp] theorem modTable_coil (s : State) (t : Fin 4) (f : MicroTable → MicroTable) (i : CoilId) : (s.modTable t f).coil i = s.coil i := rfl
@[simp] theorem modTable_leg (s : State) (t : Fin 4) (f : MicroTable → MicroTable) (i : LegId) : (s.modTable t f).leg i = s.leg i := rfl
@[simp] theorem modTable_adc (s : State) (t : Fin 4) (f : MicroTable → MicroTable) (i : AdcId) : (s.modTable t f).adc i = s.adc i := rfl
@[simp] theorem modTable_grp (s : State) (t : Fin 4) (f : MicroTable → MicroTable) (i : GroupId) : (s.modTable t f).grp i = s.grp i := rfl
@[simp] theorem modTable_pin (s : State) (t : Fin 4) (f : MicroTable → MicroTable) (i : PinId) : (s.modTable t f).pin i = s.pin i := rfl

/-! ### Reading what was written -/

@[simp] theorem modAxis_ax_self (s : State) (n : AxisId) (f : Axis → Axis) : (s.modAxis n f).ax n = f (s.ax n) :=
  upd_self _ _ _
theorem modAxis_ax_other (s : State) (n k : AxisId) (f : Axis → Axis) (h : k ≠ n) : (s.modAxis n f).ax k = s.ax k :=
  upd_other _ _ _ _ h
@[simp] theorem modCfg_ax_self (s : State) (n : AxisId) (f : AxisCfg → AxisCfg) : (s.modCfg n f).ax n = { s.ax n with cfg := f (s.ax n).cfg } :=
  upd_self _ _ _
theorem modCfg_ax_other (s : State) (n k : AxisId) (f : AxisCfg → AxisCfg) (h : k ≠ n) : (s.modCfg n f).ax k = s.ax k :=
  upd_other _ _ _ _ h
@[simp] theorem modMot_ax_self (s : State) (n : AxisId) (f : AxisMotion → AxisMotion) : (s.modMot n f).ax n = { s.ax n with mot := f (s.ax n).mot } :=
  upd_self _ _ _
theorem modMot_ax_other (s : State) (n k : AxisId) (f : AxisMotion → AxisMotion) (h : k ≠ n) : (s.modMot n f).ax k = s.ax k :=
  upd_other _ _ _ _ h
@[simp] theorem modDrv_ax_self (s : State) (n : AxisId) (f : AxisDrive → AxisDrive) : (s.modDrv n f).ax n = { s.ax n with drv := f (s.ax n).drv } :=
  upd_self _ _ _
theorem modDrv_ax_other (s : State) (n k : AxisId) (f : AxisDrive → AxisDrive) (h : k ≠ n) : (s.modDrv n f).ax k = s.ax k :=
  upd_other _ _ _ _ h
@[simp] theorem modEnc_ax_self (s : State) (n : AxisId) (f : AxisEnc → AxisEnc) : (s.modEnc n f).ax n = { s.ax n with enc := f (s.ax n).enc } :=
  upd_self _ _ _
theorem modEnc_ax_other (s : State) (n k : AxisId) (f : AxisEnc → AxisEnc) (h : k ≠ n) : (s.modEnc n f).ax k = s.ax k :=
  upd_other _ _ _ _ h
@[simp] theorem modObs_ax_self (s : State) (n : AxisId) (f : AxisObs → AxisObs) : (s.modObs n f).ax n = { s.ax n with obs := f (s.ax n).obs } :=
  upd_self _ _ _
theorem modObs_ax_other (s : State) (n k : AxisId) (f : AxisObs → AxisObs) (h : k ≠ n) : (s.modObs n f).ax k = s.ax k :=
  upd_other _ _ _ _ h
@[simp] theorem modProt_ax_self (s : State) (n : AxisId) (f : AxisProt → AxisProt) : (s.modProt n f).ax n = { s.ax n with prot := f (s.ax n).prot } :=
  upd_self _ _ _
theorem modProt_ax_other (s : State) (n k : AxisId) (f : AxisProt → AxisProt) (h : k ≠ n) : (s.modProt n f).ax k = s.ax k :=
  upd_other _ _ _ _ h
@[simp] theorem modCoil_coil_self (s : State) (c : CoilId) (f : Coil → Coil) : (s.modCoil c f).coil c = f (s.coil c) :=
  upd_self _ _ _
theorem modCoil_coil_other (s : State) (c k : CoilId) (f : Coil → Coil) (h : k ≠ c) : (s.modCoil c f).coil k = s.coil k :=
  upd_other _ _ _ _ h
@[simp] theorem modLeg_leg_self (s : State) (m : LegId) (f : Leg → Leg) : (s.modLeg m f).leg m = f (s.leg m) :=
  upd_self _ _ _
theorem modLeg_leg_other (s : State) (m k : LegId) (f : Leg → Leg) (h : k ≠ m) : (s.modLeg m f).leg k = s.leg k :=
  upd_other _ _ _ _ h
@[simp] theorem modAdc_adc_self (s : State) (a : AdcId) (f : Adc → Adc) : (s.modAdc a f).adc a = f (s.adc a) :=
  upd_self _ _ _
theorem modAdc_adc_other (s : State) (a k : AdcId) (f : Adc → Adc) (h : k ≠ a) : (s.modAdc a f).adc k = s.adc k :=
  upd_other _ _ _ _ h
@[simp] theorem modGroup_grp_self (s : State) (g : GroupId) (f : Group → Group) : (s.modGroup g f).grp g = f (s.grp g) :=
  upd_self _ _ _
theorem modGroup_grp_other (s : State) (g k : GroupId) (f : Group → Group) (h : k ≠ g) : (s.modGroup g f).grp k = s.grp k :=
  upd_other _ _ _ _ h
@[simp] theorem modPin_pin_self (s : State) (p : PinId) (f : Pin → Pin) : (s.modPin p f).pin p = f (s.pin p) :=
  upd_self _ _ _
theorem modPin_pin_other (s : State) (p k : PinId) (f : Pin → Pin) (h : k ≠ p) : (s.modPin p f).pin k = s.pin k :=
  upd_other _ _ _ _ h

@[simp] theorem modCfg_mot (s : State) (n k : AxisId) (f : AxisCfg → AxisCfg) : ((s.modCfg n f).ax k).mot = (s.ax k).mot := by
  by_cases h : k = n
  · rw [h, modCfg_ax_self]
  · rw [modCfg_ax_other _ _ _ _ h]
@[simp] theorem modCfg_drv (s : State) (n k : AxisId) (f : AxisCfg → AxisCfg) : ((s.modCfg n f).ax k).drv = (s.ax k).drv := by
  by_cases h : k = n
  · rw [h, modCfg_ax_self]
  · rw [modCfg_ax_other _ _ _ _ h]
@[simp] theorem modCfg_enc (s : State) (n k : AxisId) (f : AxisCfg → AxisCfg) : ((s.modCfg n f).ax k).enc = (s.ax k).enc := by
  by_cases h : k = n
  · rw [h, modCfg_ax_self]
  · rw [modCfg_ax_other _ _ _ _ h]
@[simp] theorem modCfg_obs (s : State) (n k : AxisId) (f : AxisCfg → AxisCfg) : ((s.modCfg n f).ax k).obs = (s.ax k).obs := by
  by_cases h : k = n
  · rw [h, modCfg_ax_self]
  · rw [modCfg_ax_other _ _ _ _ h]
@[simp] theorem modCfg_prot (s : State) (n k : AxisId) (f : AxisCfg → AxisCfg) : ((s.modCfg n f).ax k).prot = (s.ax k).prot := by
  by_cases h : k = n
  · rw [h, modCfg_ax_self]
  · rw [modCfg_ax_other _ _ _ _ h]
@[simp] theorem modMot_cfg (s : State) (n k : AxisId) (f : AxisMotion → AxisMotion) : ((s.modMot n f).ax k).cfg = (s.ax k).cfg := by
  by_cases h : k = n
  · rw [h, modMot_ax_self]
  · rw [modMot_ax_other _ _ _ _ h]
@[simp] theorem modMot_drv (s : State) (n k : AxisId) (f : AxisMotion → AxisMotion) : ((s.modMot n f).ax k).drv = (s.ax k).drv := by
  by_cases h : k = n
  · rw [h, modMot_ax_self]
  · rw [modMot_ax_other _ _ _ _ h]
@[simp] theorem modMot_enc (s : State) (n k : AxisId) (f : AxisMotion → AxisMotion) : ((s.modMot n f).ax k).enc = (s.ax k).enc := by
  by_cases h : k = n
  · rw [h, modMot_ax_self]
  · rw [modMot_ax_other _ _ _ _ h]
@[simp] theorem modMot_obs (s : State) (n k : AxisId) (f : AxisMotion → AxisMotion) : ((s.modMot n f).ax k).obs = (s.ax k).obs := by
  by_cases h : k = n
  · rw [h, modMot_ax_self]
  · rw [modMot_ax_other _ _ _ _ h]
@[simp] theorem modMot_prot (s : State) (n k : AxisId) (f : AxisMotion → AxisMotion) : ((s.modMot n f).ax k).prot = (s.ax k).prot := by
  by_cases h : k = n
  · rw [h, modMot_ax_self]
  · rw [modMot_ax_other _ _ _ _ h]
@[simp] theorem modDrv_cfg (s : State) (n k : AxisId) (f : AxisDrive → AxisDrive) : ((s.modDrv n f).ax k).cfg = (s.ax k).cfg := by
  by_cases h : k = n
  · rw [h, modDrv_ax_self]
  · rw [modDrv_ax_other _ _ _ _ h]
@[simp] theorem modDrv_mot (s : State) (n k : AxisId) (f : AxisDrive → AxisDrive) : ((s.modDrv n f).ax k).mot = (s.ax k).mot := by
  by_cases h : k = n
  · rw [h, modDrv_ax_self]
  · rw [modDrv_ax_other _ _ _ _ h]
@[simp] theorem modDrv_enc (s : State) (n k : AxisId) (f : AxisDrive → AxisDrive) : ((s.modDrv n f).ax k).enc = (s.ax k).enc := by
  by_cases h : k = n
  · rw [h, modDrv_ax_self]
  · rw [modDrv_ax_other _ _ _ _ h]
@[simp] theorem modDrv_obs (s : State) (n k : AxisId) (f : AxisDrive → AxisDrive) : ((s.modDrv n f).ax k).obs = (s.ax k).obs := by
  by_cases h : k = n
  · rw [h, modDrv_ax_self]
  · rw [modDrv_ax_other _ _ _ _ h]
@[simp] theorem modDrv_prot (s : State) (n k : AxisId) (f : AxisDrive → AxisDrive) : ((s.modDrv n f).ax k).prot = (s.ax k).prot := by
  by_cases h : k = n
  · rw [h, modDrv_ax_self]
  · rw [modDrv_ax_other _ _ _ _ h]
@[simp] theorem modEnc_cfg (s : State) (n k : AxisId) (f : AxisEnc → AxisEnc) : ((s.modEnc n f).ax k).cfg = (s.ax k).cfg := by
  by_cases h : k = n
  · rw [h, modEnc_ax_self]
  · rw [modEnc_ax_other _ _ _ _ h]
@[simp] theorem modEnc_mot (s : State) (n k : AxisId) (f : AxisEnc → AxisEnc) : ((s.modEnc n f).ax k).mot = (s.ax k).mot := by
  by_cases h : k = n
  · rw [h, modEnc_ax_self]
  · rw [modEnc_ax_other _ _ _ _ h]
@[simp] theorem modEnc_drv (s : State) (n k : AxisId) (f : AxisEnc → AxisEnc) : ((s.modEnc n f).ax k).drv = (s.ax k).drv := by
  by_cases h : k = n
  · rw [h, modEnc_ax_self]
  · rw [modEnc_ax_other _ _ _ _ h]
@[simp] theorem modEnc_obs (s : State) (n k : AxisId) (f : AxisEnc → AxisEnc) : ((s.modEnc n f).ax k).obs = (s.ax k).obs := by
  by_cases h : k = n
  · rw [h, modEnc_ax_self]
  · rw [modEnc_ax_other _ _ _ _ h]
@[simp] theorem modEnc_prot (s : State) (n k : AxisId) (f : AxisEnc → AxisEnc) : ((s.modEnc n f).ax k).prot = (s.ax k).prot := by
  by_cases h : k = n
  · rw [h, modEnc_ax_self]
  · rw [modEnc_ax_other _ _ _ _ h]
@[simp] theorem modObs_cfg (s : State) (n k : AxisId) (f : AxisObs → AxisObs) : ((s.modObs n f).ax k).cfg = (s.ax k).cfg := by
  by_cases h : k = n
  · rw [h, modObs_ax_self]
  · rw [modObs_ax_other _ _ _ _ h]
@[simp] theorem modObs_mot (s : State) (n k : AxisId) (f : AxisObs → AxisObs) : ((s.modObs n f).ax k).mot = (s.ax k).mot := by
  by_cases h : k = n
  · rw [h, modObs_ax_self]
  · rw [modObs_ax_other _ _ _ _ h]
@[simp] theorem modObs_drv (s : State) (n k : AxisId) (f : AxisObs → AxisObs) : ((s.modObs n f).ax k).drv = (s.ax k).drv := by
  by_cases h : k = n
  · rw [h, modObs_ax_self]
  · rw [modObs_ax_other _ _ _ _ h]
@[simp] theorem modObs_enc (s : State) (n k : AxisId) (f : AxisObs → AxisObs) : ((s.modObs n f).ax k).enc = (s.ax k).enc := by
  by_cases h : k = n
  · rw [h, modObs_ax_self]
  · rw [modObs_ax_other _ _ _ _ h]
@[simp] theorem modObs_prot (s : State) (n k : AxisId) (f : AxisObs → AxisObs) : ((s.modObs n f).ax k).prot = (s.ax k).prot := by
  by_cases h : k = n
  · rw [h, modObs_ax_self]
  · rw [modObs_ax_other _ _ _ _ h]
@[simp] theorem modProt_cfg (s : State) (n k : AxisId) (f : AxisProt → AxisProt) : ((s.modProt n f).ax k).cfg = (s.ax k).cfg := by
  by_cases h : k = n
  · rw [h, modProt_ax_self]
  · rw [modProt_ax_other _ _ _ _ h]
@[simp] theorem modProt_mot (s : State) (n k : AxisId) (f : AxisProt → AxisProt) : ((s.modProt n f).ax k).mot = (s.ax k).mot := by
  by_cases h : k = n
  · rw [h, modProt_ax_self]
  · rw [modProt_ax_other _ _ _ _ h]
@[simp] theorem modProt_drv (s : State) (n k : AxisId) (f : AxisProt → AxisProt) : ((s.modProt n f).ax k).drv = (s.ax k).drv := by
  by_cases h : k = n
  · rw [h, modProt_ax_self]
  · rw [modProt_ax_other _ _ _ _ h]
@[simp] theorem modProt_enc (s : State) (n k : AxisId) (f : AxisProt → AxisProt) : ((s.modProt n f).ax k).enc = (s.ax k).enc := by
  by_cases h : k = n
  · rw [h, modProt_ax_self]
  · rw [modProt_ax_other _ _ _ _ h]
@[simp] theorem modProt_obs (s : State) (n k : AxisId) (f : AxisProt → AxisProt) : ((s.modProt n f).ax k).obs = (s.ax k).obs := by
  by_cases h : k = n
  · rw [h, modProt_ax_self]
  · rw [modProt_ax_other _ _ _ _ h]

/-! ### A vector of units read element by element -/

theorem axes_ext {s t : State} (h : ∀ n, s.ax n = t.ax n) : s.axes = t.axes := Vector.ext fun i hi => h ⟨i, hi⟩
theorem legs_ext {s t : State} (h : ∀ m, s.leg m = t.leg m) : s.legs = t.legs := Vector.ext fun i hi => h ⟨i, hi⟩
theorem coils_ext {s t : State} (h : ∀ c, s.coil c = t.coil c) : s.coils = t.coils := Vector.ext fun i hi => h ⟨i, hi⟩
theorem groups_ext {s t : State} (h : ∀ g, s.grp g = t.grp g) : s.groups = t.groups := Vector.ext fun i hi => h ⟨i, hi⟩
theorem pins_ext {s t : State} (h : ∀ p, s.pin p = t.pin p) : s.pins = t.pins := Vector.ext fun i hi => h ⟨i, hi⟩
theorem adcs_ext {s t : State} (h : ∀ a, s.adc a = t.adc a) : s.adcs = t.adcs := Vector.ext fun i hi => h ⟨i, hi⟩

/-! ### Effects on every element of a list -/

@[simp] theorem forAll_nil {α : Type} (s : State) (f : State → α → State) : s.forAll [] f = s := rfl
@[simp] theorem forAll_cons {α : Type} (s : State) (a : α) (l : List α) (f : State → α → State) :
    s.forAll (a :: l) f = (f s a).forAll l f := rfl
theorem forAll_append {α : Type} (s : State) (l k : List α) (f : State → α → State) : s.forAll (l ++ k) f = (s.forAll l f).forAll k f :=
  List.foldl_append

/-- What every element's effect keeps, all of them keep. -/
theorem forAll_keeps {α : Type} (P : State → Prop) (l : List α) (f : State → α → State) (hf : ∀ s a, a ∈ l → P s → P (f s a)) (s : State)
    (h : P s) : P (s.forAll l f) := by
  induction l generalizing s with
  | nil => exact h
  | cons a l ih => exact ih (fun s b hb => hf s b (List.mem_cons_of_mem a hb)) _ (hf s a List.mem_cons_self h)

/-- A quantity that no element's effect changes. -/
theorem forAll_same {α β : Type} (g : State → β) (l : List α) (f : State → α → State) (hf : ∀ s a, a ∈ l → g (f s a) = g s) (s : State) :
    g (s.forAll l f) = g s :=
  forAll_keeps (fun t => g t = g s) l f (fun t a ha h => (hf t a ha).trans h) s rfl

/-- Effects each of which replaces the legs alone. -/
theorem forAll_legs {α : Type} (l : List α) (f : State → α → State) (hf : ∀ s a, a ∈ l → f s a = { s with legs := (f s a).legs }) (s : State) :
    s.forAll l f = { s with legs := (s.forAll l f).legs } := by
  refine forAll_keeps (fun t => t = { s with legs := t.legs }) l f ?_ s rfl
  intro t a ha h
  rw [hf t a ha, h]

/-- Effects each of which replaces the axes alone. -/
theorem forAll_axes {α : Type} (l : List α) (f : State → α → State) (hf : ∀ s a, a ∈ l → f s a = { s with axes := (f s a).axes }) (s : State) :
    s.forAll l f = { s with axes := (s.forAll l f).axes } := by
  refine forAll_keeps (fun t => t = { s with axes := t.axes }) l f ?_ s rfl
  intro t a ha h
  rw [hf t a ha, h]

/-- An idempotent effect on every leg of a list reaches exactly the legs of the list. -/
theorem forAll_modLeg (l : List LegId) (f : Leg → Leg) (hf : ∀ x, f (f x) = f x) (s : State) (m : LegId) :
    (s.forAll l fun s k => s.modLeg k f).leg m = if m ∈ l then f (s.leg m) else s.leg m := by
  induction l generalizing s with
  | nil => simp
  | cons a l ih =>
    simp only [forAll_cons]
    rw [ih]
    by_cases h : m = a
    · subst h; by_cases hm : m ∈ l <;> simp [hm, hf]
    · rw [modLeg_leg_other _ _ _ _ h]; simp [h]

/-- An effect on every axis of a list without repetition reaches exactly the axes of the list. -/
theorem forAll_modAxis (l : List AxisId) (hl : l.Nodup) (f : AxisId → Axis → Axis) (s : State) (n : AxisId) :
    (s.forAll l fun s k => s.modAxis k (f k)).ax n = if n ∈ l then f n (s.ax n) else s.ax n := by
  induction l generalizing s with
  | nil => simp
  | cons a l ih =>
    simp only [forAll_cons]
    rw [ih (List.nodup_cons.1 hl).2]
    by_cases h : n = a
    · subst h; simp [(List.nodup_cons.1 hl).1]
    · rw [modAxis_ax_other _ _ _ _ h]; simp [h]

/-- An effect on every pin of a list without repetition reaches exactly the pins of the list. -/
theorem forAll_modPin (l : List PinId) (hl : l.Nodup) (f : PinId → Pin → Pin) (s : State) (p : PinId) :
    (s.forAll l fun s k => s.modPin k (f k)).pin p = if p ∈ l then f p (s.pin p) else s.pin p := by
  induction l generalizing s with
  | nil => simp
  | cons a l ih =>
    simp only [forAll_cons]
    rw [ih (List.nodup_cons.1 hl).2]
    by_cases h : p = a
    · subst h; simp [(List.nodup_cons.1 hl).1]
    · rw [modPin_pin_other _ _ _ _ h]; simp [h]

end Sys2Proof.Machine
end

