-- ==== Sys2Proof/Laws/Actions.lean ====
section
/-! SUPPORT. Completions and the actions that wait: they change the queues and the side-band port, and nothing else
(11_queues_packets.md R300 to R305). -/
namespace Sys2Proof.Machine
open Sys2Proof

/-! ### What each operation can change -/

theorem pushEntry_frame (s : State) (c : Completion) : s.pushEntry c = { s with q := (s.pushEntry c).q } := by
  unfold State.pushEntry; split
  · rfl
  · split <;> rfl

theorem complete_frame (s : State) (ref : CmdRef) (st : Status) (fl ax : Byte) (mp w : Word) :
    s.complete ref st fl ax mp w = { s with q := (s.complete ref st fl ax mp w).q, sb := (s.complete ref st fl ax mp w).sb } := by
  cases ref with
  | host t q => simp only [State.complete]; rw [pushEntry_frame]
  | sideband => rfl
  | internal => rfl

theorem finishAction_frame (s : State) (a : Action) :
    s.finishAction a = { s with q := (s.finishAction a).q, sb := (s.finishAction a).sb } := by
  unfold State.finishAction
  cases h : a.ref with
  | host t q => simp only []; rw [complete_frame]
  | sideband => simp only []; split <;> rfl
  | internal => simp only []; rw [complete_frame]

theorem actionAxis_frame (s : State) (id : Nat) (o : AxisOutcome) (k : Nat) (b : Bool) :
    s.actionAxis id o k b = { s with q := (s.actionAxis id o k b).q, sb := (s.actionAxis id o k b).sb } := by
  unfold State.actionAxis
  split
  · rfl
  · split
    · simp only []
      split
      · rw [finishAction_frame]
      · rfl
    · rfl

/-- Effects each of which changes the queues and the side-band port alone. -/
theorem forAll_queues {α : Type} (l : List α) (f : State → α → State)
    (hf : ∀ s a, f s a = { s with q := (f s a).q, sb := (f s a).sb }) (s : State) :
    s.forAll l f = { s with q := (s.forAll l f).q, sb := (s.forAll l f).sb } := by
  refine forAll_keeps (fun t => t = { s with q := t.q, sb := t.sb }) l f ?_ s rfl
  intro t a _ h
  rw [hf t a, h]

theorem endActs_frame (s : State) (n : AxisId) (ks : List ActKind) (st : Status) (w : Word) (k : Nat) :
    s.endActs n ks st w k = { s with q := (s.endActs n ks st w k).q, sb := (s.endActs n ks st w k).sb } :=
  forAll_queues _ _ (fun _ _ => actionAxis_frame _ _ _ _ _) s

theorem memberEnds_frame (s : State) (n : AxisId) (id : BitVec 16) (t e : Int) :
    s.memberEnds n id t e = { s with q := (s.memberEnds n id t e).q } := by
  unfold State.memberEnds; split <;> rfl

theorem completeSeg_frame (s : State) (n : AxisId) (g : Segment) (st : Status) (mp : Word) (w : Option Word) (d : Nat) (t e : Int) :
    s.completeSeg n g st mp w d t e =
      { s with q := (s.completeSeg n g st mp w d t e).q, sb := (s.completeSeg n g st mp w d t e).sb } := by
  unfold State.completeSeg State.reap
  simp only []
  rw [complete_frame, memberEnds_frame]

theorem countDisable_frame (s : State) (n : AxisId) (k : Nat) : s.countDisable n k = { s with q := (s.countDisable n k).q } := rfl

theorem shale_frame (s : State) (cls code src : Nat) (data : BitVec 24) : s.shale cls code src data = { s with
    dev := { s.dev with shalePend := (s.shale cls code src data).dev.shalePend
                        shaleDropped := (s.shale cls code src data).dev.shaleDropped } } := by
  unfold State.shale; split <;> rfl

/-! ### complete -/

@[simp] theorem complete_pending (s : State) (ref : CmdRef) (st : Status) (fl ax : Byte) (mp w : Word) : (s.complete ref st fl ax mp w).pending = s.pending := by rw [complete_frame]
@[simp] theorem complete_dev (s : State) (ref : CmdRef) (st : Status) (fl ax : Byte) (mp w : Word) : (s.complete ref st fl ax mp w).dev = s.dev := by rw [complete_frame]
@[simp] theorem complete_nvm (s : State) (ref : CmdRef) (st : Status) (fl ax : Byte) (mp w : Word) : (s.complete ref st fl ax mp w).nvm = s.nvm := by rw [complete_frame]
@[simp] theorem complete_tb (s : State) (ref : CmdRef) (st : Status) (fl ax : Byte) (mp w : Word) : (s.complete ref st fl ax mp w).tb = s.tb := by rw [complete_frame]
@[simp] theorem complete_axes (s : State) (ref : CmdRef) (st : Status) (fl ax : Byte) (mp w : Word) : (s.complete ref st fl ax mp w).axes = s.axes := by rw [complete_frame]
@[simp] theorem complete_coils (s : State) (ref : CmdRef) (st : Status) (fl ax : Byte) (mp w : Word) : (s.complete ref st fl ax mp w).coils = s.coils := by rw [complete_frame]
@[simp] theorem complete_legs (s : State) (ref : CmdRef) (st : Status) (fl ax : Byte) (mp w : Word) : (s.complete ref st fl ax mp w).legs = s.legs := by rw [complete_frame]
@[simp] theorem complete_adcs (s : State) (ref : CmdRef) (st : Status) (fl ax : Byte) (mp w : Word) : (s.complete ref st fl ax mp w).adcs = s.adcs := by rw [complete_frame]
@[simp] theorem complete_groups (s : State) (ref : CmdRef) (st : Status) (fl ax : Byte) (mp w : Word) : (s.complete ref st fl ax mp w).groups = s.groups := by rw [complete_frame]
@[simp] theorem complete_pins (s : State) (ref : CmdRef) (st : Status) (fl ax : Byte) (mp w : Word) : (s.complete ref st fl ax mp w).pins = s.pins := by rw [complete_frame]
@[simp] theorem complete_tables (s : State) (ref : CmdRef) (st : Status) (fl ax : Byte) (mp w : Word) : (s.complete ref st fl ax mp w).tables = s.tables := by rw [complete_frame]
@[simp] theorem complete_hp (s : State) (ref : CmdRef) (st : Status) (fl ax : Byte) (mp w : Word) : (s.complete ref st fl ax mp w).hp = s.hp := by rw [complete_frame]
@[simp] theorem complete_mp (s : State) (ref : CmdRef) (st : Status) (fl ax : Byte) (mp w : Word) : (s.complete ref st fl ax mp w).mp = s.mp := by rw [complete_frame]
@[simp] theorem complete_ax (s : State) (ref : CmdRef) (st : Status) (fl ax : Byte) (mp w : Word) (i : AxisId) : (s.complete ref st fl ax mp w).ax i = s.ax i := by simp [State.ax]

/-! ### finishAction -/

@[simp] theorem finishAction_pending (s : State) (a : Action) : (s.finishAction a).pending = s.pending := by rw [finishAction_frame]
@[simp] theorem finishAction_dev (s : State) (a : Action) : (s.finishAction a).dev = s.dev := by rw [finishAction_frame]
@[simp] theorem finishAction_nvm (s : State) (a : Action) : (s.finishAction a).nvm = s.nvm := by rw [finishAction_frame]
@[simp] theorem finishAction_tb (s : State) (a : Action) : (s.finishAction a).tb = s.tb := by rw [finishAction_frame]
@[simp] theorem finishAction_axes (s : State) (a : Action) : (s.finishAction a).axes = s.axes := by rw [finishAction_frame]
@[simp] theorem finishAction_coils (s : State) (a : Action) : (s.finishAction a).coils = s.coils := by rw [finishAction_frame]
@[simp] theorem finishAction_legs (s : State) (a : Action) : (s.finishAction a).legs = s.legs := by rw [finishAction_frame]
@[simp] theorem finishAction_adcs (s : State) (a : Action) : (s.finishAction a).adcs = s.adcs := by rw [finishAction_frame]
@[simp] theorem finishAction_groups (s : State) (a : Action) : (s.finishAction a).groups = s.groups := by rw [finishAction_frame]
@[simp] theorem finishAction_pins (s : State) (a : Action) : (s.finishAction a).pins = s.pins := by rw [finishAction_frame]
@[simp] theorem finishAction_tables (s : State) (a : Action) : (s.finishAction a).tables = s.tables := by rw [finishAction_frame]
@[simp] theorem finishAction_hp (s : State) (a : Action) : (s.finishAction a).hp = s.hp := by rw [finishAction_frame]
@[simp] theorem finishAction_mp (s : State) (a : Action) : (s.finishAction a).mp = s.mp := by rw [finishAction_frame]
@[simp] theorem finishAction_ax (s : State) (a : Action) (i : AxisId) : (s.finishAction a).ax i = s.ax i := by simp [State.ax]

/-! ### actionAxis -/

@[simp] theorem actionAxis_pending (s : State) (id : Nat) (o : AxisOutcome) (k : Nat) (b : Bool) : (s.actionAxis id o k b).pending = s.pending := by rw [actionAxis_frame]
@[simp] theorem actionAxis_dev (s : State) (id : Nat) (o : AxisOutcome) (k : Nat) (b : Bool) : (s.actionAxis id o k b).dev = s.dev := by rw [actionAxis_frame]
@[simp] theorem actionAxis_nvm (s : State) (id : Nat) (o : AxisOutcome) (k : Nat) (b : Bool) : (s.actionAxis id o k b).nvm = s.nvm := by rw [actionAxis_frame]
@[simp] theorem actionAxis_tb (s : State) (id : Nat) (o : AxisOutcome) (k : Nat) (b : Bool) : (s.actionAxis id o k b).tb = s.tb := by rw [actionAxis_frame]
@[simp] theorem actionAxis_axes (s : State) (id : Nat) (o : AxisOutcome) (k : Nat) (b : Bool) : (s.actionAxis id o k b).axes = s.axes := by rw [actionAxis_frame]
@[simp] theorem actionAxis_coils (s : State) (id : Nat) (o : AxisOutcome) (k : Nat) (b : Bool) : (s.actionAxis id o k b).coils = s.coils := by rw [actionAxis_frame]
@[simp] theorem actionAxis_legs (s : State) (id : Nat) (o : AxisOutcome) (k : Nat) (b : Bool) : (s.actionAxis id o k b).legs = s.legs := by rw [actionAxis_frame]
@[simp] theorem actionAxis_adcs (s : State) (id : Nat) (o : AxisOutcome) (k : Nat) (b : Bool) : (s.actionAxis id o k b).adcs = s.adcs := by rw [actionAxis_frame]
@[simp] theorem actionAxis_groups (s : State) (id : Nat) (o : AxisOutcome) (k : Nat) (b : Bool) : (s.actionAxis id o k b).groups = s.groups := by rw [actionAxis_frame]
@[simp] theorem actionAxis_pins (s : State) (id : Nat) (o : AxisOutcome) (k : Nat) (b : Bool) : (s.actionAxis id o k b).pins = s.pins := by rw [actionAxis_frame]
@[simp] theorem actionAxis_tables (s : State) (id : Nat) (o : AxisOutcome) (k : Nat) (b : Bool) : (s.actionAxis id o k b).tables = s.tables := by rw [actionAxis_frame]
@[simp] theorem actionAxis_hp (s : State) (id : Nat) (o : AxisOutcome) (k : Nat) (b : Bool) : (s.actionAxis id o k b).hp = s.hp := by rw [actionAxis_frame]
@[simp] theorem actionAxis_mp (s : State) (id : Nat) (o : AxisOutcome) (k : Nat) (b : Bool) : (s.actionAxis id o k b).mp = s.mp := by rw [actionAxis_frame]
@[simp] theorem actionAxis_ax (s : State) (id : Nat) (o : AxisOutcome) (k : Nat) (b : Bool) (i : AxisId) : (s.actionAxis id o k b).ax i = s.ax i := by simp [State.ax]

/-! ### endActs -/

@[simp] theorem endActs_pending (s : State) (n : AxisId) (ks : List ActKind) (st : Status) (w : Word) (k : Nat) : (s.endActs n ks st w k).pending = s.pending := by rw [endActs_frame]
@[simp] theorem endActs_dev (s : State) (n : AxisId) (ks : List ActKind) (st : Status) (w : Word) (k : Nat) : (s.endActs n ks st w k).dev = s.dev := by rw [endActs_frame]
@[simp] theorem endActs_nvm (s : State) (n : AxisId) (ks : List ActKind) (st : Status) (w : Word) (k : Nat) : (s.endActs n ks st w k).nvm = s.nvm := by rw [endActs_frame]
@[simp] theorem endActs_tb (s : State) (n : AxisId) (ks : List ActKind) (st : Status) (w : Word) (k : Nat) : (s.endActs n ks st w k).tb = s.tb := by rw [endActs_frame]
@[simp] theorem endActs_axes (s : State) (n : AxisId) (ks : List ActKind) (st : Status) (w : Word) (k : Nat) : (s.endActs n ks st w k).axes = s.axes := by rw [endActs_frame]
@[simp] theorem endActs_coils (s : State) (n : AxisId) (ks : List ActKind) (st : Status) (w : Word) (k : Nat) : (s.endActs n ks st w k).coils = s.coils := by rw [endActs_frame]
@[simp] theorem endActs_legs (s : State) (n : AxisId) (ks : List ActKind) (st : Status) (w : Word) (k : Nat) : (s.endActs n ks st w k).legs = s.legs := by rw [endActs_frame]
@[simp] theorem endActs_adcs (s : State) (n : AxisId) (ks : List ActKind) (st : Status) (w : Word) (k : Nat) : (s.endActs n ks st w k).adcs = s.adcs := by rw [endActs_frame]
@[simp] theorem endActs_groups (s : State) (n : AxisId) (ks : List ActKind) (st : Status) (w : Word) (k : Nat) : (s.endActs n ks st w k).groups = s.groups := by rw [endActs_frame]
@[simp] theorem endActs_pins (s : State) (n : AxisId) (ks : List ActKind) (st : Status) (w : Word) (k : Nat) : (s.endActs n ks st w k).pins = s.pins := by rw [endActs_frame]
@[simp] theorem endActs_tables (s : State) (n : AxisId) (ks : List ActKind) (st : Status) (w : Word) (k : Nat) : (s.endActs n ks st w k).tables = s.tables := by rw [endActs_frame]
@[simp] theorem endActs_hp (s : State) (n : AxisId) (ks : List ActKind) (st : Status) (w : Word) (k : Nat) : (s.endActs n ks st w k).hp = s.hp := by rw [endActs_frame]
@[simp] theorem endActs_mp (s : State) (n : AxisId) (ks : List ActKind) (st : Status) (w : Word) (k : Nat) : (s.endActs n ks st w k).mp = s.mp := by rw [endActs_frame]
@[simp] theorem endActs_ax (s : State) (n : AxisId) (ks : List ActKind) (st : Status) (w : Word) (k : Nat) (i : AxisId) : (s.endActs n ks st w k).ax i = s.ax i := by simp [State.ax]

/-! ### completeSeg -/

@[simp] theorem completeSeg_pending (s : State) (n : AxisId) (g : Segment) (st : Status) (mp : Word) (w : Option Word) (d : Nat) (t e : Int) : (s.completeSeg n g st mp w d t e).pending = s.pending := by rw [completeSeg_frame]
@[simp] theorem completeSeg_dev (s : State) (n : AxisId) (g : Segment) (st : Status) (mp : Word) (w : Option Word) (d : Nat) (t e : Int) : (s.completeSeg n g st mp w d t e).dev = s.dev := by rw [completeSeg_frame]
@[simp] theorem completeSeg_nvm (s : State) (n : AxisId) (g : Segment) (st : Status) (mp : Word) (w : Option Word) (d : Nat) (t e : Int) : (s.completeSeg n g st mp w d t e).nvm = s.nvm := by rw [completeSeg_frame]
@[simp] theorem completeSeg_tb (s : State) (n : AxisId) (g : Segment) (st : Status) (mp : Word) (w : Option Word) (d : Nat) (t e : Int) : (s.completeSeg n g st mp w d t e).tb = s.tb := by rw [completeSeg_frame]
@[simp] theorem completeSeg_axes (s : State) (n : AxisId) (g : Segment) (st : Status) (mp : Word) (w : Option Word) (d : Nat) (t e : Int) : (s.completeSeg n g st mp w d t e).axes = s.axes := by rw [completeSeg_frame]
@[simp] theorem completeSeg_coils (s : State) (n : AxisId) (g : Segment) (st : Status) (mp : Word) (w : Option Word) (d : Nat) (t e : Int) : (s.completeSeg n g st mp w d t e).coils = s.coils := by rw [completeSeg_frame]
@[simp] theorem completeSeg_legs (s : State) (n : AxisId) (g : Segment) (st : Status) (mp : Word) (w : Option Word) (d : Nat) (t e : Int) : (s.completeSeg n g st mp w d t e).legs = s.legs := by rw [completeSeg_frame]
@[simp] theorem completeSeg_adcs (s : State) (n : AxisId) (g : Segment) (st : Status) (mp : Word) (w : Option Word) (d : Nat) (t e : Int) : (s.completeSeg n g st mp w d t e).adcs = s.adcs := by rw [completeSeg_frame]
@[simp] theorem completeSeg_groups (s : State) (n : AxisId) (g : Segment) (st : Status) (mp : Word) (w : Option Word) (d : Nat) (t e : Int) : (s.completeSeg n g st mp w d t e).groups = s.groups := by rw [completeSeg_frame]
@[simp] theorem completeSeg_pins (s : State) (n : AxisId) (g : Segment) (st : Status) (mp : Word) (w : Option Word) (d : Nat) (t e : Int) : (s.completeSeg n g st mp w d t e).pins = s.pins := by rw [completeSeg_frame]
@[simp] theorem completeSeg_tables (s : State) (n : AxisId) (g : Segment) (st : Status) (mp : Word) (w : Option Word) (d : Nat) (t e : Int) : (s.completeSeg n g st mp w d t e).tables = s.tables := by rw [completeSeg_frame]
@[simp] theorem completeSeg_hp (s : State) (n : AxisId) (g : Segment) (st : Status) (mp : Word) (w : Option Word) (d : Nat) (t e : Int) : (s.completeSeg n g st mp w d t e).hp = s.hp := by rw [completeSeg_frame]
@[simp] theorem completeSeg_mp (s : State) (n : AxisId) (g : Segment) (st : Status) (mp : Word) (w : Option Word) (d : Nat) (t e : Int) : (s.completeSeg n g st mp w d t e).mp = s.mp := by rw [completeSeg_frame]
@[simp] theorem completeSeg_ax (s : State) (n : AxisId) (g : Segment) (st : Status) (mp : Word) (w : Option Word) (d : Nat) (t e : Int) (i : AxisId) : (s.completeSeg n g st mp w d t e).ax i = s.ax i := by simp [State.ax]

/-! ### Shale entries -/

@[simp] theorem shale_pending (s : State) (cls code src : Nat) (data : BitVec 24) : (s.shale cls code src data).pending = s.pending := by rw [shale_frame]
@[simp] theorem shale_nvm (s : State) (cls code src : Nat) (data : BitVec 24) : (s.shale cls code src data).nvm = s.nvm := by rw [shale_frame]
@[simp] theorem shale_tb (s : State) (cls code src : Nat) (data : BitVec 24) : (s.shale cls code src data).tb = s.tb := by rw [shale_frame]
@[simp] theorem shale_axes (s : State) (cls code src : Nat) (data : BitVec 24) : (s.shale cls code src data).axes = s.axes := by rw [shale_frame]
@[simp] theorem shale_coils (s : State) (cls code src : Nat) (data : BitVec 24) : (s.shale cls code src data).coils = s.coils := by rw [shale_frame]
@[simp] theorem shale_legs (s : State) (cls code src : Nat) (data : BitVec 24) : (s.shale cls code src data).legs = s.legs := by rw [shale_frame]
@[simp] theorem shale_adcs (s : State) (cls code src : Nat) (data : BitVec 24) : (s.shale cls code src data).adcs = s.adcs := by rw [shale_frame]
@[simp] theorem shale_groups (s : State) (cls code src : Nat) (data : BitVec 24) : (s.shale cls code src data).groups = s.groups := by rw [shale_frame]
@[simp] theorem shale_pins (s : State) (cls code src : Nat) (data : BitVec 24) : (s.shale cls code src data).pins = s.pins := by rw [shale_frame]
@[simp] theorem shale_tables (s : State) (cls code src : Nat) (data : BitVec 24) : (s.shale cls code src data).tables = s.tables := by rw [shale_frame]
@[simp] theorem shale_hp (s : State) (cls code src : Nat) (data : BitVec 24) : (s.shale cls code src data).hp = s.hp := by rw [shale_frame]
@[simp] theorem shale_mp (s : State) (cls code src : Nat) (data : BitVec 24) : (s.shale cls code src data).mp = s.mp := by rw [shale_frame]
@[simp] theorem shale_q (s : State) (cls code src : Nat) (data : BitVec 24) : (s.shale cls code src data).q = s.q := by rw [shale_frame]
@[simp] theorem shale_sb (s : State) (cls code src : Nat) (data : BitVec 24) : (s.shale cls code src data).sb = s.sb := by rw [shale_frame]
@[simp] theorem shale_ax (s : State) (cls code src : Nat) (data : BitVec 24) (i : AxisId) : (s.shale cls code src data).ax i = s.ax i := by simp [State.ax]

end Sys2Proof.Machine
end

