-- ==== Sys2Proof/Laws/Commands.lean ====
section
/-! SUPPORT. How a row of an opcode acts: what holds of every command of your host, said once (11_queues_packets.md R297, R300;
12_opcodes.md R309 to R315). -/
namespace Sys2Proof.Machine
open Sys2Proof

/-- What no opcode decides does not look at the packets that wait. -/
theorem opening_drop (s : State) (k : Nat) (p : Packet) : (s.dropPacket k).opening p = s.opening p := rfl
/-- A core that holds a packet of the opcode starts it (R297). -/
theorem runOpcode_holds {s : State} {core : CoreId} {opc : Nat} {p : Packet} (h : s.Holds core opc p) (body : State → Packet → State) :
    s.runOpcode core opc body = (s.started p).act p body := by
  obtain ⟨h1, h2, h3, h4⟩ := h
  simp [State.runOpcode, State.runPacket, State.dispatching, h1, h2, h3, h4]
  rfl
/-- A packet that nothing common refuses is left to the rule of its opcode (R312 to R314). -/
theorem runOpcode_admits {s : State} {core : CoreId} {opc : Nat} {p : Packet} (h : s.Admits core opc p) (body : State → Packet → State) :
    s.runOpcode core opc body = body (s.started p) p := by
  rw [runOpcode_holds h.1]
  have : (s.started p).opening p = none := h.2
  simp [State.act, this]
/-- The completion of a packet that has just started (R300). -/
theorem complete_started {s : State} (hs : s.dev.suspended = false) (hh : s.dev.safeHold = false) (p : Packet) (st : Status) (ax : Byte) (w : Word) :
    (s.started p).complete p.ref st 0 ax ((s.started p).packetMpos p) w = s.answered p st ax w := by
  simp [State.complete, Packet.ref, State.pushEntry, State.started, hs, hh, State.answered, State.reply]
  rfl
/-- A packet answered at once. -/
theorem answer_started {s : State} (hs : s.dev.suspended = false) (hh : s.dev.safeHold = false) (p : Packet) (st : Status) (w : Word) :
    (s.started p).answer p st w = s.answered p st p.axis w := complete_started hs hh p st p.axis w
/-- A packet refused at once, with the axis that failed (R304, R315). -/
theorem refuse_started {s : State} (hs : s.dev.suspended = false) (hh : s.dev.safeHold = false) (p : Packet) (r : Status × Word) (n : Option AxisId) :
    (s.started p).refuse p r n = s.answered p r.1 ((n.map axByte).getD p.axis) r.2 := complete_started hs hh p _ _ _
/-- Where every check passes the effect follows. -/
theorem guarded_passes {s : State} {p : Packet} {l : List Check} (h : passes l) (f : State → State) : s.guarded p l f = f s := by
  unfold passes at h; simp [State.guarded, h]
/-- Where a check fails the packet is refused and nothing else happens (R313). -/
theorem guarded_fails {s : State} {p : Packet} {l : List Check} {r} (h : firstFailure l = some r) (f : State → State) :
   s.guarded p l f = s.refuse p r none := by simp [State.guarded, h]
/-- An admitted packet starts only while dispatch goes on (R418). -/
theorem Admits.susp {s : State} {core opc p} (h : s.Admits core opc p) : s.dev.suspended = false := h.1.2.1
/-- An admitted packet starts only outside SAFE_HOLD (R390). -/
theorem Admits.hold {s : State} {core opc p} (h : s.Admits core opc p) : s.dev.safeHold = false := h.1.2.2.1

end Sys2Proof.Machine
end

