-- ==== Sys2Proof/Laws/Ends.lean ====
section
/-! SUPPORT. What the ends of segments and actions leave, and what turning an axis off makes of it (03_motion_segments.md R78;
09_power_stage.md R256). -/
namespace Sys2Proof.Machine
open Sys2Proof

/-- The queues keep their packets and what waits for the next snapshot. -/
@[simp] theorem request_packets (q : Queues) : q.request.packets = q.packets := rfl
@[simp] theorem request_snapOps (q : Queues) : q.request.snapOps = q.snapOps := rfl

theorem complete_kept (s : State) (ref : CmdRef) (st : Status) (fl ax : Byte) (mp w : Word) :
    (s.complete ref st fl ax mp w).q.packets = s.q.packets ∧ (s.complete ref st fl ax mp w).q.snapOps = s.q.snapOps := by
  cases ref with
  | host t q =>
    simp only [State.complete, State.pushEntry]
    split
    · exact ⟨rfl, rfl⟩
    · split <;> exact ⟨rfl, rfl⟩
  | sideband => exact ⟨rfl, rfl⟩
  | internal => exact ⟨rfl, rfl⟩

theorem finishAction_kept (s : State) (a : Action) :
    (s.finishAction a).q.packets = s.q.packets ∧ (s.finishAction a).q.snapOps = s.q.snapOps := by
  unfold State.finishAction
  cases h : a.ref with
  | host t q => exact complete_kept _ _ _ _ _ _ _
  | sideband => simp only []; split <;> exact ⟨rfl, rfl⟩
  | internal => exact complete_kept _ _ _ _ _ _ _

theorem actionAxis_kept (s : State) (id : Nat) (o : AxisOutcome) (k : Nat) (b : Bool) :
    (s.actionAxis id o k b).q.packets = s.q.packets ∧ (s.actionAxis id o k b).q.snapOps = s.q.snapOps := by
  unfold State.actionAxis
  split
  · exact ⟨rfl, rfl⟩
  · split
    · simp only []
      split
      · exact finishAction_kept _ _
      · exact ⟨rfl, rfl⟩
    · exact ⟨rfl, rfl⟩

theorem endActs_kept (s : State) (n : AxisId) (ks : List ActKind) (st : Status) (w : Word) (k : Nat) :
    (s.endActs n ks st w k).q.packets = s.q.packets ∧ (s.endActs n ks st w k).q.snapOps = s.q.snapOps := by
  refine forAll_keeps (fun t => t.q.packets = s.q.packets ∧ t.q.snapOps = s.q.snapOps) _ _ ?_ s ⟨rfl, rfl⟩
  intro t a _ h
  obtain ⟨h1, h2⟩ := actionAxis_kept t a.id ⟨n, st, w, none⟩ k false
  exact ⟨h1.trans h.1, h2.trans h.2⟩

theorem completeSeg_kept (s : State) (n : AxisId) (g : Segment) (st : Status) (mp : Word) (w : Option Word) (d : Nat) (t e : Int) :
    (s.completeSeg n g st mp w d t e).q.packets = s.q.packets ∧ (s.completeSeg n g st mp w d t e).q.snapOps = s.q.snapOps := by
  have hm : (s.memberEnds n g.batch t e).q.packets = s.q.packets ∧ (s.memberEnds n g.batch t e).q.snapOps = s.q.snapOps := by
    unfold State.memberEnds; split <;> exact ⟨rfl, rfl⟩
  obtain ⟨h1, h2⟩ := complete_kept (s.memberEnds n g.batch t e) g.ref st (segFlagByte g.flags (s.ax n).mot.unsure) (axByte n) mp
    (if g.flags.headDelayed then BitVec.ofNat 32 d else w.getD (outWord (s.ax n).mot.out))
  unfold State.completeSeg State.reap
  simp only []
  exact ⟨h1.trans hm.1, h2.trans hm.2⟩

/-- `t` is `s` but for the queues, where the packets and what waits for the snapshot stand, the side-band port, and axis `n`. -/
def State.endsOn (s t : State) (n : AxisId) (f : Axis → Axis) : Prop :=
  t = { s with axes := upd s.axes n f, q := t.q, sb := t.sb } ∧ t.q.packets = s.q.packets ∧ t.q.snapOps = s.q.snapOps

theorem endsOn_of_queues {s t : State} (n : AxisId) (h : t = { s with q := t.q, sb := t.sb }) (hk : t.q.packets = s.q.packets ∧ t.q.snapOps = s.q.snapOps) :
    s.endsOn t n id := by
  refine ⟨?_, hk⟩
  rw [upd_same _ _ _ rfl]; exact h

theorem endsOn_trans {s t u : State} {n : AxisId} {f g : Axis → Axis} (h : s.endsOn t n f) (k : t.endsOn u n g) :
    s.endsOn u n (fun x => g (f x)) := by
  obtain ⟨h1, h2, h3⟩ := h
  obtain ⟨k1, k2, k3⟩ := k
  refine ⟨?_, k2.trans h2, k3.trans h3⟩
  rw [k1, h1]; simp [upd_upd]

theorem endsOn_ax {s t : State} {n : AxisId} {f : Axis → Axis} (h : s.endsOn t n f) : t.ax n = f (s.ax n) := by
  unfold State.ax; rw [h.1]; exact upd_self _ _ _

theorem endsOn_ax_other {s t : State} {n k : AxisId} {f : Axis → Axis} (h : s.endsOn t n f) (hk : k ≠ n) : t.ax k = s.ax k := by
  unfold State.ax; rw [h.1]; exact upd_other _ _ _ _ hk

theorem modAxis_endsOn (s : State) (n : AxisId) (f : Axis → Axis) : s.endsOn (s.modAxis n f) n f := ⟨rfl, rfl, rfl⟩

theorem forAll_endsOn {α : Type} (n : AxisId) (l : List α) (f : State → α → State)
    (hf : ∀ s a, f s a = { s with q := (f s a).q, sb := (f s a).sb } ∧ (f s a).q.packets = s.q.packets ∧ (f s a).q.snapOps = s.q.snapOps) (s : State) :
    s.endsOn (s.forAll l f) n id := by
  refine endsOn_of_queues n (forAll_queues l f (fun s a => (hf s a).1) s) ?_
  refine forAll_keeps (fun t => t.q.packets = s.q.packets ∧ t.q.snapOps = s.q.snapOps) l f ?_ s ⟨rfl, rfl⟩
  intro t a _ h
  exact ⟨(hf t a).2.1.trans h.1, (hf t a).2.2.trans h.2⟩

theorem flushQueue_endsOn (s : State) (n : AxisId) (st : Status) :
    s.endsOn (s.flushQueue n st) n fun x => { x with mot := { x.mot with queue := [] } } := by
  unfold State.flushQueue
  simp only []
  refine endsOn_trans (modAxis_endsOn s n _) (forAll_endsOn n _ _ ?_ _)
  intro s a
  split <;> exact ⟨completeSeg_frame _ _ _ _ _ _ _ _ _, completeSeg_kept _ _ _ _ _ _ _ _ _⟩

theorem countDisable_endsOn (s : State) (n : AxisId) (k : Nat) : s.endsOn (s.countDisable n k) n id := endsOn_of_queues n rfl ⟨rfl, rfl⟩

theorem completeRuns_endsOn (s : State) (n : AxisId) (l : List Run) (own : Bool) (st : Status) (w : Option Word) :
    s.endsOn (s.completeRuns n l own st w) n id :=
  forAll_endsOn n _ _ (fun _ _ => ⟨completeSeg_frame _ _ _ _ _ _ _ _ _, completeSeg_kept _ _ _ _ _ _ _ _ _⟩) _

theorem stopsDone_endsOn (s : State) (n : AxisId) (k : Nat) : s.endsOn (s.stopsDone n k) n id :=
  forAll_endsOn n _ _ (fun _ _ => ⟨actionAxis_frame _ _ _ _ _, actionAxis_kept _ _ _ _ _⟩) _

theorem dropAll_endsOn (s : State) (n : AxisId) (st : Status) (w : Option Word) :
    s.endsOn (s.dropAll n st w) n fun x => { x with mot := { x.mot with
      runs := [], stop := none, jog := none, vel := 0, held := none, queue := []
      lastEnd := some ⟨none, ((s.ax n).mot.lastEnd.map (·.dir)).getD 0, 0, false, none⟩ } } := by
  unfold State.dropAll
  simp only []
  have h1 := modAxis_endsOn s n fun x => { x with mot := { x.mot with
      runs := [], stop := none, jog := none, vel := 0, held := none
      lastEnd := some ⟨none, ((s.ax n).mot.lastEnd.map (·.dir)).getD 0, 0, false, none⟩ } }
  refine endsOn_trans (endsOn_trans (endsOn_trans (endsOn_trans h1 (completeRuns_endsOn _ n _ _ st w)) (flushQueue_endsOn _ n .flushed))
    (countDisable_endsOn _ n _)) (stopsDone_endsOn _ n _)

theorem endActs_endsOn (s : State) (n : AxisId) (ks : List ActKind) (st : Status) (w : Word) (k : Nat) : s.endsOn (s.endActs n ks st w k) n id :=
  endsOn_of_queues n (endActs_frame _ _ _ _ _ _) (endActs_kept _ _ _ _ _ _)

theorem endEnable_endsOn (s : State) (n : AxisId) (st : Status) (w : Word) :
    s.endsOn (s.endEnable n st w) n fun x => { x with drv := { x.drv with enabling := false } } :=
  endsOn_trans (modAxis_endsOn s n _) (endActs_endsOn _ n _ _ _ _)

theorem endIdent_endsOn (s : State) (n : AxisId) (st : Status) (w : Word) :
    s.endsOn (s.endIdent n st w) n fun x => { x with prot := { x.prot with ident := none } } := by
  unfold State.endIdent
  split
  · rename_i h
    refine ⟨?_, rfl, rfl⟩
    have h' : s.axes[n.val].prot.ident = none := h
    rw [upd_same]
    generalize s.axes[n.val] = x at h' ⊢
    rcases x with ⟨a, b, c, d, e, p⟩
    cases p; cases h'; rfl
  · exact endsOn_trans (modAxis_endsOn s n _) (endsOn_of_queues n (complete_frame _ _ _ _ _ _ _) (complete_kept _ _ _ _ _ _ _))

theorem ownedAlert_endsOn (s : State) (n : AxisId) : s.endsOn (s.ownedAlert n) n id := by
  unfold State.ownedAlert; split <;> exact endsOn_of_queues n rfl ⟨rfl, rfl⟩

theorem dropJogWait_endsOn (s : State) (n : AxisId) (st : Status) (w : Word) : s.endsOn (s.dropJogWait n st w) n id := by
  have h : s.endsOn { s with sb := { s.sb with jogWait := s.sb.jogWait.filter fun j => j.1 ≠ n } } n id :=
    endsOn_of_queues n rfl ⟨rfl, rfl⟩
  exact endsOn_trans h (endActs_endsOn _ n _ _ _ _)

/-- What the ending of everything on an axis makes of it. -/
def Axis.ended (x : Axis) : Axis :=
  { x with
    mot := { x.mot with jogBlocked := x.mot.jogBlocked || x.mot.jog.isSome, runs := [], stop := none, jog := none, vel := 0, held := none, queue := []
                        lastEnd := some ⟨none, (x.mot.lastEnd.map (·.dir)).getD 0, 0, false, none⟩ }
    drv := { x.drv with enabling := false, brake := false, brakeWait := false }
    prot := { x.prot with retry := .none, tries := if x.prot.retry = .none then x.prot.tries else 0, partner := none, ident := none } }

theorem dropJogs_endsOn (s : State) (n : AxisId) : s.endsOn { s with sb := { s.sb with jogs := s.sb.jogs.filter (· ≠ n) } } n id :=
  endsOn_of_queues n rfl ⟨rfl, rfl⟩

theorem endsOn_congr {s t : State} {n : AxisId} {f g : Axis → Axis} (h : s.endsOn t n f) (e : f (s.ax n) = g (s.ax n)) : s.endsOn t n g :=
  ⟨h.1.trans (by rw [upd_congr s.axes n f g e]), h.2⟩

theorem modProt_endsOn (s : State) (n : AxisId) (f : AxisProt → AxisProt) : s.endsOn (s.modProt n f) n fun x => { x with prot := f x.prot } := ⟨rfl, rfl, rfl⟩
theorem modMot_endsOn (s : State) (n : AxisId) (f : AxisMotion → AxisMotion) : s.endsOn (s.modMot n f) n fun x => { x with mot := f x.mot } := ⟨rfl, rfl, rfl⟩
theorem modDrv_endsOn (s : State) (n : AxisId) (f : AxisDrive → AxisDrive) : s.endsOn (s.modDrv n f) n fun x => { x with drv := f x.drv } := ⟨rfl, rfl, rfl⟩

theorem endRuns_endsOn (b : State) (n : AxisId) (st : Status) (w : Word) :
    b.endsOn (((b.dropAll n st (some w)).endEnable n st w).endIdent n st w) n fun x => { x with
      mot := { x.mot with runs := [], stop := none, jog := none, vel := 0, held := none, queue := []
                          lastEnd := some ⟨none, ((b.ax n).mot.lastEnd.map (·.dir)).getD 0, 0, false, none⟩ }
      drv := { x.drv with enabling := false }, prot := { x.prot with ident := none } } :=
  endsOn_trans (endsOn_trans (dropAll_endsOn b n st (some w)) (endEnable_endsOn _ n st w)) (endIdent_endsOn _ n st w)

theorem endJogs_endsOn (e : State) (n : AxisId) (st : Status) (w : Word) :
    e.endsOn (({ e with sb := { e.sb with jogs := e.sb.jogs.filter (· ≠ n) } } : State).dropJogWait n st w) n id :=
  endsOn_trans (dropJogs_endsOn e n) (dropJogWait_endsOn _ n st w)

theorem endAll_endsOn (s : State) (n : AxisId) (st : Status) (w : Word) : s.endsOn (s.endAll n st w) n Axis.ended := by
  have h0 := ownedAlert_endsOn s n
  unfold State.endAll
  generalize s.ownedAlert n = a at h0 ⊢
  have h1 := endsOn_trans h0 (modProt_endsOn a n fun p => { p with
    retry := .none, tries := if p.retry = .none then p.tries else 0, partner := none })
  simp only []
  generalize a.modProt n _ = b at h1 ⊢
  have h2 := endsOn_trans h1 (modMot_endsOn b n fun m => { m with jogBlocked := m.jogBlocked || m.jog.isSome })
  generalize b.modMot n _ = b at h2 ⊢
  have e2 := endsOn_ax h2
  have h5 := endsOn_trans h2 (endRuns_endsOn b n st w)
  generalize ((b.dropAll n st (some w)).endEnable n st w).endIdent n st w = e at h5 ⊢
  have h6 := endsOn_trans h5 (modDrv_endsOn e n fun x => { x with brake := false, brakeWait := false })
  generalize e.modDrv n (fun x => { x with brake := false, brakeWait := false }) = f at h6 ⊢
  refine endsOn_congr (endsOn_trans h6 (endJogs_endsOn f n st w)) ?_
  rw [e2]; rfl

/-- What the turning off of an axis makes of it. -/
def Axis.off (x : Axis) : Axis :=
  { x.ended with drv := { x.ended.drv with enabled := false, energised := false, disabling := false, offPend := true } }

/-- Turning an axis off (R256, R260, R262): the axis, and the waiting energising of it dropped. -/
theorem turnOff_changes (s : State) (n : AxisId) (st : Status) (w : Word) :
    s.turnOff n st w = { s with axes := upd s.axes n Axis.off, q := (s.turnOff n st w).q, sb := (s.turnOff n st w).sb }
    ∧ (s.turnOff n st w).q.packets = s.q.packets
    ∧ (s.turnOff n st w).q.snapOps = s.q.snapOps.filter fun o => o ≠ .energise n := by
  unfold State.turnOff
  have h1 := endAll_endsOn s n st w
  generalize s.endAll n st w = a at h1 ⊢
  have h2 := endsOn_trans h1 (modDrv_endsOn a n fun d => { d with enabled := false, energised := false, disabling := false, offPend := true })
  simp only []
  generalize a.modDrv n _ = b at h2 ⊢
  have h3 := endsOn_trans h2 (endActs_endsOn b n [.disable] .ok 0 0)
  generalize b.endActs n [.disable] .ok 0 0 = b at h3 ⊢
  obtain ⟨p1, p2, p3⟩ := h3
  refine ⟨?_, p2, ?_⟩
  · rw [p1]; rfl
  · show b.q.snapOps.filter _ = _
    rw [p3]

theorem turnOff_ax (s : State) (n : AxisId) (st : Status) (w : Word) : (s.turnOff n st w).ax n = (s.ax n).off :=
  (congrArg (fun u => State.ax u n) (turnOff_changes s n st w).1).trans (upd_self _ _ _)
theorem turnOff_ax_other (s : State) (n k : AxisId) (st : Status) (w : Word) (h : k ≠ n) : (s.turnOff n st w).ax k = s.ax k :=
  (congrArg (fun u => State.ax u k) (turnOff_changes s n st w).1).trans (upd_other _ _ _ _ h)

theorem turnOff_axisOff (s : State) (n : AxisId) (st : Status) (w : Word) : s.axisOff (s.turnOff n st w) n := by
  have hx := turnOff_ax s n st w
  have hy := turnOff_ax_other s n
  obtain ⟨h1, h2, h3⟩ := turnOff_changes s n st w
  generalize s.turnOff n st w = t at h1 h2 h3 hx
  refine ⟨⟨?_, ?_, h2⟩, ?_⟩
  · rw [h1]; rfl
  · intro k hk; exact (congrArg (fun u => State.ax u k) h1).trans (upd_other _ _ _ _ hk)
  · rw [hx]
    refine ⟨rfl, rfl, rfl, rfl, rfl, rfl, rfl, rfl, rfl, rfl, rfl, rfl, rfl, rfl, rfl, ?_⟩
    intro o ho; rw [h3] at ho
    simpa using (List.mem_filter.1 ho).2
end Sys2Proof.Machine
end

