-- ==== Sys2Proof/Laws/Memory.lean ====
section
/-! SUPPORT. The canonical form of the flash contents, which every operation on them keeps (14_memory_port.md R365, R368). -/
namespace Sys2Proof.Machine
open Sys2Proof

@[simp] theorem wf_nil : Memory.wf [] = true := rfl

theorem wf_cons (a : Nat) (v : Byte) (m : List Host.Cell) :
    Memory.wf ((a, v) :: m) = true ↔ above a m = true ∧ v ≠ erasedByte ∧ Memory.wf m = true := by
  simp [Memory.wf, and_assoc]

theorem above_iff (a : Nat) (m : List Host.Cell) : above a m = true ↔ ∀ c ∈ m, a < c.1 := by simp [above]

/-- Writing a byte lists no address below the lower of its own and those listed. -/
theorem above_cellSet (m : List Host.Cell) (a b : Nat) (v : Byte) (h : above a m = true) (hb : a < b) : above a (cellSet m b v) = true := by
  induction m with
  | nil => unfold cellSet; split <;> simp [above, hb]
  | cons c m ih =>
    obtain ⟨d, w⟩ := c
    have hd : a < d := (above_iff a _).1 h _ List.mem_cons_self
    have hm : above a m = true := (above_iff a m).2 fun c hc => (above_iff a _).1 h c (List.mem_cons_of_mem _ hc)
    unfold cellSet
    split
    · split
      · exact h
      · rw [above_iff] at h ⊢
        intro c hc
        rcases List.mem_cons.1 hc with rfl | hc
        · exact hb
        · exact h c hc
    · split
      · split
        · exact hm
        · rw [above_iff] at hm ⊢
          intro c hc
          rcases List.mem_cons.1 hc with rfl | hc
          · exact hb
          · exact hm c hc
      · have := ih hm
        rw [above_iff] at this ⊢
        intro c hc
        rcases List.mem_cons.1 hc with rfl | hc
        · exact hd
        · exact this c hc

theorem above_trans (a b : Nat) (m : List Host.Cell) (h : a ≤ b) (hm : above b m = true) : above a m = true := by
  rw [above_iff] at hm ⊢
  intro c hc
  have := hm c hc
  omega

/-- A byte written keeps the form. -/
theorem cellSet_wf (m : List Host.Cell) (a : Nat) (v : Byte) (h : Memory.wf m = true) : Memory.wf (cellSet m a v) = true := by
  induction m with
  | nil => unfold cellSet; split <;> simp_all [Memory.wf, above]
  | cons c m ih =>
    obtain ⟨d, w⟩ := c
    obtain ⟨h1, h2, h3⟩ := (wf_cons d w m).1 h
    unfold cellSet
    split
    · rename_i had
      split
      · exact h
      · rename_i hv
        refine (wf_cons _ _ _).2 ⟨?_, hv, h⟩
        rw [above_iff]
        intro c hc
        rcases List.mem_cons.1 hc with rfl | hc
        · exact had
        · exact Nat.lt_trans had ((above_iff d m).1 h1 c hc)
    · split
      · rename_i hd
        split
        · exact h3
        · rename_i hv
          exact (wf_cons _ _ _).2 ⟨hd ▸ h1, hv, h3⟩
      · rename_i h4 h5
        refine (wf_cons _ _ _).2 ⟨above_cellSet m d a v h1 (by omega), h2, ih h3⟩

/-- A page programmed keeps the form. -/
theorem cellWrite_wf (m : List Host.Cell) (a : Nat) (l : List Byte) (h : Memory.wf m = true) : Memory.wf (cellWrite m a l) = true := by
  induction l generalizing m a with
  | nil => exact h
  | cons v l ih => exact ih _ _ (cellSet_wf m a v h)

/-- Any part of a list in the form is in it. -/
theorem filter_wf (m : List Host.Cell) (f : Host.Cell → Bool) (h : Memory.wf m = true) : Memory.wf (m.filter f) = true := by
  induction m with
  | nil => rfl
  | cons c m ih =>
    obtain ⟨d, w⟩ := c
    obtain ⟨h1, h2, h3⟩ := (wf_cons d w m).1 h
    rw [List.filter_cons]
    split
    · refine (wf_cons _ _ _).2 ⟨?_, h2, ih h3⟩
      rw [above_iff] at h1 ⊢
      exact fun c hc => h1 c (List.mem_filter.1 hc).1
    · exact ih h3

/-- A stretch erased keeps the form. -/
theorem cellErase_wf (m : List Host.Cell) (a k : Nat) (h : Memory.wf m = true) : Memory.wf (cellErase m a k) = true := filter_wf m _ h

/-- An operation of FW_STAGE on the flash keeps the form (R368). -/
theorem flashWrite_wf (s : State) (j : FlashJob) (h : Memory.wf s.mp.flash = true) : Memory.wf (s.flashWrite j).mp.flash = true := by
  cases j with
  | erase r b => exact cellErase_wf _ _ _ h
  | program r o l => exact cellWrite_wf _ _ _ h
  | table r t a => exact h
  | library r a b c d => exact h
  | verify r => exact h

/-- The flash contents are in the form at reset. -/
theorem reset_flash_wf : Memory.wf State.reset.mp.flash = true := rfl

end Sys2Proof.Machine
end

