-- ==== Sys2Proof/Tests/Slice0.lean ====
section
/-! SUPPORT. Small states, the commands that WellFormed refuses, and for each statement states that meet its hypotheses. -/
namespace Sys2Proof.Tests
open Sys2Proof Sys2Proof.Machine
set_option maxRecDepth 20000
set_option Elab.async false

/-! ### Small states -/

def R : State := State.reset

/-- A packet of queue 1 that core 0 holds, under tag 0x1234. -/
def pkf (opc axis flags : Byte) (par : List Byte) : Packet :=
  ⟨[opc, flags, 0x34, 0x12, axis, 1, BitVec.ofNat 8 par.length, 0, 0, 0, 0, 0, 0, 0, 0, 0] ++ par, 1, 0, some 0, none, false⟩

/-- The same, without flags. -/
def pk (opc axis : Byte) (par : List Byte) : Packet := pkf opc axis 0 par

/-- A state in which that packet is the only one. -/
def holding (s : State) (p : Packet) : State := { s with q := { s.q with packets := [p], nextSeq := 1 } }

/-- A flash device of 16 MiB that qualifies. -/
def chip : Sfdp :=
  { signature := true, density := 0x1000000, read111 := some ⟨0x0B, 8⟩, read112 := none, read122 := none, read114 := none
    read144 := none, quadEnable := 0, modeBits := none, address4 := 0, erase4k := some 0x20, erase64k := some 0xD8, pageSize := 256
    suspend := true }

/-- Device 0 of the memory port is there and qualified. -/
def flashed (m : MemPort) : MemPort := { m with dev0 := true, chip0 := some chip }

/-- The life-cycle state with its state word. -/
def inState (s : State) (l : LifeCycle) : State := { s with nvm := { s.nvm with lc := l, lcWord := lifeWord l } }

/-- An axis is on. -/
def on (s : State) (n : AxisId) : State := s.modDrv n fun d => { d with enabled := true, energised := true }

/-- Both safe-off inputs are high and SAFE_ACT has ended. -/
def safe (s : State) : State := { s with dev := { s.dev with safeAct := false } }

/-- A list of bytes as it lies in flash from an address on. -/
def cells (a : Nat) (l : List Byte) : List Host.Cell :=
  match l with
  | [] => []
  | v :: vs => (a, v) :: cells (a + 1) vs

/-- A segment of your host that a snapshot has seen. -/
def seg (k : SegKind) (tag : BitVec 16) : Segment :=
  { ref := .host tag 1, kind := k, overlap := false, deadline := none, start := none, batch := 0, flags := {}, seen := true
    blendOk := false }

/-- A segment that runs by a plan. -/
def runOf (g : Segment) (l : List Phase) : Run :=
  { seg := g, ms := 0, ps := 0, vs := 0, phases := l, target := none, unbounded := false, onM7 := false, decided := none, delay := 0
    home := .notHome, pCap := 0, capM := 0, timeoutAt := none, tailSeen := false }

/-- A stretch at rest or of a steady speed. -/
def flat (v : Int) (k : Nat) : Phase := ⟨0, v, 0, 0, k, .body⟩

def zeros (k : Nat) : List Byte := List.replicate k 0

/-- What runs and waits on an axis that is on. -/
def moving (n : AxisId) (r : List Run) (q : List Segment) : State :=
  (on R n).modMot n fun a => { a with runs := r, queue := q, mProg := 2000 * 65536 }

/-- Axis 5 has one command in flight, number 0, of the kind given. -/
def acting (s : State) (k : ActKind) : State :=
  { s with q := { s.q with actions := [⟨0, .host 0x1234 1, 5, k, [5], [], 0, 0⟩], nextAct := 1 } }

/-- A pin serves an axis by a function. -/
def routed (s : State) (i : PinId) (n : AxisId) (f : Nat) : State :=
  s.modPin i fun p => { p with entry := BitVec.ofNat 32 (n.val + 256 * f) }

def p40 : List Byte := leBytes 8 (2 ^ 24) ++ leBytes 8 (2 ^ 40) ++ leBytes 8 (2 ^ 30) ++ leBytes 8 (2 ^ 30) ++ zeros 8
def p32 : List Byte := leBytes 8 (2 ^ 40) ++ leBytes 8 (2 ^ 30) ++ leBytes 8 (2 ^ 30) ++ zeros 8
def p28 : List Byte := leBytes 8 (2 ^ 40) ++ leBytes 4 1000 ++ zeros 16
def p48 : List Byte := leBytes 8 (2 ^ 30) ++ leBytes 8 (2 ^ 40) ++ leBytes 8 (2 ^ 38) ++ leBytes 8 (2 ^ 20) ++ leBytes 8 (2 ^ 30) ++ zeros 8
def p12 : List Byte := leBytes 4 1000 ++ zeros 8
def p56 : List Byte := zeros 8 ++ leBytes 8 (2 ^ 40) ++ leBytes 8 (2 ^ 38) ++ leBytes 8 (2 ^ 30) ++ leBytes 8 (2 ^ 30) ++ zeros 16
def amps : List Byte := [0, 0x10, 4, 1, 0xE8, 3, 0xF4, 1, 0, 0, 0x2C, 1, 0xC8, 0, 0xF4, 1]

/-! ### States of the statements -/

def w_cfgGroup : State := holding R (pkf 0x08 0xFE 1 amps)
def w_cfgBad : State := holding (on R 6) (pkf 0x08 0xFE 1 (amps.set 1 0x11))
def w_bindBusy : State := holding (R.modMot 5 fun a => { a with queue := [seg (.hold 1 false) 7] }) (pk 0x0A 5 [3, 0, 0, 0])
def w_group : State := holding R (pkf 0x09 0xFE 2 [1, 0x1F, 5, 24, 4, 10, 3, 0])
def w_route : State := holding R (pk 0x0B 0xFF [1, 1, 2, 0, 7, 0, 5, 0x0B, 0, 0, 95, 0, 0x2F, 0x0F, 1, 1])
def w_bind : State := holding R (pk 0x0A 5 [7, 0, 0, 0])
def w_setPos : State := holding R (pk 0x0C 5 (leBytes 8 (2 ^ 30)))
def w_speed : State := holding R (pk 0x18 5 (leBytes 8 1))
def w_accel : State := holding R (pk 0x19 5 (zeros 8 ++ leBytes 8 1))
def w_stop : State := holding R (pk 0x1A 5 [])
def w_quick : State := holding R (pkf 0x1B 0xFE 1 [])

/-- An earlier MOVE_REL of axis 5 that no core has taken. -/
def early : Packet := { pk 0x11 5 p40 with queue := 2, core := none }
def w_stopFlush : State :=
  { R with q := { packets := [early, { pkf 0x1A 5 0x20 [] with seq := 1 }], nextSeq := 2 } }
def w_quickFlush : State :=
  { R with q := { packets := [early, { pkf 0x1B 0xFE 0x21 [] with seq := 1 }], nextSeq := 2 } }
def w_stopAll : State := { R with q := { packets := [early, { pk 0x7F 0xFF [] with seq := 1 }], nextSeq := 2 } }
def w_stopAllOn : State := { on R 3 with q := { packets := [early, { pk 0x7F 0xFF [] with seq := 1 }], nextSeq := 2 } }

def home5 : State := routed (on R 5) 9 5 4
def w_seg (opc : Byte) (par : List Byte) : State := holding home5 (pk opc 5 par)
def segs : List State :=
  [w_seg 0x10 p40, w_seg 0x11 p40, w_seg 0x12 p32, w_seg 0x13 p28, w_seg 0x14 p48, w_seg 0x15 p12, w_seg 0x16 p56]
def inBatch : Packet := { pk 0x11 5 p40 with bytes := (pk 0x11 5 p40).bytes.set 12 1 }
def aBatch : Batch :=
  { id := 1, pred := 0, master := 7, start := none, ovlMax := 0, mask := 0x20, contributed := 0, closed := false, tails := [], ends := []
    emptyAt := none }
def w_batchSeg : State := { on R 5 with q := { packets := [inBatch], nextSeq := 1, batches := [aBatch] } }
def w_segOff : State := holding R (pk 0x11 5 p40)
def w_segSupply : State := holding (home5.modGroup 1 fun g => { g with supplyHold := true, lockout := 1 }) (pk 0x11 5 p40)
def w_define : State := holding R (pk 0x20 0xFF ([1, 0, 0, 0, 7, 0, 0, 0] ++ zeros 8 ++ [0x20] ++ zeros 7))
def w_close : State :=
  { R with q := { packets := [pk 0x20 0xFF ([1, 0, 0, 0, 0, 1] ++ zeros 18)], nextSeq := 1, batches := [aBatch] } }

def w_enable : State := holding (safe R) (pk 0x1D 5 [])
def w_enableSafe : State := holding R (pk 0x1D 5 [])
def w_enableOn : State := holding (on (safe R) 5) (pk 0x1D 5 [])
def w_energise : State := (safe R).modDrv 5 fun d => { d with enabling := true }
def w_disable : State := holding (on R 5) (pk 0x1C 5 [])
def w_disableOff : State := holding R (pk 0x1C 5 [])
def w_flush : State :=
  holding (R.modMot 5 fun a => { a with queue := [seg (.hold 1 false) 7, seg (.hold 2 false) 8] }) (pk 0x1E 5 [])
def w_diagnose : State := holding R (pk 0x28 5 [])
def w_diagWait : State := holding (R.modGroup 1 fun g => { g with diag := some (6, 0) }) (pk 0x28 5 [])
def w_diagEnd : State := acting (R.modGroup 1 fun g => { g with diag := some (5, 0) }) .diagnose
def w_ident : State := holding (on R 5) (pk 0x29 5 [100, 0, 1, 0])
def w_clearAxis : State := holding (R.modProt 5 fun p => { p with latched := true, retry := .latch, tries := 4 }) (pk 0x38 5 [])
def w_clearAll : State :=
  { holding R (pk 0x38 0xFF []) with
    q := { packets := [pk 0x38 0xFF []], nextSeq := 1, live := [(0x1234, 1, 0xFF), (7, 1, 5)] }
    dev := { R.dev with gfault := 0xFF, tagLost := true } }
def w_owner (o : Owner) (op : Byte) : State := holding (R.modProt 5 fun p => { p with owner := o }) (pk 0x39 5 [op, 0, 0, 0])
def w_ownerMoving : State :=
  holding ((R.modProt 5 fun p => { p with owner := .localJog }).modMot 5 fun a => { a with jog := some ⟨true, 0, 0, [], 1⟩ })
    (pk 0x39 5 [0, 0, 0, 0])
def w_epochCmd : State := holding R (pk 0x58 0xFF ([0, 1, 0, 0, 0, 0, 0, 0] ++ [127, 0, 0, 0]))
def w_epoch : State :=
  { R with tb := { R.tb with epoch := some ⟨.host 0x1234 1, 256, 0x41, 3⟩
                             snap := Vector.ofFn fun (i : Fin 8) => 65536 * (i.val + 1) } }

/-! ### Tables, libraries, flash and firmware -/

def w_tblFlash : State := holding R (pk 0x30 0xFF [1, 1, 0, 0, 0, 0, 0, 0, 0, 0, 1, 0])
def w_tblPart : State := holding R (pk 0x30 0xFF [3, 0, 0xFF, 3, 1, 0, 0, 0, 1, 0, 2, 0])
def w_tblCommit : State := holding R (pk 0x30 0xFF [0, 2, 0, 0, 0, 0, 0, 0])

def w_library : State := holding R (pk 0x31 0xFF [0, 0, 1, 0, 2, 0, 1, 0, 4, 0, 0, 0])
def hold5 : Record := { opc := 0x15, flags := 0, axis := 5, deadline := 0, batch := 0, params := p12 }
def streaming : State :=
  { on R 5 with mp := { R.mp with stream := some ⟨.host 7 1, 16, 4, [hold5], 2, [5]⟩ }
                q := { live := [(16, 1, 0xFF), (17, 1, 0xFF), (18, 1, 0xFF), (19, 1, 0xFF)] } }
def w_streamFull : State := streaming.modMot 5 fun a => { a with queue := List.replicate 16 (seg (.hold 1 false) 7) }

def fl (j : List FlashJob) : State := { R with mp := { flashed R.mp with cfgErr := false, staging := true, jobs := j } }
def w_erase : State := fl [.erase (.host 7 1) 3]
def w_erase2 : State := fl [.erase (.host 7 1) 2, .erase (.host 7 1) 3]
def w_program : State := fl [.program (.host 7 1) 255 [1]]
def w_program2 : State := fl [.program (.host 7 1) 255 [1], .program (.host 7 1) 256 [2]]

/-- An image of 64 erased bytes of code (R369), with r and s such that the sum of the base point and the public key below has the
x-coordinate r; both were computed outside the model. -/
def image : List Byte :=
  [79, 80, 70, 87, 1, 0, 0, 0, 2, 0, 0, 0, 150, 72, 0, 0, 0, 0, 0, 0, 64, 0, 0, 0, 0, 0, 0, 0, 0, 0, 0, 0, 134, 103, 231, 24, 41,
    78, 158, 13, 241, 211, 6, 0, 186, 62, 235, 32, 31, 118, 74, 173, 45, 173, 114, 116, 134, 67, 228, 162, 133, 225, 209, 247,
    49, 204, 249, 122, 17, 166, 154, 125, 9, 5, 205, 240, 56, 37, 140, 49, 126, 208, 65, 219, 242, 61, 24, 42, 115, 140, 46, 67,
    66, 227, 199, 36, 49, 204, 249, 122, 17, 166, 154, 125, 9, 5, 205, 240, 56, 37, 140, 49, 126, 208, 65, 219, 242, 61, 24, 42,
    115, 140, 46, 67, 66, 227, 199, 36]
/-- That public key, x and then y. -/
def publicKey : List Byte :=
  [49, 108, 187, 235, 187, 37, 222, 97, 62, 154, 21, 79, 118, 69, 33, 49, 212, 170, 12, 143, 45, 17, 238, 11, 173, 91, 237, 123,
    188, 199, 75, 36, 63, 133, 178, 86, 56, 104, 84, 213, 151, 181, 228, 159, 3, 186, 201, 239, 1, 160, 158, 212, 225, 44, 248,
    20, 179, 19, 202, 91, 58, 154, 254, 208]
def withImage (s : State) (l : List Byte) : State := { s with mp := { flashed s.mp with flash := cells 0x40000 l } }
def w_verify : State :=
  let s := withImage (fl [.verify (.host 7 1)]) image
  { s with nvm := { s.nvm with fwKey := some publicKey } }
def w_verifyBad : State := withImage (fl [.verify (.host 7 1)]) (image.set 0 0)

def stage (par : List Byte) : State :=
  let s := holding R (pk 0x40 0xFF par)
  { s with mp := { flashed s.mp with cfgErr := false }, nvm := { s.nvm with markB := some ([], 5) } }
def w_stage0 : State := stage [0, 0, 0, 0]
def w_stage1 : State := stage ([1, 0, 0, 0, 0xFE, 0, 0, 0] ++ [1, 2, 3, 4])
def w_stage2 : State := stage [2, 0, 0, 0]

def switchable : State :=
  let s := holding R (pk 0x41 0xFF [0xA5, 0xC3, 0, 0])
  { s with mp := { flashed s.mp with cfgErr := false }, nvm := { s.nvm with markB := some ([], 5) } }
def w_switch : State := switchable
def w_switchWait : State := { switchable with mp := { switchable.mp with staging := true } }
def loading : State :=
  { R with dev := { R.dev with suspended := true, wdSuspended := true }
           nvm := { R.nvm with markB := some ([], 5) }
           mp := { flashed R.mp with switch := some (.loading (.host 7 1) true) } }
def w_codeBad : State := { withImage loading (image.set 32 0) with q := { staged := [⟨9, .ok, 0, 3, 1, 0, 0, false⟩] } }
def w_codeOk : State := withImage loading image
def w_boot : State := { R with mp := { flashed R.mp with boot := [true, false] } }
def w_bootOk : State :=
  let s := withImage w_boot image
  { s with nvm := { s.nvm with markB := some ((image.drop 32).take 32, 2), fwKey := some publicKey } }

/-! ### The life cycle, fuses, the log, block resets -/

def life (l : LifeCycle) (par : List Byte) : State :=
  let s := holding R (pk 0x48 0xFF par)
  { s with nvm := { s.nvm with lc := l, lcWord := lifeWord l, devKey := some (zeros 16), fwKey := some (zeros 64) } }
def w_life0 : State := life .field (zeros 8)
def w_life1 : State := life .service [1, 0, 0xA5, 0xC3, 0, 0, 0, 0]
def w_life2 : State := life .field [2, 0, 0xA5, 0xC3, 0x49, 0x54, 0x45, 0x52]
def w_life3 : State := life .manufacture [3, 0, 0xA5, 0xC3, 0, 0, 0, 0]
def w_devReset : State := life .service [] |> fun s => holding s (pk 0x4F 0xFF [0xA5, 0xC3, 0, 0])
def w_fuse : State := holding R (pk 0x49 0xFF [0xA5, 0xC3, 2, 0, 0, 1, 134, 3])
def w_fuseSkip : State := { w_fuse with nvm := { R.nvm with fuses := Vector.replicate 144 2 } }
def w_fuseEnd : State := { R with dev := { R.dev with fuseSeq := some (.host 7 1, [(0, 1), (134, 3)], 2, 0) } }
def entry (c : Byte) : ShaleEntry := { cls := c, code := 1, seq := 0, poh := 0, src := 0, frame := 0, data := 0 }
def w_shale : State := { R with dev := { R.dev with shalePend := [entry 3, entry 4] } }
def w_noVdd : State := { w_shale with sb := { R.sb with vdd := false } }
def w_shaleFull : State := { R with dev := { R.dev with shalePend := List.replicate 64 (entry 3) } }
def w_optWrite : State := { R with dev := { R.dev with optBusy := true, optWrite := some defaultOptions } }
def blk (b : Byte) : State := holding R (pk 0x50 0xFF [0xA5, 0xC3, b, 0])
def w_blkBusy (b : Byte) : State := { on (on (blk b) 0) 44 with mp := { R.mp with blkRst := 0xF } }
def w_blkEnd (b : Nat) : State := { R with dev := { R.dev with blkCmds := [(.host 7 1, b)] } }
def unlocked (s : State) : State := { s with hp := { s.hp with unlocked := true }, sb := { s.sb with unlocked := true } }
def w_blkReg : State := unlocked R
def w_blkRegBusy : State := { unlocked R with dev := { R.dev with safeHold := true } }
/-- The reset of the memory port runs, and a device that qualifies is on its first select. -/
def w_portReset : State := { w_blkEnd 16 with mp := { R.mp with blkRst := 1, chip0 := some chip } }

/-! ### Registers, frames, queues -/

def w_notReady : State := { R with dev := { R.dev with ready := false } }
def w_keyAgain : State := unlocked R
def manufacture : State := unlocked R
def w_keys : State := { unlocked R with nvm := { R.nvm with devKey := some [], fwKey := some [] } }
def w_optBad : State := { unlocked R with dev := { R.dev with staging := Vector.replicate 64 0 } }
def w_optOn : State := on (unlocked R) 0
def w_legOn : State := R.modLeg 0 fun l => { l with en := true }
def w_service : State := inState (unlocked R) .service
def w_hostDriven : State := w_service.modGroup 0 fun g => { g with hostedge := true, hostDriven := true }
def w_committed : State := w_hostDriven.modLeg 3 fun l => { l with commitBit := true }
def w_log : State := { R with nvm := { R.nvm with shale := [entry 7] } }

/-- A byte on HD1 and HD0, its bits 7 and 6 at the first edge. -/
def twoLanes (b : Byte) : List (BitVec 8) := [b >>> 6, b >>> 4 &&& 3, b >>> 2 &&& 3, b &&& 3]

/-- A frame: the command and the address byte, some edges at which your host drives nothing, and then its data levels. -/
def frame (command addr : Byte) (idle : Nat) (data : List (BitVec 8)) (ticks : List Nat) : HostFrame :=
  ⟨twoLanes command ++ twoLanes addr ++ List.replicate idle 0 ++ data, ticks⟩

/-- Two words from page 3 word 5 on eight lanes: two edges of turnaround, two of status, eight of data. -/
def readTwo : HostFrame := frame 0x23 0x05 (2 + 2 + 8) [] []
/-- A frame on two lanes that ends with its status. -/
def headOnly (op : Byte) : HostFrame := frame (op <<< 6) 0 (2 + 8) [] []
/-- The words 1 and 2 written to page 3 word 5 on two lanes. -/
def writeTwo : HostFrame := frame 0x43 0x05 (4 + 8) ([1, 0, 0, 0, 2, 0, 0, 0].flatMap twoLanes) [7, 8]
/-- A frame with the reserved lane code that ends after two edges, and one on four lanes that ends in its header. -/
def noLanes (op : Byte) : HostFrame := ⟨[op, 3], []⟩
def cut (op : Byte) : HostFrame := ⟨[op, 1, 0, 0, 0, 0, 0], []⟩
def pushed : List Byte := [1, 0, 0x34, 0x12, 0xFF, 1, 0, 0, 0, 0, 0, 0, 0, 0, 0xC8, 0x4B] ++ zeros 16
/-- That packet pushed to Q15 on eight lanes, each byte on one edge, and a pull of two entries. -/
def pushOne : HostFrame := frame 0xAF 0 (4 + 2) pushed []
def pullTwo : HostFrame := frame 0xE0 2 (2 + 2 + 32) [] []
def done (t : BitVec 16) : Completion := ⟨t, .ok, 0, 0xFF, 1, 0, 0, false⟩
def w_pull : State := { R with q := { ring := [done 7, done 8, done 9], live := [(7, 1, 3), (9, 1, 3)] } }
def waiting (l : List Packet) (c : Nat) : State := { R with q := { packets := l, cr := c } }
def untaken (q : QueueId) (o : Byte) : Packet := { pk o 0xFF [] with queue := q, core := none }
def w_take0 : State := waiting [untaken 0 1, { untaken 1 1 with seq := 1 }] 1
def w_takeP : State := waiting [untaken 1 1] 1
def w_takeNext : State := waiting [untaken 2 1] 1
def w_takeBad : State := waiting [untaken 0 0xEE] 1
def w_held : State := { R with dev := { R.dev with safeHold := true } }
def w_suspended : State := { R with dev := { R.dev with suspended := true } }

/-! ### Frames, segments and masters -/

def w_noClock : State := { R with dev := { R.dev with gfault := 1 } }
def w_drivenGroup : State := R.modGroup 0 fun g => { g with hostDriven := true }
def w_start : State := moving 5 [] [seg (.hold 1000 false) 7, seg (.hold 1 false) 8]
def homeOpen (s : State) (n : AxisId) (i : PinId) : State := routed s i n 4
def w_startHome : State := homeOpen (moving 5 [] [seg (.home true 100 (2 ^ 40) (2 ^ 38) (2 ^ 30) (2 ^ 30) 0 0) 7]) 5 9
def w_end : State := moving 5 [runOf (seg (.moveRel 0 1 1 1 0) 7) [flat 0 1000]] []
def w_endStop : State :=
  (moving 5 [runOf (seg (.velocity 1 1 1 0) 7) [flat 0 1000]] []).modMot 5 fun a =>
    { a with stop := some ⟨0, 0, [flat 0 100], false, false, false, none, 0⟩ }
def cruise (k : Nat) : Run := { runOf (seg (.velocity (2 ^ 20) (2 ^ 20) (2 ^ 20) 0) 7) [flat (2 ^ 20) k] with unbounded := true }
def w_cruise : State := moving 5 [cruise 1000] []
def w_reanchor : State := (moving 5 [cruise 0] []).modMot 5 fun a => { a with mProg := (2 ^ 30 + 5) * 65536 }
def w_deadQueue : State :=
  moving 5 [] [{ seg (.hold 1 false) 7 with deadline := some 1999 }, { seg (.hold 1 false) 8 with deadline := some 2001 }]
def w_deadRun : State := moving 5 [{ cruise 0 with seg := { (cruise 0).seg with deadline := some 2000 } }] []
def w_homeLate : State :=
  moving 5 [{ runOf (seg (.home true 100 (2 ^ 40) (2 ^ 38) (2 ^ 30) (2 ^ 30) 0 0) 7) [flat (2 ^ 20) 0] with
    home := .fast, unbounded := true, timeoutAt := some 100 }] []
def w_index : State := { R with tb := { R.tb with cprEff := 400, index := some 0, edge := upd R.tb.edge 0 fun e => { e with c := 800 } } }
def w_indexBad : State := { w_index with tb := { w_index.tb with edge := upd R.tb.edge 0 fun e => { e with c := 801 } } }
def w_rate : State := { R with tb := { R.tb with virt := upd R.tb.virt 1 fun v => { v with reg := 77, pend := true } } }
def w_flen : State := { R with tb := { R.tb with flen := 0, frame := 12 } }
def follower (tick : Nat) : State := { R with tb := { R.tb with roleEff := 2, tick := tick, frame := 300 } }
def w_follow : State := follower 160000
def w_followOn : State := on (follower 160000) 0
def w_lost : State := { R with tb := { R.tb with roleEff := 2, sincePulse := 768 } }
def w_master : State := { R with tb := { R.tb with roleEff := 1 } }

/-! ### Pins, axes and protection -/

def changed (f deb : Nat) (t : Nat) : State :=
  R.modPin 9 fun p => { p with entry := BitVec.ofNat 32 (5 + 256 * f + 4096 * deb), raw := true, tFirst := some t, tLast := t }
def w_outPin : State := routed R 9 5 15
def w_back : State := (changed 4 1 0).modPin 9 fun p => { p with qual := true }
def w_qual : State := changed 4 1 0
def w_plugPin : State := changed 11 0 0
def w_capture : State := changed 12 0 0
def w_encA : State := changed 1 0 0
def w_chatter : State := (routed R 9 5 4).modPin 9 fun p => { p with chatter := true, edges := [0] }
def w_return : State := R.modProt 5 fun p => { p with owner := .localJog }
def w_overload : State := w_outPin.modPin 9 fun p => { p with overloaded := true }
def w_brakeOff : State := R.modDrv 5 fun d => { d with brakeWait := true, disabling := true }
def w_brakeOn : State := R.modDrv 5 fun d => { d with brakeWait := true, energised := true }
def w_brakeEnable : State := acting (R.modDrv 5 fun d => { d with brakeWait := true, energised := true, enabling := true }) .enable
def w_boost : State := R.modDrv 5 fun d => { d with sel := { d.sel with armed := true, boostT := 200 * 320000 } }
def w_stand : State := (on R 5).modDrv 5 fun d => { d with selPrev := { d.selPrev with idleT := 500 * 320000 }, ghold := 300 }
def w_probe : State := R.modCfg 5 fun c => { c with plugEn := true }
def w_probed : State := w_probe.modProt 5 fun p => { p with probe := .plugged }
def w_open : State := (on R 5).modCoil 10 fun c => { c with openRun := 2 }
def w_share : State := ((on R 4).modGroup 1 fun g => { g with gang01 := true }).modProt 4 fun p => { p with shareA := 16 }
def w_lostSamples : State := R.modCoil 10 fun c => { c with lost := 16 }
def w_encoder : State := routed (routed (on R 5) 9 5 1) 10 5 2
def w_ends : State := moving 5 [runOf (seg (.hold 1000 false) 7) [flat 0 1000]] [seg (.hold 1 false) 8]
def w_settle : State := w_encoder.modCfg 5 fun c => { c with cprm := 4000 }
def w_close' : State := w_encoder.modCfg 5 fun c => { c with cprm := 4000, setpoint := true }
def w_closeEnable : State := acting (w_close'.modDrv 5 fun d => { d with enabling := true }) .enable
/-- An axis whose encoder failed since ENABLE, in MICROSTEP mode and in SETPOINT mode. -/
def w_disarmed : State := w_settle.modEnc 5 fun e => { e with disarmed := true }
def w_fallback : State := w_close'.modEnc 5 fun e => { e with disarmed := true, fallback := true }
def w_closeWait : State := w_close'.modProt 5 fun p => { p with retry := .energise }
def w_closeRetry : State := w_close'.modProt 5 fun p => { p with retry := .energise, tries := 3 }
def w_measure : State := R
def w_measureOn : State := R.modLeg 0 fun l => { l with en := true }
/-- FINE_LOST with three valid measurements behind it. -/
def w_fineLost : State := R.modGroup 0 fun g => { g with fineLost := true, fineGood := 3 }
def w_force : State := R.modAdc 0 fun a => { a with noSlot := 4097 }
def w_forceCoil : State := w_force.modCoil 0 fun c => { c with k := some 0, winP := true, winG := true }
def rwin (su : Int) (si : Nat) : State := R.modProt 5 fun p => { p with rwin := ⟨256, true, su, si⟩ }
def w_rcoilWeak : State := rwin 0 0
def w_rcoil : State := rwin (256 * 25600) (256 * 25600 * 250)
def w_rcoilNear : State := rwin (256 * 25600 * 4) (256 * 25600 * 1000)
def w_rcoilBad : State := rwin 0 (256 * 25600)
def w_ref : State := R.modObs 5 fun o => { o with refRun := true, refPar := 6400, refPerp := 640 }
def w_ke : State := R.modObs 5 fun o => { o with keCount := 256, keSumE := 25600, keSumF := 25600 }
def w_stall (r : BitVec 2) : State :=
  let s := moving 5 [runOf (seg (.hold 1000 false) 7) [flat 0 1000]] []
  (s.modObs 5 fun o => { o with stallRun := 4 }).modCfg 5 fun c => { c with react := r }
def w_stall0 : State := w_stall 0
def w_stall1 : State := w_stall 1
def w_stall2 : State := w_stall 2
def retrying (r : RetryState) (k : Nat) : State := (on R 5).modProt 5 fun p => { p with retry := r, tries := k }
def w_check : State := retrying .check 0
def w_checkLast : State := retrying .check 3
def w_resume : State :=
  (retrying .energise 1).modMot 5 fun a =>
    { a with held := some (1000 * 65536, 0), mProg := 2000 * 65536, runs := [runOf (seg (.hold 1000 false) 7) [flat 0 1000]]
             queue := [seg (.hold 1 false) 8] }
/-- Two axes of one OUT_SHORT wait; the second's own wait may have ended. -/
def w_mates (ended : Bool) : State :=
  (on (retrying .wait 1) 6).modProt 5 (fun p => { p with partner := some 6 }) |>.modProt 6 fun p =>
    { p with retry := .wait, partner := some 5, waitDone := ended }
/-- An axis that resumes a segment toward a limit that is active. -/
def w_resumeLimit : State :=
  ((routed (retrying .energise 1) 9 5 6).modPin 9 fun p => { p with acted := true }).modMot 5 fun a =>
    { a with held := some (1000 * 65536, 0), mProg := 2000 * 65536, runs := [cruise 1000] }
def w_thermal : State := (on R 5).modGroup 1 fun g => { g with thermSd := true }
def w_lockout : State := on R 5
def w_discrepancy : State := { R with dev := { R.dev with safeA := false, discNow := true } }
def w_safeDisc : State := { R with dev := { R.dev with safeDisc := true } }

/-! ### Resets, integrity, the side-band port -/

def atStage (t : Stage) : State := { R with dev := { R.dev with stage := t, ready := false, sources := 1 } }
def w_fuses : State := atStage .fuseSensing
def w_deferral : State := { atStage .nvmDeferral with nvm := { R.nvm with pulse := true } }
def w_options : State := { atStage .optionsLoad with nvm := { R.nvm with copyA := some defaultOptions } }
def w_erasing : State := { atStage .optionsLoad with nvm := { R.nvm with erasing := true, lc := .retired, lcWord := lifeWord .retired } }
/-- A state word of no state (R401). -/
def w_badWord : State := { w_options with nvm := { w_options.nvm with lcWord := 0 } }
def w_nrst : State := atStage .nrstWait
def w_wipe : State := atStage .ramWipe
def w_wipeDefaults : State := { w_wipe with dev := { w_wipe.dev with defaults := true } }
def w_wipeRetired : State := inState w_wipe .retired
def w_wipePend : State := { w_wipe with sb := { R.sb with pendReset := true, result := 0x80 } }
def w_driven : State := { R with dev := { R.dev with nrstDrive := true } }
def w_resumable : State :=
  { R with dev := { R.dev with suspended := true, wdSuspended := true }, q := { staged := [done 7] } }
def w_switching : State := { w_suspended with mp := { R.mp with switch := some (.waitBoundary .internal true) } }
def w_custom (a : Option Word) : State := R.modTable 0 fun t => { t with custom := some [], faddr := a }
def w_customLost : State := w_custom none
def w_customStored : State := w_custom (some 0x100000)
def w_ring : State := { R with q := { ring := [done 7] } }
def w_hsil : State := { R with sb := { R.sb with hsil := 1, hsilUse := 1 } }
def w_alert : State := { R with sb := { R.sb with causes := 1 } }
def w_pecReq : State := { R with sb := { R.sb with pecReq := true } }
def w_jog : State := (on R 5).modProt 5 fun p => { p with owner := .sideband }
def w_jogging : State := { w_jog with sb := { R.sb with jogs := [5] } }
def w_sbEnable : State := (safe R).modProt 5 fun p => { p with owner := .sideband }
def w_sbQueued : State := { R with q := { R.q with packets := [untaken 0 1], nextSeq := 1 } }
def w_retired : State := inState R .retired
def w_standby : State := { R with sb := { R.sb with power := .standby } }
def w_field : State := { R with nvm := { R.nvm with lc := .field, lcWord := lifeWord .field, passcode := 5 } }
def w_fieldLocked : State := { w_field with sb := { R.sb with lockedOut := true } }
def w_marked : State := { R with nvm := { R.nvm with markA := some ([], 1), markB := some ([], 2) } }
def allOn : State := { R with axes := Vector.replicate 48 { drv := { enabled := true, energised := true } } }
def w_allOn : State := allOn

/-! ### A table object -/

theorem cells_get (l : List Byte) : ∀ (a i : Nat), i < l.length → cellGet (cells a l) (a + i) = l.getD i 0 := by
  induction l with
  | nil => intro a i h; simp at h
  | cons v vs ih =>
    intro a i h
    cases i with
    | zero => simp [cells, cellGet]
    | succ j =>
      have h' : j < vs.length := by simpa using h
      have e : a + (j + 1) = a + 1 + j := by omega
      have h1 : ¬ a + 1 + j < a := by omega
      have h2 : ¬ a + 1 + j = a := by omega
      simpa [cells, cellGet, e, h1, h2] using ih (a + 1) j h'

theorem cells_read (s : State) (a : Nat) (l : List Byte) (hf : s.mp.flash = cells a l) (he : s.dev.opts[7] = 0)
    (ht : s.flashThere a l.length = true) : s.flashRead a l.length = some l := by
  have hb : ∀ i, i < l.length → s.flashByte (a + i) = l.getD i 0 := by
    intro i hi
    have hn : s.encrypted (a + i) = false := by
      simp only [State.encrypted, he, Bool.and_eq_false_imp, decide_eq_true_eq, decide_eq_false_iff_not]
      intro h; simp; omega
    simp [State.flashByte, hn, hf, cells_get l a i hi]
  simp only [State.flashRead, ht, if_true, Option.some.injEq]
  apply List.ext_getElem
  · simp
  · intro i h1 h2
    simp only [List.getElem_map, List.getElem_range]
    rw [hb i h2]
    simp [List.getD, List.getElem?_eq_getElem h2]

/-- The bytes of a table object but for its check: every entry is 0 (R372). -/
def tblBody : List Byte := [0x4F, 0x50, 0x4D, 0x54, 1, 0, 0, 0] ++ List.replicate 4096 0
def tblBytes : List Byte := tblBody ++ leBytes 4 (crc32 tblBody).toNat

theorem byteAt_left (l r : List Byte) (i : Nat) (h : i < l.length) : byteAt (l ++ r) i = byteAt l i := by
  simp [byteAt, List.getD, List.getElem?_append_left h]

theorem byteAt_right (l r : List Byte) (k i : Nat) (h : l.length = k) : byteAt (l ++ r) (k + i) = byteAt r i := by
  subst h
  rw [byteAt, byteAt, List.getD, List.getD, List.getElem?_append_right (by omega)]
  congr 2
  omega

theorem byteAt_zeros (k i : Nat) : byteAt (List.replicate k 0) i = 0 := by
  rw [byteAt, List.getD, List.getElem?_replicate]
  split <;> rfl

theorem word_back (l : List Byte) (k : Nat) (c : Word) (h : l.length = k) : wordAt (l ++ leBytes 4 c.toNat) k = c := by
  have e : ∀ j, byteAt (l ++ leBytes 4 c.toNat) (k + j) = byteAt (leBytes 4 c.toNat) j := fun j => byteAt_right _ _ _ _ h
  have hw := c.isLt
  have e2 : wordAt (l ++ leBytes 4 c.toNat) k = BitVec.ofNat 32 c.toNat := by
    simp only [wordAt, uAt]
    congr 1
    simp only [e, show List.range 4 = [0, 1, 2, 3] from rfl, List.map_cons, List.map_nil]
    generalize c.toNat = n at hw
    simp [leBytes, byteAt, leNat]
    omega
  simpa using e2

theorem tblBody_length : tblBody.length = 4104 := by rw [tblBody, List.length_append, List.length_replicate]; rfl
theorem tblBytes_length : tblBytes.length = 4108 := by rw [tblBytes, List.length_append, tblBody_length]; rfl

theorem tblBytes_low (i : Nat) (h : i < 8) : byteAt tblBytes i = byteAt [0x4F, 0x50, 0x4D, 0x54, 1, 0, 0, 0] i := by
  rw [tblBytes, byteAt_left _ _ _ (by rw [tblBody_length]; omega), tblBody, byteAt_left _ _ _ (by simpa using h)]

theorem tblBytes_entry (i : Nat) (h8 : 8 ≤ i) (h : i < 4104) : byteAt tblBytes i = 0 := by
  rw [tblBytes, byteAt_left _ _ _ (by rw [tblBody_length]; omega), tblBody]
  obtain ⟨j, rfl⟩ : ∃ j, i = 8 + j := ⟨i - 8, by omega⟩
  rw [byteAt_right _ _ 8 j rfl, byteAt_zeros]

theorem tblBytes_crc : wordAt tblBytes 4104 = crc32 tblBody := word_back _ _ _ tblBody_length

/-- A state whose flash holds that object. -/
def w_reload : State :=
  { R.modTable 1 fun x => { x with custom := some [], faddr := some 0x100000, reloading := true } with
    mp := { flashed R.mp with flash := cells 0x100000 tblBytes, jobs := [.table (.host 7 1) 1 0x100000] } }
def w_reloadBad : State := { w_reload with mp := { w_reload.mp with flash := [] } }

theorem tblObject : w_reload.tableObject 0x100000 = some (List.replicate 1024 0) := by
  have hr : w_reload.flashRead 0x100000 4108 = some tblBytes := by
    rw [← tblBytes_length]
    refine cells_read w_reload 0x100000 tblBytes rfl (by decide +kernel) ?_
    rw [tblBytes_length]; decide +kernel
  have hu : ∀ i k, i + k ≤ 8 → uAt tblBytes i k = uAt [0x4F, 0x50, 0x4D, 0x54, 1, 0, 0, 0] i k := by
    intro i k h
    simp only [uAt]
    congr 1
    apply List.map_congr_left
    intro j hj
    exact tblBytes_low _ (by have := List.mem_range.1 hj; omega)
  have ht : tblBytes.take 4104 = tblBody := by
    rw [← tblBody_length, tblBytes]; simp
  have hen : ∀ i, i < 1024 → wordAt tblBytes (8 + 4 * i) = 0 := by
    intro i hi
    simp only [wordAt, uAt, show List.range 4 = [0, 1, 2, 3] from rfl, List.map_cons, List.map_nil]
    rw [tblBytes_entry _ (by omega) (by omega), tblBytes_entry _ (by omega) (by omega), tblBytes_entry _ (by omega) (by omega),
      tblBytes_entry _ (by omega) (by omega)]
    rfl
  have hl : ((List.range 1024).map fun i => wordAt tblBytes (8 + 4 * i)) = List.replicate 1024 0 := by
    rw [List.eq_replicate_iff]
    refine ⟨by simp, ?_⟩
    intro b hb
    obtain ⟨i, hi, rfl⟩ := List.mem_map.1 hb
    exact hen i (List.mem_range.1 hi)
  simp only [State.tableObject, hr, hu 0 4 (by omega), hu 4 2 (by omega), hu 6 2 (by omega), ht, tblBytes_crc, hl]
  rfl

/-! ### Well-formed commands -/

/-- A command of each bounded kind at the edge of its bound. -/
theorem test_wf : (Instr.registerWrite writeTwo).wf = true ∧ (Instr.commit .host 0 0 15999).wf = true
    ∧ (Instr.delayLineMeasure 0 (Vector.replicate 16 96)).wf = true ∧ (Instr.sramScrub (.completion 1023)).wf = true
    ∧ (Instr.sramScrub (.packet 1)).wf = true ∧ (Instr.blockResetEnd 11).wf = true ∧ (Instr.blockResetEnd 16).wf = true
    ∧ (Instr.safeOff true false 0).wf = true := by decide
/-- Each check refuses a command that breaks it: more words than edges in a frame, the tick of a word of it, the tick of a COMMIT, a tap
count, an index in the ring, a tag, a block's bit, a safe-off with both inputs high. -/
theorem test_wf_frame : (Instr.packetPush ⟨[2, 3], [0, 0, 0]⟩).wf = false := by decide
theorem test_wf_ticks : (Instr.registerWrite { writeTwo with ticks := [16000] }).wf = false := by decide
theorem test_wf_read : (Instr.registerReadFrame ⟨[], [0]⟩).wf = false := by decide
theorem test_wf_pull : (Instr.completionPull { pullTwo with ticks := [16000] }).wf = false := by decide
theorem test_wf_commit : (Instr.commit .host 0 0 16000).wf = false := by decide
theorem test_wf_counts : (Instr.delayLineMeasure 0 (Vector.replicate 16 97)).wf = false := by decide
theorem test_wf_completion : (Instr.sramScrub (.completion 1024)).wf = false := by decide
theorem test_wf_packet : (Instr.sramScrub (.packet 0)).wf = false := by decide
theorem test_wf_block : (Instr.blockResetEnd 12).wf = false ∧ (Instr.blockResetEnd 15).wf = false := by decide
theorem test_wf_safe : (Instr.safeOff false false 0).wf = false := by decide

/-! ### The queue and the invariants -/

/-- The state after a step. -/
def after (s : State) : State :=
  match step s with
  | .next t => t
  | .fault _ => s
  | .refused _ => s

theorem witness_idle : R.pending = [] := rfl
theorem witness_front : ({ R with pending := [.clkLost] } : State).pending = [.clkLost] := rfl
def entering : State := { w_field with pending := [.serviceEnter 5 none] }
theorem witness_lifeCycle : entering.nvm.lcWord = lifeWord entering.nvm.lc ∧ step entering = .next (after entering)
    ∧ (after entering).nvm.lc = .service := ⟨rfl, rfl, by decide +kernel⟩
theorem witness_noStateWord : w_badWord.dev.stage = .optionsLoad ∧ ∀ l, w_badWord.nvm.lcWord ≠ lifeWord l :=
  ⟨rfl, fun l => by cases l <;> decide⟩
theorem witness_enSafe : w_legOn.EnSafe := by decide +kernel
theorem witness_fuses : w_fuseEnd.FusesFresh := by
  intro ref l done skipped h
  obtain ⟨rfl, rfl, rfl, rfl⟩ : CmdRef.host 7 1 = ref ∧ [((0 : Fin 144), (1 : BitVec 2)), (134, 3)] = l ∧ 2 = done ∧ 0 = skipped := by
    simpa [w_fuseEnd] using h
  exact ⟨by decide, by decide +kernel⟩
theorem witness_flash : Memory.wf [(5, 1), (9, 3)] = true := by decide
theorem witness_actions : w_diagEnd.ActionsFresh := by decide

/-! ### Commands of the host -/

theorem witness_opcodeRow : opcodeRow (.echo 3) = some (3, 1) ∧ R.heldPacket 3 (isOpc 1) = none ∧ w_suspended.dev.suspended = true ∧ w_held.dev.safeHold = true
    ∧ (atStage .ramWipe).dev.stage ≠ .running := by decide
/-- An axis of SIDEBAND, a group in reset, and a DEADLINE that the opcode does not take. -/
theorem witness_refusals :
    (let p := pk 0x0C 5 (zeros 8)
     (holding w_jog p).Holds 0 0x0C p ∧ (holding w_jog p).opening p = some ((.rejectOwner, 4), some 5)
      ∧ (holding (R.modGroup 1 fun g => { g with resetting := true }) p).opening p = some ((.rejectState, 0xFFFFFFFF), none))
    ∧ (let p := { pk 0x1D 5 [] with bytes := (pk 0x1D 5 []).bytes.set 8 1 }
       (holding R p).Holds 0 0x1D p ∧ ((holding R p).opening p).isSome = true) := by decide +kernel
theorem witness_identify :
    (∀ k : Fin 7, let p := pk 2 0xFF [BitVec.ofNat 8 k.val, 0, 0, 0]; (holding R p).Admits 0 2 p)
    ∧ (let p := pk 2 0xFF [5, 0, 0, 1]; (holding R p).Admits 0 2 p ∧ uAt p.params 1 3 ≠ 0) := by decide +kernel
theorem witness_queries :
    (let p := pk 1 0xFF [1, 2]; (holding R p).Admits 0 1 p)
    ∧ (∀ snap : Fin 2, let p := pk 0x2A 47 [27, BitVec.ofNat 8 snap.val, 0, 0]; (holding R p).Admits 0 0x2A p)
    ∧ (∀ snap : Fin 2, let p := pkf 0x2B 0xFE 11 [7, BitVec.ofNat 8 snap.val, 15, 0]
        (holding R p).Admits 0 0x2B p ∧ p.groupId = some 11 ∧ groupItem 7 = some (24, 16)) := by decide +kernel
theorem witness_configAxis :
    (let p := pkf 0x08 0xFE 1 amps
     w_cfgGroup.Admits 0 8 p ∧ passes (configChecks p.params) ∧ ∀ n ∈ w_cfgGroup.addressed p, passes (w_cfgGroup.configAxisChecks p.params n))
    ∧ byteAt amps 0 = 0 := by decide +kernel
theorem witness_configFails :
    (let p := pkf 0x08 0xFE 1 (amps.set 1 0x11)
     w_cfgBad.Admits 0 8 p ∧ passes (configChecks p.params)
      ∧ (w_cfgBad.addressed p).find? (fun k => (firstFailure (w_cfgBad.configAxisChecks p.params k)).isSome) = some 6
      ∧ firstFailure (w_cfgBad.configAxisChecks p.params 6) = some (.rejectState, 17))
    ∧ (let p := pk 0x0A 5 [3, 0, 0, 0]
       w_bindBusy.Admits 0 0x0A p ∧ (w_bindBusy.addressed p).find? (fun k => (w_bindBusy.ax k).mot.hasSegments) = some 5) := by
  decide +kernel
theorem witness_groupsAndPins :
    (let p := pkf 9 0xFE 2 [1, 0x1F, 5, 24, 4, 10, 3, 0]
     w_group.Admits 0 9 p ∧ p.groupId = some 2 ∧ passes (w_group.configGroupChecks p.params 2))
    ∧ (let p := pk 0x0B 0xFF [1, 1, 2, 0, 7, 0, 5, 0x0B, 0, 0, 95, 0, 0x2F, 0x0F, 1, 1]
       w_route.Admits 0 0x0B p ∧ passes (w_route.routeChecks p.params)) := by decide +kernel
theorem witness_snapshotCommands :
    (let p := pk 0x0A 5 [7, 0, 0, 0]; w_bind.Admits 0 0x0A p ∧ ∀ n ∈ w_bind.addressed p, (w_bind.ax n).mot.hasSegments = false)
    ∧ (let p := pk 0x0C 5 (leBytes 8 (2 ^ 30))
       w_setPos.Admits 0 0x0C p ∧ ∀ n ∈ w_setPos.addressed p, (w_setPos.ax n).mot.hasSegments = false ∧ (w_setPos.ax n).mot.jog = none)
    ∧ (let p := pk 0x18 5 (leBytes 8 1); w_speed.Admits 0 0x18 p ∧ 0 < sAt p.params 0 8)
    ∧ (let p := pk 0x19 5 (zeros 8 ++ leBytes 8 1)
       w_accel.Admits 0 0x19 p ∧ 0 ≤ sAt p.params 0 8 ∧ 0 ≤ sAt p.params 8 8 ∧ 0 < sAt p.params 0 8 + sAt p.params 8 8) := by
  decide +kernel
theorem witness_stopCommands :
    w_stop.Admits 0 0x1A (pk 0x1A 5 []) ∧ w_quick.Admits 0 0x1B (pkf 0x1B 0xFE 1 [])
    ∧ w_stopFlush.Admits 0 0x1A { pkf 0x1A 5 0x20 [] with seq := 1 } ∧ w_quickFlush.Admits 0 0x1B { pkf 0x1B 0xFE 0x21 [] with seq := 1 }
    ∧ (pk 0x1A 5 []).flush = false ∧ (pkf 0x1B 0xFE 1 []).flush = false ∧ (pkf 0x1A 5 0x20 []).flush = true
    ∧ (pkf 0x1B 0xFE 0x21 []).flush = true ∧ w_stopFlush.mp.stream = none ∧ w_quickFlush.mp.stream = none
    ∧ (R.q.actions.all fun a => a.id ≠ 0) = true := by decide +kernel
theorem witness_segments :
    (∀ x ∈ [(w_seg 0x10 p40, pk 0x10 5 p40, 0x10), (w_seg 0x11 p40, pk 0x11 5 p40, 0x11), (w_seg 0x12 p32, pk 0x12 5 p32, 0x12),
        (w_seg 0x13 p28, pk 0x13 5 p28, 0x13), (w_seg 0x14 p48, pk 0x14 5 p48, 0x14), (w_seg 0x15 p12, pk 0x15 5 p12, 0x15),
        (w_seg 0x16 p56, pk 0x16 5 p56, 0x16)],
      State.Admits x.1 0 x.2.2 x.2.1 ∧ passes (State.segmentChecks x.1 x.2.1 5))
    ∧ w_batchSeg.Admits 0 0x11 inBatch ∧ passes (w_batchSeg.segmentChecks inBatch 5) ∧ inBatch.batch = 1 := by decide +kernel
theorem witness_refusedSegments :
    (let p := pk 0x11 5 p40; w_segOff.Admits 0 0x11 p ∧ firstFailure (w_segOff.segmentChecks p 5) = some (.rejectState, 0xFFFFFFFF))
    ∧ (∀ x ∈ [(0x10, p40), (0x12, p32), (0x13, p28), (0x14, p48), (0x15, p12), (0x16, p56)],
        let p := pk (BitVec.ofNat 8 x.1) 5 x.2
        (holding R p).Admits 0 x.1 p ∧ (firstFailure ((holding R p).segmentChecks p 5)).isSome = true) := by decide +kernel
theorem witness_batches :
    (let p := pk 0x20 0xFF ([1, 0, 0, 0, 7, 0, 0, 0] ++ zeros 8 ++ [0x20] ++ zeros 7)
     w_define.opening p = none ∧ w_define.heldPacket 0 (fun x => isOpc 0x20 x && !isClose x) = some p ∧ passes (w_define.declareChecks p.params))
    ∧ (let p := pk 0x20 0xFF ([1, 0, 0, 0, 0, 1] ++ zeros 18)
       w_close.opening p = none ∧ w_close.heldPacket 0 isClose = some p ∧ passes (w_close.closeChecks p.params)) := by decide +kernel
theorem witness_enable :
    (let p := pk 0x1D 5 []
     w_enable.Admits 0 0x1D p ∧ ∀ n ∈ w_enable.addressed p,
      passes (w_enable.enableChecks n) ∧ (w_enable.ax n).drv.enabled = false ∧ (w_enable.ax n).drv.enabling = false)
    ∧ passes (w_enable.enableChecks 5) ∧ (w_energise.ax 5).drv.enabling = true := by decide +kernel
theorem witness_enableAtOnce :
    (let p := pk 0x1D 5 []
     w_enableSafe.ActionsFresh ∧ w_enableSafe.Admits 0 0x1D p ∧ firstFailure (w_enableSafe.enableChecks 5) = some (.safeOff, 0)
      ∧ w_enableOn.Admits 0 0x1D p ∧ passes (w_enableOn.enableChecks 5) ∧ (w_enableOn.ax 5).drv.enabled = true
      ∧ (w_enableOn.ax 5).drv.enabling = false) := by decide +kernel
theorem witness_disable :
    (let p := pk 0x1C 5 []
     w_disable.Admits 0 0x1C p ∧ w_disable.mp.stream = none
      ∧ (∀ n ∈ w_disable.addressed p, (w_disable.ax n).drv.enabled = true ∧ w_disable.disablingNow n = false)
      ∧ w_disableOff.Admits 0 0x1C p ∧ w_disableOff.ActionsFresh ∧ w_disableOff.disablingNow 5 = false
      ∧ (w_disableOff.ax 5).drv.enabled = false ∧ (w_disableOff.ax 5).drv.enabling = false) := by decide +kernel
theorem witness_flushAndStopAll :
    w_flush.Admits 0 0x1E (pk 0x1E 5 []) ∧ (∀ g ∈ (w_flush.ax 5).mot.queue, (g.ref = .host 7 1 ∨ g.ref = .host 8 1) ∧ g.lost = false)
    ∧ w_flush.mp.stream = none ∧ w_stopAll.mp.stream = none ∧ w_stopAll.ActionsFresh ∧ w_stopAllOn.ActionsFresh
    ∧ w_stopAll.Admits 0 0x7F { pk 0x7F 0xFF [] with seq := 1 } ∧ w_stopAllOn.Admits 0 0x7F { pk 0x7F 0xFF [] with seq := 1 } := by
  decide +kernel
theorem witness_diagnosis :
    w_diagnose.Admits 0 0x28 (pk 0x28 5 []) ∧ (w_diagnose.grp 1).diag = none ∧ (w_diagnose.grp 1).diagQueue = []
    ∧ (w_diagnose.grp 1).lockout = 0 ∧ (w_diagnose.ax 5).drv.enabling = false ∧ (w_diagEnd.grp 1).diagQueue = []
    ∧ (w_diagnose.ax 5).drv.enabled = false ∧ w_diagnose.isPartner 5 = false
    ∧ w_diagWait.Admits 0 0x28 (pk 0x28 5 []) ∧ (w_diagWait.grp 1).diag.isSome = true
    ∧ (w_diagEnd.grp 1).diag = some (5, 0) ∧ w_diagEnd.WaitsFor 0 .diagnose 5 0x1234 1
    ∧ w_ident.Admits 0 0x29 (pk 0x29 5 [100, 0, 1, 0]) ∧ passes (w_ident.identChecks [100, 0, 1, 0] 5) := by decide +kernel
theorem witness_clearFault :
    w_clearAxis.Admits 0 0x38 (pk 0x38 5 []) ∧ w_clearAxis.parityStands (pk 0x38 5 []) = false
    ∧ w_clearAll.Admits 0 0x38 (pk 0x38 0xFF []) ∧ w_clearAll.parityStands (pk 0x38 0xFF []) = false := by decide +kernel
theorem witness_ownership :
    (∀ o ∈ [Owner.host, .sideband, .localJog], ∀ op : Fin 3,
      let p := pk 0x39 5 [BitVec.ofNat 8 op.val, 0, 0, 0]
      (w_owner o (BitVec.ofNat 8 op.val)).Admits 0 0x39 p ∧ ((w_owner o (BitVec.ofNat 8 op.val)).ax 5).prot.owner = o
        ∧ uAt p.params 1 3 = 0)
    ∧ (w_owner .localJog 0).localFree 5 = true ∧ w_ownerMoving.Admits 0 0x39 (pk 0x39 5 [0, 0, 0, 0]) ∧ w_ownerMoving.localFree 5 = false
    ∧ (let p := pk 0x39 5 [1, 0, 0, 1]; (holding R p).Admits 0 0x39 p) := by decide +kernel
theorem witness_epochs :
    (let p := pk 0x58 0xFF ([0, 1, 0, 0, 0, 0, 0, 0] ++ [127, 0, 0, 0])
     w_epochCmd.Admits 0 0x58 p ∧ w_epochCmd.tb.roleEff ≠ 2 ∧ w_epochCmd.maskBound 127 = false ∧ w_epochCmd.tb.epoch = none)
    ∧ w_epoch.tb.epoch = some ⟨.host 0x1234 1, 256, 0x41, 3⟩ ∧ w_epoch.epochDue = true ∧ w_epoch.dev.suspended = false
    ∧ w_epoch.dev.safeHold = false ∧ R.tb.epoch = none := by
  decide +kernel

/-! ### Tables, libraries, flash and firmware -/

theorem witness_tables :
    (let p := pk 0x30 0xFF [1, 1, 0, 0, 0, 0, 0, 0, 0, 0, 1, 0]; w_tblFlash.Admits 0 0x30 p ∧ passes (w_tblFlash.tableChecks p.params))
    ∧ (let p := pk 0x30 0xFF [3, 0, 0xFF, 3, 1, 0, 0, 0, 1, 0, 2, 0]; w_tblPart.Admits 0 0x30 p ∧ passes (w_tblPart.tableChecks p.params))
    ∧ (let p := pk 0x30 0xFF [0, 2, 0, 0, 0, 0, 0, 0]; w_tblCommit.Admits 0 0x30 p ∧ passes (w_tblCommit.tableChecks p.params))
    ∧ 1023 + [(5 : Word)].length ≤ ((List.range 1024).map fun i => BitVec.ofNat 32 i).length := by decide +kernel
theorem witness_reload :
    R.tables[1].reloading = false ∧ w_reload.tables[1].reloading = true ∧ w_reload.tables[1].faddr = some 0x100000
    ∧ w_reload.flashThere 0x100000 4108 = true ∧ w_reloadBad.flashThere 0x100000 4108 = true := by decide +kernel
theorem witness_reloadFails : w_reloadBad.tableObject 0x100000 = none := by
  have hr : w_reloadBad.flashRead 0x100000 4108 = some ((List.range 4108).map fun i => w_reloadBad.flashByte (0x100000 + i)) := by
    have ht : w_reloadBad.flashThere 0x100000 4108 = true := by decide +kernel
    simp only [State.flashRead, ht, if_true]
  have hb : ∀ (k : Nat) (f : Nat → Byte), 4 ≤ k → uAt ((List.range k).map f) 0 4 = uAt [f 0, f 1, f 2, f 3] 0 4 := by
    intro k f hk
    have h : ∀ i, i < k → byteAt ((List.range k).map f) i = f i := by
      intro i hi
      simp [byteAt, List.getD, hi]
    simp only [uAt, show List.range 4 = [0, 1, 2, 3] from rfl, List.map_cons, List.map_nil]
    rw [h _ (by omega), h _ (by omega), h _ (by omega), h _ (by omega)]
    rfl
  simp only [State.tableObject, hr]
  rw [if_neg]
  intro h
  simp only [Bool.and_eq_true, decide_eq_true_eq] at h
  have h1 := h.1.1.1
  rw [hb _ _ (by omega)] at h1
  revert h1
  decide +kernel
theorem witness_tableRead : w_reload.served = some (.table (.host 7 1) 1 0x100000) ∧ (List.replicate 1024 (0 : Word)).all entryOk = true :=
  ⟨by decide, by rw [List.all_replicate]; decide⟩
theorem witness_libraries :
    w_library.Admits 0 0x31 (pk 0x31 0xFF [0, 0, 1, 0, 2, 0, 1, 0, 4, 0, 0, 0])
    ∧ streaming.dev.stage = .running ∧ streaming.dev.suspended = false ∧ streaming.dev.safeHold = false
    ∧ streaming.mp.stream = some ⟨.host 7 1, 16, 4, [hold5], 2, [5]⟩ ∧ w_streamFull.queueFull hold5 = true
    ∧ (streaming.ax 5).mot.queue.length + (streaming.ax 5).mot.runs.length < 16
    ∧ (let p := hold5.packet 18 1
       p.axis = hold5.axis ∧ p.batch = 0 ∧ streaming.asyncCheck p = none ∧ streaming.opening p = none
        ∧ passes (streaming.segmentChecks p 5)) := by decide +kernel
theorem witness_flashOps :
    R.mp.jobs = [] ∧ w_erase.served = some (.erase (.host 7 1) 3)
    ∧ w_erase.flashThere (w_erase.bankBase w_erase.inactiveBank + 0x10000 * 3) 0x10000 = true
    ∧ (w_erase.mp.jobs.erase (.erase (.host 7 1) 3)).any FlashJob.isStage = false
    ∧ w_erase2.served = some (.erase (.host 7 1) 2) ∧ (w_erase2.mp.jobs.erase (.erase (.host 7 1) 2)).any FlashJob.isStage = true
    ∧ w_program.served = some (.program (.host 7 1) 255 [1])
    ∧ w_program2.served = some (.program (.host 7 1) 255 [1])
    ∧ w_program.flashThere (w_program.bankBase w_program.inactiveBank + 255) 1 = true
    ∧ w_verifyBad.served = some (.verify (.host 7 1)) ∧ w_verifyBad.verifyCode true = 1 := by decide +kernel
theorem witness_verified : w_verify.served = some (.verify (.host 7 1)) ∧ w_verify.verifyCode w_verify.inactiveBank = 0 := by
  decide +kernel
theorem witness_staging :
    (let p := pk 0x40 0xFF [0, 0, 0, 0]; w_stage0.Admits 0 0x40 p ∧ passes (w_stage0.stageChecks p))
    ∧ (let p := pk 0x40 0xFF ([1, 0, 0, 0, 0xFE, 0, 0, 0] ++ [1, 2, 3, 4]); w_stage1.Admits 0 0x40 p ∧ passes (w_stage1.stageChecks p))
    ∧ (let p := pk 0x40 0xFF [2, 0, 0, 0]; w_stage2.Admits 0 0x40 p ∧ passes (w_stage2.stageChecks p)) := by decide +kernel
theorem witness_switch :
    (let p := pk 0x41 0xFF [0xA5, 0xC3, 0, 0]
     w_switch.Admits 0 0x41 p ∧ (w_switch.mark w_switch.inactiveBank).isSome = true ∧ w_switch.quiet = true
      ∧ w_switch.mp.cfgErr = false ∧ w_switch.mp.switch = none ∧ w_switchWait.mp.cfgErr = false ∧ w_switchWait.mp.switch = none
      ∧ w_switchWait.Admits 0 0x41 p ∧ (w_switchWait.mark w_switchWait.inactiveBank).isSome = true ∧ w_switchWait.quiet = false)
    ∧ w_codeBad.mp.switch = some (.loading (.host 7 1) true) ∧ w_codeBad.dev.suspended = true ∧ w_codeBad.dev.safeHold = false
    ∧ w_codeBad.sb.waiting = [] ∧ w_codeOk.mp.switch = some (.loading (.host 7 1) true) := by decide +kernel
theorem witness_codeLoaded :
    w_codeOk.imageHeader true = some image ∧ w_codeOk.codeOk true (imageOf image) = true ∧ (w_bootOk.bootImage true).isSome = true
    ∧ w_codeBad.imageHeader true = some (image.set 32 0) ∧ w_codeBad.codeOk true (imageOf (image.set 32 0)) = false
    ∧ w_boot.bootImage true = none ∧ ∀ s ∈ [w_boot, w_bootOk],
      s.mp.boot = [true, false] ∧ s.dev.ready = true ∧ s.mp.switch = none ∧ s.dev.suspended = false ∧ s.quiet = true := by decide +kernel

/-! ### The life cycle, fuses, the log, block resets -/

theorem witness_lifecycle :
    (let p := pk 0x48 0xFF (zeros 8); w_life0.Admits 0 0x48 p ∧ passes (w_life0.lifeChecks p.params))
    ∧ (let p := pk 0x48 0xFF [1, 0, 0xA5, 0xC3, 0, 0, 0, 0]; w_life1.Admits 0 0x48 p ∧ passes (w_life1.lifeChecks p.params))
    ∧ (let p := pk 0x48 0xFF [2, 0, 0xA5, 0xC3, 0x49, 0x54, 0x45, 0x52]
       w_life2.Admits 0 0x48 p ∧ passes (w_life2.lifeChecks p.params))
    ∧ (let p := pk 0x48 0xFF [3, 0, 0xA5, 0xC3, 0, 0, 0, 0]; w_life3.Admits 0 0x48 p ∧ passes (w_life3.lifeChecks p.params))
    ∧ w_devReset.Admits 0 0x4F (pk 0x4F 0xFF [0xA5, 0xC3, 0, 0]) := by decide +kernel
theorem witness_fuseProgram :
    (let p := pk 0x49 0xFF [0xA5, 0xC3, 2, 0, 0, 1, 134, 3]
     w_fuse.Admits 0 0x49 p ∧ passes (w_fuse.fuseChecks p.params) ∧ (∀ r ∈ fuseRecords p.params, w_fuse.blown r.1 = false)
      ∧ w_fuseSkip.Admits 0 0x49 p ∧ passes (w_fuseSkip.fuseChecks p.params) ∧ ∀ r ∈ fuseRecords p.params, w_fuseSkip.blown r.1 = true)
    ∧ ([((0 : Fin 144), (1 : BitVec 2)), (134, 3)].map (·.1)).Nodup := by decide +kernel
theorem witness_nvm :
    R.dev.shalePend.length < 64 ∧ 64 ≤ w_shaleFull.dev.shalePend.length ∧ w_optWrite.dev.optWrite = some defaultOptions
    ∧ w_shale.dev.shalePend = [entry 3, entry 4] ∧ w_shale.nvm.shale.length ≤ 3968
    ∧ (entry 3).broken = false ∧ w_shale.dev.shaleDropped = 0 ∧ w_shale.sb.vdd = true ∧ w_optWrite.sb.pendBank = false
    ∧ w_optWrite.sb.vdd = true ∧ w_fuseEnd.sb.vdd = true ∧ w_noVdd.sb.vdd = false ∧ w_noVdd.nvm.pulse = false := by decide +kernel
theorem witness_blockCommands :
    (∀ b ∈ [0, 11, 16, 19], let p := pk 0x50 0xFF [0xA5, 0xC3, b, 0]
      (blk b).Admits 0 0x50 p ∧ (blk b).blockBusy b.toNat false = none
        ∧ (w_blkBusy b).Admits 0 0x50 p ∧ (w_blkBusy b).blockBusy b.toNat false = some (if b < 12 then 1 else 2))
    ∧ (w_blkEnd 17).dev.blkCmds = [(.host 7 1, 17)] ∧ w_portReset.dev.blkCmds = [(.host 7 1, 16)]
    ∧ w_portReset.blockRunning 16 = true ∧ qualifies chip = true := by decide +kernel
theorem witness_blockWords :
    w_blkReg.unlockedBy .host = true ∧ (∀ b ∈ [0, 11, 16, 17, 18, 19], w_blkReg.blockBusy b false = none)
    ∧ w_blkReg.tb.epoch = none ∧ ∀ b ∈ [0, 11, 16, 17, 18, 19], w_blkRegBusy.blockBusy b false = some 4 := by decide +kernel

/-! ### Registers, frames, queues -/

theorem witness_unlock : Port.sideband ≠ .host ∧ R.dev.ready = true ∧ (0 : Word) ≠ 0x0000C3A5 := by decide
theorem witness_locked : w_notReady.dev.ready = false ∧ R.dev.ready = true ∧ R.unlockedBy .host = false := by decide
theorem witness_options :
    w_blkReg.dev.optBusy = false ∧ (∀ n, (w_blkReg.ax n).drv.enabled = false) ∧ w_blkReg.nvm.lc = .manufacture
    ∧ optionsOk w_blkReg.dev.staging = true ∧ optionsOk w_optBad.dev.staging = false ∧ (w_optOn.ax 0).drv.enabled = true
    ∧ w_blkReg.nvm.devKey = none ∧ w_blkReg.nvm.fwKey = none ∧ w_keys.nvm.devKey.isSome = true ∧ w_keys.nvm.fwKey.isSome = true := by
  decide +kernel
theorem witness_pairs :
    pairLo 3 0x01 = some 0x01 ∧ pairLo 3 0x1E = some 0x1E ∧ pairLo 4 0x42 = some 0x42 ∧ R.nvm.lc ≠ .retired
    ∧ (∀ n, (R.ax n).drv.enabled = true → (R.ax n).mot.master ≠ 0)
    ∧ (((on R 0).modMot 0 fun a => { a with master := 3 }).ax 0).mot.master = 3 := by decide +kernel
theorem witness_timeWords :
    6 ≤ ((7 : Word).setWidth 3).toNat ∧ ((5 : Word).setWidth 3).toNat < 6 ∧ (∀ m, (R.leg m).en = false) ∧ (w_legOn.leg 0).en = true
    ∧ (3 : Word).setWidth 2 = (3 : BitVec 2) ∧ (2 : Word).setWidth 2 ≠ R.tb.role ∧ ((on R 0).ax 0).drv.enabled = true
    ∧ w_log.shaleValid[((0 : Word).setWidth 12 : BitVec 12).toNat]? = some (entry 7)
    ∧ w_log.shaleValid.length ≤ ((1 : Word).setWidth 12 : BitVec 12).toNat := by decide +kernel
theorem witness_edgeWords :
    w_service.nvm.lc = .service ∧ (∀ n ∈ groupAxes 0, (w_service.ax n).drv.enabled = false ∧ (w_service.ax n).drv.enabling = false)
    ∧ R.nvm.lc ≠ .service ∧ (((16 * R.len : Nat) : Word).setWidth 20 : BitVec 20).toNat ≤ 16 * R.len
    ∧ 16 * R.len < (((16 * R.len + 1 : Nat) : Word).setWidth 20 : BitVec 20).toNat ∧ (w_hostDriven.grp 0).hostDriven = true
    ∧ (w_hostDriven.leg (legAt 0 3)).commitBit = false ∧ (w_committed.leg (legAt 0 3)).commitBit = true
    ∧ (w_hostDriven.grp 0).hostedge = true ∧ (R.grp 0).hostedge = false ∧ (1 : Word).setWidth 16 ≠ (0 : BitVec 16) := by decide +kernel
theorem witness_direct :
    w_hostDriven.dev.stage = .running ∧ (w_hostDriven.grp 0).resetting = false ∧ w_hostDriven.hp.unlocked = true
    ∧ w_hostDriven.nvm.lc = .service ∧ (w_service.grp 0).hostDriven = false := by decide +kernel
theorem witness_readFrames :
    R.portUp = true ∧ dataBits readTwo R.hp.ta.toNat 1 = 32 * 2 ∧ frameHead readTwo R.hp.ta.toNat 1 ≤ readTwo.edges
    ∧ pairLo 3 5 = none ∧ pairLo 3 6 = none ∧ readTwo.op = .read ∧ readTwo.lanes = 2 ∧ readTwo.pq = 3 ∧ readTwo.addr = 5 ∧ readTwo.edges = 20
    ∧ ∀ x ∈ [((1 : Byte), FrameOp.write), (2, .push), (3, .pull)], (headOnly x.1).op = x.2
      ∧ (headOnly x.1).edges = frameHead (headOnly x.1) R.hp.ta.toNat 1 := by decide
theorem witness_writeFrames :
    dataBits writeTwo R.hp.ta.toNat 2 = 32 * 2 ∧ writeTwo.op = .write ∧ wordAt (frameData writeTwo R.hp.ta.toNat) 4 = 2
    ∧ ∀ x ∈ [((0 : Byte), FrameOp.read), (1, .write), (2, .push), (3, .pull)],
      ((noLanes x.1).op = x.2 ∧ (noLanes x.1).lanes = 3 ∧ 2 ≤ (noLanes x.1).edges)
      ∧ (cut x.1).op = x.2 ∧ (cut x.1).lanes ≠ 3 ∧ 1 ≤ (cut x.1).edges ∧ (cut x.1).edges < 8 := by decide
theorem witness_push :
    dataBits pushOne R.hp.ta.toNat 2 = 256 * 1 ∧ frameData pushOne R.hp.ta.toNat = pushed ∧ pushOne.op = .push ∧ pushOne.addr = 0 ∧ pushOne.pq = 15 ∧ (byteAt pushed 5).toNat = 1
    ∧ (R.latchStatus .push pushOne).pushFault 15 pushed = none ∧ R.pushFault 15 pushed = none
    ∧ (w_notReady.latchStatus .push pushOne).pushFault 15 pushed = some 7 := by decide +kernel
theorem witness_pull :
    frameHead pullTwo w_pull.hp.ta.toNat 1 ≤ pullTwo.edges ∧ dataBits pullTwo w_pull.hp.ta.toNat 1 = 128 * 2 ∧ 2 ≤ w_pull.q.ring.length
    ∧ pullTwo.op = .pull ∧ pullTwo.pq = 0 ∧ 2 ≤ pullTwo.addr.toNat ∧ (done 7).bad = false ∧ w_pull.portUp = true ∧ w_pull.dev.ready = true
    ∧ pullTwo.lanes ≠ 3 ∧ 8 ≤ pullTwo.edges := by decide
theorem witness_cores :
    w_suspended.dev.suspended = true ∧ w_held.dev.safeHold = true ∧ (∀ s ∈ [w_take0, w_takeP, w_takeNext, w_takeBad],
      s.dev.suspended = false ∧ s.dev.safeHold = false ∧ s.sb.waiting = [] ∧ (∀ p ∈ s.q.packets, p.verdict = none) ∧ s.coreFree 0 = true)
    ∧ w_take0.coreFree 0 = true ∧ w_take0.candidate 0 = some (untaken 0 1) ∧ w_take0.asyncCheck (untaken 0 1) = none
    ∧ w_takeP.candidate 0 = none ∧ w_takeP.candidate w_takeP.q.p = some (untaken 1 1) ∧ 0 < w_takeP.q.cr
    ∧ w_takeNext.candidate 0 = none ∧ w_takeNext.candidate w_takeNext.q.p = none
    ∧ w_takeNext.candidate (nextQueue w_takeNext.q.p) = some (untaken 2 1)
    ∧ 0 < w_takeNext.q.weight[(nextQueue w_takeNext.q.p).val].toNat ∧ w_takeBad.asyncCheck (untaken 1 0xEE) = some (.rejectOpcode, 0) := by
  decide +kernel

/-! ### Frames, segments and masters -/

theorem witness_boundaries :
    w_noClock.framing = false ∧ R.framing = true ∧ R.tb.preset[0] = none ∧ (w_drivenGroup.grp 0).hostDriven = true
    ∧ (R.grp 0).hostDriven = false := by decide +kernel
theorem witness_starts :
    (w_start.ax 5).mot.queue = [seg (.hold 1000 false) 7, seg (.hold 1 false) 8]
    ∧ (∀ s ∈ [w_start, w_startHome], (s.ax 5).drv.enabled = true ∧ (s.ax 5).drv.enabling = false ∧ (s.ax 5).drv.disabling = false
      ∧ (s.ax 5).mot.stop = none ∧ (s.ax 5).mot.jog = none ∧ (s.ax 5).mot.held = none ∧ (s.ax 5).mot.runs = []
      ∧ (s.ax 5).mot.lastEnd = none
      ∧ ∀ g ∈ (s.ax 5).mot.queue.head?, g.seen = true ∧ g.start = none ∧ g.batch = 0 ∧ g.flags.headDelayed = false)
    ∧ admitPlan (.hold 1000 false) (planSeg (.hold 1000 false) 0 0) = true
    ∧ w_startHome.homePin 5 = some 9 ∧ (w_startHome.pin 9).isOn = false ∧ w_startHome.homeBlock 5 (-1) = none
    ∧ admitPlan (.velocity (-(2 ^ 40)) (2 ^ 30) (2 ^ 30) 0) (planVelocity 0 0 (-(2 ^ 40)) (2 ^ 30) (2 ^ 30) 0) = true := by decide +kernel
theorem witness_segmentEnds :
    (w_end.ax 5).mot.runs = [runOf (seg (.moveRel 0 1 1 1 0) 7) [flat 0 1000]]
    ∧ (runOf (seg (.moveRel 0 1 1 1 0) 7) [flat 0 1000]).over (w_end.ax 5).mot.mProg w_end.m7 = true
    ∧ (w_endStop.ax 5).mot.stop = some ⟨0, 0, [flat 0 100], false, false, false, none, 0⟩
    ∧ (totalLen [flat 0 100] : Int) * 65536 ≤ (w_endStop.ax 5).mot.mProg
    ∧ ∀ s ∈ [w_end, w_endStop], (s.ax 5).mot.jog = none ∧ (s.ax 5).mot.held = none ∧ s.q.batches = [] ∧ s.q.actions = []
      ∧ ∀ r ∈ (s.ax 5).mot.runs, r.onM7 = false ∧ r.seg.ref = .host 7 1 ∧ r.seg.batch = 0 ∧ r.seg.overlap = false
        ∧ r.seg.flags.headDelayed = false ∧ r.decided = none := by decide +kernel
theorem witness_reanchors :
    (∀ s ∈ [w_cruise, w_reanchor], (s.ax 5).mot.stop = none ∧ (s.ax 5).mot.held = none ∧ (s.ax 5).mot.jog = none)
    ∧ (w_cruise.ax 5).mot.runs = [cruise 1000] ∧ (cruise 0).unbounded = true
    ∧ (cruise 1000).at (w_cruise.ax 5).mot.mProg w_cruise.m7 < 2 ^ 30 * 65536 ∧ (cruise 1000).phases.getLast? = some (flat (2 ^ 20) 1000)
    ∧ (w_reanchor.ax 5).mot.runs = [cruise 0] ∧ 2 ^ 30 * 65536 ≤ (cruise 0).at (w_reanchor.ax 5).mot.mProg w_reanchor.m7
    ∧ admitPlan (cruise 0).seg.kind
        ⟨[{ flat (2 ^ 20) 0 with p0 := phaseP (flat (2 ^ 20) 0) (2 ^ 30 * 65536), len := 2 ^ 30 }], none, false, true⟩ = true := by
  decide +kernel
theorem witness_deadlines :
    (∀ s ∈ [w_deadQueue, w_deadRun, w_homeLate], (s.ax 5).mot.held = none ∧ (s.ax 5).mot.stop = none ∧ (s.ax 5).mot.jog = none)
    ∧ (w_deadQueue.ax 5).mot.runs = [] ∧ w_deadQueue.q.batches = [] ∧ (w_deadRun.ax 5).mot.queue = []
    ∧ (∀ g ∈ (w_deadQueue.ax 5).mot.queue, (g.ref = .host 7 1 ∨ g.ref = .host 8 1) ∧ g.flags.headDelayed = false)
    ∧ (∀ r ∈ (w_deadRun.ax 5).mot.runs ++ (w_homeLate.ax 5).mot.runs, r.decided = none)
    ∧ ((w_deadQueue.ax 5).mot.queue.map fun g => (g.deadline.map (reached32 (w_deadQueue.ax 5).mot.mProg))) = [some true, some false]
    ∧ reached32 (w_deadRun.ax 5).mot.mProg 2000 = true
    ∧ (∀ r ∈ (w_deadRun.ax 5).mot.runs, r.over (w_deadRun.ax 5).mot.mProg w_deadRun.m7 = false ∧ r.seg.deadline = some 2000)
    ∧ (∀ r ∈ (w_homeLate.ax 5).mot.runs, r.seg.kind.homeOps.isSome = true ∧ r.home = .fast ∧ r.timeoutAt = some 100)
    ∧ reached32 (w_homeLate.ax 5).mot.mProg 100 = true := by decide +kernel
theorem witness_edges :
    (true ≠ R.tb.msa) ≠ (false ≠ R.tb.msb) ∧ w_index.tb.cprEff ≠ 0 ∧ w_index.tb.index = some 0
    ∧ wrapS 48 (w_index.tb.edge[0].c - 0) % (w_index.tb.cprEff.toNat : Int) = 0
    ∧ wrapS 48 (w_indexBad.tb.edge[0].c - 0) % (w_indexBad.tb.cprEff.toNat : Int) ≠ 0 := by decide +kernel
theorem witness_rates : R.rateDue 1 = false ∧ w_rate.rateDue 1 = true ∧ R.tb.flen = R.tb.flenEff ∧ w_flen.tb.flen ≠ w_flen.tb.flenEff := by
  decide +kernel
theorem witness_followers :
    R.tb.roleEff ≠ 2 ∧ w_follow.tb.roleEff = 2 ∧ w_follow.anyEnabled = false ∧ w_followOn.anyEnabled = true
    ∧ (w_lost.tb.roleEff = 2 ∧ 768 ≤ w_lost.tb.sincePulse) ∧ w_master.tb.roleEff = 1 := by decide +kernel

/-! ### Pins, axes and protection -/

theorem witness_pins :
    isOutput (w_outPin.pin 9).func = true ∧ isOutput (w_qual.pin 9).func = false ∧ (w_qual.pin 9).tFirst = some 0
    ∧ (w_back.pin 9).raw = (w_back.pin 9).qual ∧ (w_qual.pin 9).raw ≠ (w_qual.pin 9).qual ∧ isEncoder (w_qual.pin 9).func = false
    ∧ (w_capture.pin 9).func = 12 ∧ chatters (160000 :: (w_capture.pin 9).edges) = false ∧ (w_encA.pin 9).axis? = some 5
    ∧ (w_encA.pin 9).func = 1 ∧ (w_encA.ax 5).enc.a ≠ ((w_encA.pin 9).raw != entryInv (w_encA.pin 9).entry)
    ∧ (w_chatter.pin 9).chatter = true ∧ (w_chatter.pin 9).func = 4 ∧ (w_overload.pin 9).overloaded = true
    ∧ (w_return.ax 5).prot.owner = .localJog ∧ w_return.button 5 1 = false ∧ w_return.button 5 (-1) = false := by decide +kernel
theorem witness_brakes :
    (w_brakeOff.ax 5).drv.brakeWait = true ∧ (w_brakeOff.ax 5).drv.disabling = true ∧ (w_brakeOn.ax 5).drv.brakeWait = true
    ∧ w_brakeEnable.SoleAction 5 0 .enable 0x1234 1 ∧ (w_brakeEnable.ax 5).cfg.setpoint = false
    ∧ (w_boost.ax 5).drv.sel.armed = true ∧ msTicks (w_boost.ax 5).cfg.tboost ≤ (w_boost.ax 5).drv.sel.boostT
    ∧ (w_stand.ax 5).drv.energised = true ∧ w_stand.movingNow 5 = false
    ∧ msTicks (w_stand.ax 5).cfg.tstand ≤ (w_stand.ax 5).drv.selPrev.idleT := by decide +kernel
theorem witness_encoders :
    (R.ax 5).drv.energised = false ∧ (w_settle.ax 5).cfg.cprm ≠ 0 ∧ w_settle.hasEncoder 5 = true ∧ (w_settle.ax 5).enc.armed = false
    ∧ (w_settle.ax 5).drv.energised = true ∧ (w_settle.ax 5).enc.disarmed = false ∧ (w_settle.ax 5).cfg.setpoint = false
    ∧ (w_fallback.ax 5).drv.energised = true ∧ (w_fallback.ax 5).enc.fallback = true ∧ (w_fallback.ax 5).cfg.setpoint = true
    ∧ (w_close'.ax 5).drv.energised = true ∧ (w_close'.ax 5).enc.fallback = false ∧ (w_close'.ax 5).drv.enabling = false
    ∧ (w_closeEnable.ax 5).prot.retry = .none ∧ (w_closeWait.ax 5).prot.retry = .energise
    ∧ min 255 ((w_closeWait.ax 5).prot.tries + 1) ≤ (w_closeWait.grp 1).trnEff.toNat
    ∧ (w_close'.ax 5).cfg.setpoint = true ∧ (w_close'.ax 5).enc.closed = false ∧ (w_closeEnable.ax 5).drv.enabling = true
    ∧ w_closeEnable.SoleAction 5 0 .enable 0x1234 1 ∧ (w_closeRetry.ax 5).prot.retry = .energise
    ∧ (w_closeRetry.grp 1).trnEff.toNat < min 255 ((w_closeRetry.ax 5).prot.tries + 1) := by decide +kernel
theorem witness_plugs :
    (w_probe.ax 5).cfg.plugEn = true ∧ (w_probe.ax 5).prot.probe ≠ probeVerdict 300 100000
    ∧ (w_probed.ax 5).prot.probe = probeVerdict 300 100000 ∧ (w_probed.ax 5).prot.plug ≠ probeVerdict 300 100000
    ∧ w_probed.pinsOf 5 (· = 11) = [] ∧ (w_probe.ax 5).drv.enabled = false
    ∧ (w_probe.grp 1).diag = none ∧ 2 ≤ (w_open.coil (coilA 5)).openRun ∧ (w_open.ax 5).drv.enabled = true
    ∧ w_share.ganged 4 = true ∧ w_share.isPartner 4 = false ∧ 16 ≤ (w_share.ax 4).prot.shareA
    ∧ 16 ≤ (w_lostSamples.coil 10).lost ∧ (w_lostSamples.coil 10).sampleLost = false ∧ R.hasEncoder 5 = false
    ∧ w_encoder.hasEncoder 5 = true := by decide +kernel
theorem witness_turnedOff :
    (w_ends.ax 5).mot.runs = [runOf (seg (.hold 1000 false) 7) [flat 0 1000]] ∧ (w_ends.ax 5).mot.queue = [seg (.hold 1 false) 8]
    ∧ w_ends.q.batches = [] ∧ w_ends.q.actions = [] ∧ (w_ends.ax 5).prot.ident = none := by decide +kernel
theorem witness_calibration :
    R.frameNat % 64 = 5 * (0 : GroupId).val % 64 ∧ R.frameNat % 64 ≠ 5 * (1 : GroupId).val % 64 ∧ (R.grp 0).fineLost = false
    ∧ (w_fineLost.grp 0).fineLost = true ∧ 3 ≤ (w_fineLost.grp 0).fineGood ∧ w_fineLost.frameNat % 64 = 5 * (0 : GroupId).val % 64
    ∧ (w_force.adc 0).forcedPlan = none ∧ (w_force.grp 0).hostDriven = false
    ∧ (w_measureOn.leg 0).en = true ∧ groupOfLeg 0 = 0 ∧ (w_force.adc 0).slotPlan = none ∧ 4096 < (w_force.adc 0).noSlot
    ∧ latestEarlier (w_force.forcedCandidates 0) = none ∧ latestEarlier (w_forceCoil.forcedCandidates 0) = some 0 := by decide +kernel
theorem witness_learning :
    (w_rcoilWeak.ax 5).prot.rwin.frames = 256 ∧ (w_rcoilWeak.ax 5).prot.rwin.si < 256 * 25600
    ∧ (let w := (w_rcoilNear.ax 5).prot.rwin
       let t0 := w.su * 256000 / (w.si : Int)
       256 * 25600 ≤ w.si ∧ 100 ≤ t0 ∧ t0 ≤ 100000 ∧ ((w_rcoilNear.ax 5).cfg.rcoil : Int) ≤ 2 * t0 ∧ t0 ≤ 2 * (w_rcoilNear.ax 5).cfg.rcoil)
    ∧ (let w := (w_rcoilBad.ax 5).prot.rwin; 256 * 25600 ≤ w.si ∧ w.su * 256000 / (w.si : Int) < 100)
    ∧ (w_ref.ax 5).obs.refRun = true ∧ (w_ref.ax 5).obs.refLeft = 0 ∧ (w_ke.ax 5).obs.keLearning = true ∧ (w_ke.ax 5).obs.keCount = 256
    ∧ (w_ke.ax 5).obs.keSumF ≠ 0 := by decide +kernel
theorem witness_stalls :
    ∀ r : BitVec 2, r ≠ 3 → ((w_stall r).ax 5).cfg.stallN.toNat ≤ ((w_stall r).ax 5).obs.stallRun ∧ 0 < ((w_stall r).ax 5).obs.stallRun
      ∧ ((w_stall r).ax 5).obs.stallDone = false ∧ ((w_stall r).ax 5).cfg.react = r ∧ ((w_stall r).ax 5).mot.stop = none := by
  decide +kernel
theorem witness_trips :
    (w_drivenGroup.grp (groupOfLeg 0)).hostDriven = true ∧ (R.grp (groupOfLeg 0)).trips = [] ∧ (w_check.ax 5).prot.retry = .check
    ∧ min 255 ((w_check.ax 5).prot.tries + 1) ≤ (w_check.grp 1).trnEff.toNat
    ∧ (w_checkLast.grp 1).trnEff.toNat < min 255 ((w_checkLast.ax 5).prot.tries + 1)
    ∧ (w_resume.ax 5).mot.held = some (1000 * 65536, 0) ∧ (w_resume.ax 5).prot.retry = .energise
    ∧ (w_resume.ax 5).drv.energised = true ∧ (w_resume.ax 5).drv.brakeWait = false ∧ (w_resume.ax 5).drv.enabling = false
    ∧ (w_resume.ax 5).cfg.setpoint = false ∧ (∀ r ∈ (w_resume.ax 5).mot.runs, r.seg.kind.limited = false ∨ w_resume.limitOn 5 r.dir = false)
    ∧ ((retrying .wait 1).ax 5).prot.retry = .wait ∧ (retrying .wait 1).retryMate 5 = none := by
  decide +kernel
theorem witness_mates : ∀ ended : Bool, ((w_mates ended).ax 5).prot.retry = .wait ∧ ((w_mates ended).ax 5).prot.partner = some 6
    ∧ ((w_mates ended).ax 6).prot.partner = some 5 ∧ ((w_mates ended).ax 6).prot.retry = .wait
    ∧ ((w_mates ended).ax 6).prot.waitDone = ended := by decide +kernel
theorem witness_resumeLimit :
    (w_resumeLimit.ax 5).mot.held.isSome = true ∧ (w_resumeLimit.ax 5).prot.retry = .energise ∧ (w_resumeLimit.ax 5).drv.energised = true
    ∧ (w_resumeLimit.ax 5).drv.brakeWait = false ∧ (w_resumeLimit.ax 5).cfg.setpoint = false ∧ (w_resumeLimit.ax 5).drv.enabling = false
    ∧ (w_resumeLimit.ax 5).mot.stop = none ∧ (w_resumeLimit.ax 5).mot.runs = [cruise 1000] ∧ (cruise 1000).seg.kind.limited = true
    ∧ (cruise 1000).dir ≠ 0 ∧ w_resumeLimit.limitOn 5 (cruise 1000).dir = true := by decide +kernel
theorem witness_groups :
    (Instr.vmLockout 1 true 9, (3 : Fin 4)) ∈ ([(.gateSupplyLockout 1 false 9, 0), (.gateSupplyLockout 1 true 9, 1),
      (.vmLockout 1 false 9, 2), (.vmLockout 1 true 9, 3)] : List (Instr × Fin 4)) ∧ (w_lockout.ax 5).drv.enabled = true ∧ groupOf 5 = 1
    ∧ (w_lockout.grp 1).thermSd = false ∧ (w_thermal.grp 1).thermSd = true ∧ ((routed w_lockout 9 5 13).pin 9).func = 13
    ∧ ((1200 : BitVec 16).toInt ≤ 1200) ∧ 1200 < (1201 : BitVec 16).toInt := by decide +kernel
theorem witness_safeOff :
    R.dev.discNow = false ∧ w_discrepancy.dev.discNow = true ∧ w_safeDisc.dev.safeDisc = true
    ∧ w_safeDisc.dev.bothLow = false ∧ R.dev.safeDisc = false ∧ R.dev.safeA = true ∧ R.dev.safeB = true
    ∧ w_discrepancy.dev.safeA = false := by decide

/-! ### Resets, integrity, the side-band port -/

theorem witness_resets :
    w_driven.dev.nrstDrive = true ∧ R.dev.nrstDrive = false ∧ R.dev.suspended = false ∧ w_suspended.dev.suspended = true
    ∧ w_fuses.dev.stage = .fuseSensing ∧ w_deferral.dev.stage = .nvmDeferral ∧ w_options.dev.stage = .optionsLoad
    ∧ w_options.nvm.copyA = some defaultOptions ∧ optHeader defaultOptions = true ∧ w_erasing.nvm.erasing = true
    ∧ w_nrst.dev.stage = .nrstWait ∧ w_wipe.dev.stage = .ramWipe ∧ w_wipeDefaults.dev.defaults = true
    ∧ w_wipe.dev.safeHold = false ∧ w_wipe.dev.defaults = false ∧ w_wipe.nvm.lc ≠ .retired ∧ R.dev.stage = .running
    ∧ w_wipeRetired.nvm.lc = .retired ∧ w_wipePend.sb.pendReset = true := by decide +kernel
theorem witness_integrity :
    R.dev.wdSuspended = false ∧ w_resumable.sb.waiting = [] ∧ w_resumable.dev.suspended = true ∧ w_resumable.mp.switch = none ∧ w_switching.mp.switch ≠ none
    ∧ (w_customLost.tables[0].custom.isSome = true ∧ w_customLost.tables[0].faddr = none)
    ∧ (w_customStored.tables[0].faddr.isSome = true ∧ w_customStored.tables[0].invalid = false) ∧ R.tables[0].custom = none
    ∧ (∃ p ∈ w_stop.q.packets, p.tag = 0x1234) ∧ 0 < w_ring.q.ring.length ∧ (R.ax 5).mot.runs = [] ∧ (w_ends.ax 5).mot.runs ≠ []
    ∧ guardedGroup 0x20 = true ∧ guardedGlobal 3 0x10 = true := by decide +kernel
theorem witness_sideBandPort :
    R.sb.causes &&& R.sb.amask &&& ~~~R.sb.announced = 0 ∧ w_alert.sb.causes &&& w_alert.sb.amask &&& ~~~w_alert.sb.announced ≠ 0
    ∧ R.sb.hsilUse = 0 ∧ w_hsil.sb.hsilUse ≠ 0 ∧ w_hsil.dev.ready = true ∧ sbForm 0x77 = none
    ∧ (∃ f, sbForm 0x21 = some f ∧ f.write = true ∧ 1 < f.args) ∧ w_pecReq.sb.pecReq = true ∧ R.sb.pecReq = false :=
  ⟨by decide, by decide, by decide, by decide, by decide, rfl, ⟨⟨true, 2, false⟩, rfl, rfl, by decide⟩, rfl, rfl⟩
theorem witness_sideBandReads :
    w_retired.nvm.lc = .retired ∧ R.nvm.lc ≠ .retired ∧ w_standby.sb.power ≠ .active ∧ w_log.shaleValid[(0 : BitVec 16).toNat]? = some (entry 7)
    ∧ pairLo 3 5 = none ∧ axisOfByte 47 = some 47 ∧ axisOfByte 48 = none ∧ R.isPartner 47 = false
    ∧ (R.modGroup 1 fun g => { g with gang01 := true }).isPartner 5 = true := by decide +kernel
theorem witness_sideBandModule :
    R.sbActs ∧ R.framing = true ∧ (∀ n, (allOn.ax n).drv.enabled = true) ∧ allOn.sbActs ∧ w_field.sbActs ∧ w_field.sb.lockedOut = false
    ∧ w_field.nvm.lc = .field ∧ w_field.anyEnabled = false ∧ (5 : BitVec 64) = w_field.nvm.passcode ∧ w_field.sb.wrongPass = []
    ∧ w_fieldLocked.sb.lockedOut = true ∧ (w_marked.mark false).isSome = true ∧ (w_marked.mark true).isSome = true := by decide +kernel
theorem witness_sideBandAxis :
    w_jog.sbActs ∧ axisOfByte 5 = some 5 ∧ w_jog.isPartner 5 = false ∧ (w_jog.ax 5).drv.enabled = true ∧ w_jog.disablingNow 5 = false
    ∧ (w_jog.ax 5).prot.owner = .sideband ∧ (R.ax 5).prot.owner ≠ .sideband ∧ w_jog.sb.jogs = [] ∧ (w_jog.ax 5).mot.jog = none
    ∧ w_sbEnable.sbActs ∧ passes (w_sbEnable.enableChecks 5) ∧ (w_sbEnable.ax 5).drv.enabled = false
    ∧ w_jogging.sb.jogs.contains 5 = true ∧ w_jog.sb.jogs.contains 5 = false := by decide +kernel

/-- Write commands with and without PEC: a good one, one that is missing where SB_CFG asks for it, and the states in which the port may
not act. -/
theorem witness_sideBandWrites :
    sbRow 0x21 [5, 0] none = some (.axisStop 5 0 none) ∧ R.pecGood 0x21 [5, 0] none ∧ ¬w_pecReq.pecGood 0x21 [5, 0] none
    ∧ R.pecGood 0x21 [5, 0] (some (crc8Smbus [0xA0, 0x21, 5, 0])) ∧ w_pecReq.pecGood 0x21 [5, 0] (some (crc8Smbus [0xA0, 0x21, 5, 0]))
    ∧ ¬R.pecGood 0x21 [5, 0] (some 0) ∧ w_retired.pecGood 0x21 [5, 0] none ∧ w_standby.pecGood 0x21 [5, 0] none
    ∧ w_notReady.pecGood 0x21 [5, 0] none ∧ w_notReady.sb.power = .active ∧ w_notReady.nvm.lc ≠ .retired := by decide +kernel
theorem witness_sideBandForms : ∃ f, sbForm 0x21 = some f ∧ f.write = true ∧ f.vsb = false := ⟨⟨true, 2, false⟩, rfl, rfl, rfl⟩
/-- An axis command takes its turn at once where nothing waits before it, and waits behind a packet of Q0 that no core has taken. -/
theorem witness_sideBandTurns :
    w_jog.sbFree (.axisStop 5 0 none) ∧ w_sbEnable.sbFree (.axisEnable 5 none) ∧ w_jog.sbFree (.take 48 none) ∧ w_jog.q.actions = []
    ∧ w_jog.mp.stream = none ∧ w_sbQueued.sbActs ∧ (untaken 0 1).seq < w_sbQueued.q.nextSeq ∧ w_sbQueued.coreFree 0 = true
    ∧ w_sbQueued.q.packets = [untaken 0 1] ∧ (untaken 0 1).queue = 0 ∧ (untaken 0 1).core = none := by decide +kernel

/-! ### Check values that the algorithms' publications give, and worked examples of the spec -/

/-- The nine bytes of the published check values of a CRC. -/
def nine : List Byte := [0x31, 0x32, 0x33, 0x34, 0x35, 0x36, 0x37, 0x38, 0x39]

/-- The published check values of CRC-16/CCITT-FALSE, CRC-8/AUTOSAR, CRC-8/SMBUS and CRC-32/ISO-HDLC (R291, R405, R340, R369). -/
theorem test_crc : crc16 nine = 0x29B1 ∧ crc8 nine = 0xDF ∧ crc8Smbus nine = 0xF4 ∧ crc32 nine = 0xCBF43926 := by decide +kernel

/-- R269's table: on two lanes a byte's bits 7 and 6 travel first, on HD1 and HD0; on four bits 7 to 4; on eight all at once. -/
theorem test_lanes : lanesOfByte 2 0x23 = [0, 2, 0, 3] ∧ lanesOfByte 4 0x23 = [2, 3] ∧ lanesOfByte 8 0x23 = [0x23]
    ∧ byteOfLanes 2 [0, 2, 0, 3] = 0x23 ∧ readTwo.command = 0x23 := by decide

/-- The digest of the three bytes abc (the first example of the SHA standard). -/
theorem test_sha256 : sha256 [0x61, 0x62, 0x63] = [0xBA, 0x78, 0x16, 0xBF, 0x8F, 0x01, 0xCF, 0xEA, 0x41, 0x41, 0x40, 0xDE, 0x5D, 0xAE,
    0x22, 0x23, 0xB0, 0x03, 0x61, 0xA3, 0x96, 0x17, 0x7A, 0x9C, 0xB4, 0x10, 0xFF, 0x61, 0xF2, 0x00, 0x15, 0xAD] := by decide +kernel

/-- The 128-bit example vector of the AES standard. -/
theorem test_aes : aes128 ((List.range 16).map (BitVec.ofNat 8)) ((List.range 16).map fun i => BitVec.ofNat 8 (i * 17)) =
    [0x69, 0xC4, 0xE0, 0xD8, 0x6A, 0x7B, 0x04, 0x30, 0xD8, 0xCD, 0xB7, 0x80, 0x70, 0xB4, 0xC5, 0x5A] := by decide +kernel

/-- The bytes of the worked example of 12_opcodes.md: a GEAR on axis 6 under tag 0x0102. -/
def gearBytes : List Byte := [0x13, 0, 2, 1, 6, 2, 0x1C, 0, 0, 0, 0, 0, 0, 0, 0, 0, 0, 0, 0, 0, 0xE0, 1, 0, 0, 0, 0x20, 3, 0] ++ zeros 8 ++
  [0x40, 2, 0x0F, 0, 0, 0, 0, 0] ++ zeros 20

/-- Axis 6, bound to M0, is on; core 0 holds the packet of queue 2. -/
def w_gear : State :=
  { (on R 6).modMot 6 fun a => { a with master := 0 } with q := { R.q with packets := [⟨gearBytes, 2, 0, some 0, none, false⟩], nextSeq := 1 } }

/-- The segment as the example describes it. -/
def gearSeg : Segment :=
  { seg (.gear 0x000001E000000000 204800 0 0 false) 0x0102 with ref := .host 0x0102 2, start := some 983616 }

/-- What a command leaves of a state. -/
def left (c : Instr) (s : State) : State :=
  match exec c s with
  | .next t => t
  | _ => s

/-- The packet of the example becomes that segment. -/
theorem test_gear_packet : ((left (.gear 0) w_gear).ax 6).mot.queue = [{ gearSeg with seen := false }] := by decide +kernel

/-- It starts exactly at 983,616 mc with PS 0, and its only phase is its window (the example; R84). -/
theorem test_gear_start : (((left (.segmentStart 6) ((on R 6).modMot 6 fun a => { a with
      master := 0, mProg := 983616 * 65536, mProgPrev := 983600 * 65536, queue := [gearSeg] })).ax 6).mot.runs.map
        fun r => (r.ms, r.ps, r.phases)) = [(983616 * 65536, 0, [⟨0, 0x000001E000000000, 0, 0, 204800, .body⟩])] := by decide +kernel

/-- Its completion entry is the one of the example: at 384,000 µsteps, with E as MPOS. -/
theorem test_gear_completion : ((left (.segmentEnd 6) ((on R 6).modMot 6 fun a => { a with
      master := 0, mProg := 1188420 * 65536, mProgPrev := 1188400 * 65536, pos := 384000 * 2 ^ 24, out := 384000 * 2 ^ 24
      runs := [{ runOf gearSeg [⟨0, 0x000001E000000000, 0, 0, 204800, .body⟩] with ms := 983616 * 65536 }] })).q.ring.map Completion.bytes) =
    [[0x02, 0x01, 0x00, 0x00, 0x06, 0x82, 0x00, 0x00, 0x40, 0x22, 0x12, 0x00, 0x00, 0x00, 0xDC, 0x05]] := by decide +kernel

end Sys2Proof.Tests
end

section
/-! SUPPORT. IDENTIFY and OWNERSHIP: what the two rows share, then each row's checks, its outcomes and the statement about it
(11_queues_packets.md R297, R300; 12_opcodes.md R309, R313, R316, R333; 04_axio_homing.md R133). -/
namespace Sys2Proof.Machine
open Sys2Proof

/-! ### Checks -/

/-- No check, no failure. -/
theorem firstFailure_nil : firstFailure [] = none := rfl

/-- A check that fails decides; one that passes leaves it to those behind it (R313). -/
theorem firstFailure_cons (fails : Bool) (r : Status × Word) (l : List Check) :
    firstFailure ((fails, r) :: l) = if fails then some r else firstFailure l := by
  cases fails <;> rfl

/-! ### Packets that have just started -/

/-- An admitted packet that fails a check of its opcode is answered with that check's status and WORD (R313). -/
theorem guarded_started_fails {s : State} {core : CoreId} {opc : Nat} {p : Packet} (h : s.Admits core opc p)
    {checks : List Check} {r : Status × Word} (hr : firstFailure checks = some r) (effect : State → State) :
    (s.started p).guarded p checks effect = s.answered p r.1 p.axis r.2 :=
  (guarded_fails hr effect).trans (refuse_started (Admits.susp h) (Admits.hold h) p r none)

/-- An admitted packet whose opcode completes OK at its start (R300). -/
theorem done_started {s : State} {core : CoreId} {opc : Nat} {p : Packet} (h : s.Admits core opc p) (w : Word) :
    (s.started p).done p w = s.answered p .ok p.axis w := answer_started (Admits.susp h) (Admits.hold h) p .ok w

/-- MPOS does not look at ownership and protection (R302). -/
theorem packetMpos_modProt (s : State) (n : AxisId) (f : AxisProt → AxisProt) (p : Packet) :
    (s.modProt n f).packetMpos p = s.packetMpos p := by
  unfold State.packetMpos
  split
  · simp [State.axMpos]
  · rfl

/-- An answer given after a change of an axis's protection is the answer before it, with that change. -/
theorem answered_modProt (s : State) (n : AxisId) (f : AxisProt → AxisProt) (p : Packet) (st : Status) (axis : Byte) (w : Word) :
    (s.modProt n f).answered p st axis w = { s.answered p st axis w with axes := (s.modProt n f).axes } := by
  simp only [State.answered, State.reply, packetMpos_modProt]
  rfl

/-! ### Fields and words -/

/-- A field of one byte is the byte's value. -/
theorem uAt_one (par : List Byte) (o : Nat) : uAt par o 1 = (byteAt par o).toNat := by simp [uAt, leNat]

theorem uAt_one_eq_zero (par : List Byte) (o : Nat) : uAt par o 1 = 0 ↔ byteAt par o = 0 := by
  rw [uAt_one]
  exact (BitVec.toNat_eq (y := 0#8)).symm

/-- Side by side, the upper bits count by the width of the lower ones. -/
theorem toNat_append_eq_add {m k : Nat} (x : BitVec m) (y : BitVec k) : (x ++ y).toNat = x.toNat * 2 ^ k + y.toNat := by
  rw [BitVec.toNat_append, ← Nat.shiftLeft_add_eq_or_of_lt y.isLt, Nat.shiftLeft_eq]

theorem bit_eq_toNat_ofBool (b : Bool) : bit b = (BitVec.ofBool b).toNat := by cases b <;> rfl

/-! ### IDENTIFY: the words of its items (R316) -/

/-- Item 1 is the letter "C" over the step number (R2, R316). -/
theorem idStep_eq_append (s : State) : s.idStep = (0x000043 : BitVec 24) ++ s.dev.step := by
  apply BitVec.eq_of_toNat_eq
  have hstep := s.dev.step.isLt
  rw [toNat_append_eq_add]
  simp [State.idStep, fields]
  omega

/-- The layout of item 4: the patch level in bits 15:8, ROM only in bit 1, the bank in bit 0, and 0 elsewhere (R316). -/
def bankLayout (patch : BitVec 8) (rom bank : Bool) : BitVec (16 + 8 + 6 + 1 + 1) :=
  0#16 ++ patch ++ 0#6 ++ BitVec.ofBool rom ++ BitVec.ofBool bank

theorem bankWord_eq_bankLayout (s : State) :
    s.bankWord = bankLayout Config.patchLevel s.mp.romOnly (s.mp.runBank && !s.mp.romOnly) := by
  apply BitVec.eq_of_toNat_eq
  have hpatch := Config.patchLevel.isLt
  have hrom := (BitVec.ofBool s.mp.romOnly).isLt
  have hbank := (BitVec.ofBool (s.mp.runBank && !s.mp.romOnly)).isLt
  simp only [bankLayout, toNat_append_eq_add, State.bankWord, fields, bit_eq_toNat_ofBool, BitVec.toNat_ofNat, List.map_cons,
    List.map_nil, List.sum_cons, List.sum_nil]
  omega

theorem bankLayout_bit0 (patch : BitVec 8) (rom bank : Bool) : (bankLayout patch rom bank).getLsbD 0 = bank := by
  rw [bankLayout, BitVec.getLsbD_append]; simp

theorem bankLayout_bit1 (patch : BitVec 8) (rom bank : Bool) : (bankLayout patch rom bank).getLsbD 1 = rom := by
  rw [bankLayout, BitVec.getLsbD_append, BitVec.getLsbD_append]; simp

theorem bankLayout_patch (patch : BitVec 8) (rom bank : Bool) : (bankLayout patch rom bank >>> 8).setWidth 8 = patch := by
  ext i hi
  rw [BitVec.getElem_setWidth, BitVec.getLsbD_ushiftRight, bankLayout]
  simp only [BitVec.getLsbD_append]
  simp [show ¬ 8 + i < 1 by omega, hi]

theorem bankLayout_rest (patch : BitVec 8) (rom bank : Bool) : bankLayout patch rom bank &&& 0xFFFF00FC = 0 := by
  have hmask : (0xFFFF00FC : BitVec (16 + 8 + 6 + 1 + 1)) = 0xFFFF#16 ++ 0#8 ++ 0x3F#6 ++ 0#1 ++ 0#1 := rfl
  rw [hmask, bankLayout]
  simp only [BitVec.and_append, BitVec.and_zero, BitVec.zero_and]
  rfl

/-! ### IDENTIFY: its answer (R316) -/

/-- IDENTIFY refuses an item above 5, then a reserved byte that is not 0, and answers the item otherwise (R313, R316). -/
theorem exec_identify {s : State} {core : CoreId} {p : Packet} (h : s.Admits core 0x02 p) :
    exec (.identify core) s = .next (
      if 5 < (byteAt p.params 0).toNat then s.answered p .rejectParam p.axis 16
      else if uAt p.params 1 3 ≠ 0 then s.answered p .rejectParam p.axis 17
      else s.answered p .ok p.axis (s.identifyWord (byteAt p.params 0).toNat)) := by
  have hrow : exec (.identify core) s = .next (identifyBody (s.started p) p) := congrArg _ (runOpcode_admits h identifyBody)
  rw [hrow, identifyBody]
  congr 1
  split_ifs with hitem hres
  · exact guarded_started_fails h (r := (.rejectParam, 16)) (by simp [firstFailure_cons, badField, hitem]) _
  · exact guarded_started_fails h (r := (.rejectParam, 17)) (by simp [firstFailure_cons, badField, reserved, hitem, hres]) _
  · have hpass : firstFailure [badField 0 (5 < (byteAt p.params 0).toNat), reserved p.params 1 3] = none := by
      simp [firstFailure_cons, firstFailure_nil, badField, reserved, hitem, hres]
    rw [guarded_passes hpass]
    exact done_started h _

/-- An item up to 5 without a reserved byte is answered with its word (R316). -/
theorem exec_identify_item {s : State} {core : CoreId} {p : Packet} {item : Byte} (h : s.Admits core 0x02 p)
    (hres : uAt p.params 1 3 = 0) (hle : item.toNat ≤ 5) (hitem : byteAt p.params 0 = item) :
    exec (.identify core) s = .next (s.answered p .ok p.axis (s.identifyWord item.toNat)) := by
  rw [exec_identify h, hitem, if_neg (by omega), if_neg (not_not.2 hres)]

/-- Settles O11: every outcome is a branch of `exec_identify`, and the layouts give the words of items 1 and 4. -/
theorem identifyAnswersItsItem : Obligations.IdentifyAnswersItsItem := by
  unfold Obligations.IdentifyAnswersItsItem
  intro s core p h
  refine ⟨fun hitem => ?_, fun hitem hres => ?_, fun hres => ⟨?_, ?_, ?_, ?_, ?_, ?_⟩⟩
  · rw [exec_identify h, if_pos hitem]
  · rw [exec_identify h, if_neg (by omega), if_pos hres]
  · exact exec_identify_item h hres (by decide)
  · rw [← idStep_eq_append]
    exact exec_identify_item h hres (by decide)
  · exact exec_identify_item h hres (by decide)
  · exact exec_identify_item h hres (by decide)
  · intro hitem
    refine ⟨s.bankWord, exec_identify_item (item := 4) h hres (by decide) hitem, ?_⟩
    rw [bankWord_eq_bankLayout]
    exact ⟨bankLayout_bit0 .., bankLayout_bit1 .., bankLayout_patch .., bankLayout_rest ..⟩
  · exact exec_identify_item h hres (by decide)

/-! ### OWNERSHIP (R133, R333) -/

/-- The checks of OWNERSHIP on axis `n`, in their order (R133, R313, R333). -/
def State.ownershipChecks (s : State) (par : List Byte) (n : AxisId) : List Check :=
  [(uAt par 0 1 = 0 && (s.ax n).prot.owner = .sideband, .rejectOwner, 4), badField 0 (1 < uAt par 0 1), reserved par 1 3,
    badState (uAt par 0 1 = 0 && (s.ax n).prot.owner = .localJog && !s.localFree n)]

/-- What OWNERSHIP refuses: an owner SIDEBAND, then an OP above 1, then a reserved byte, then a LOCAL that may not be released. -/
theorem firstFailure_ownershipChecks (s : State) (par : List Byte) (n : AxisId) : firstFailure (s.ownershipChecks par n) =
    if byteAt par 0 = 0 ∧ (s.ax n).prot.owner = .sideband then some (.rejectOwner, 4)
    else if 1 < (byteAt par 0).toNat then some (.rejectParam, 16)
    else if uAt par 1 3 ≠ 0 then some (.rejectParam, 17)
    else if byteAt par 0 = 0 ∧ (s.ax n).prot.owner = .localJog ∧ s.localFree n = false then some (.rejectState, noField)
    else none := by
  simp only [State.ownershipChecks, badField, reserved, badState, firstFailure_cons, firstFailure_nil, Bool.and_eq_true,
    decide_eq_true_eq, Bool.not_eq_true', uAt_one_eq_zero, and_assoc]
  rw [uAt_one]
  rfl

/-- LOCAL gives the axis back to HOST (R133). -/
def AxisProt.backToHost (q : AxisProt) : AxisProt := { q with owner := .host, ownChg := true }

section
variable {s : State} {core : CoreId} {p : Packet} {n : AxisId} (h : s.Admits core 0x39 p) (hn : axisOfByte p.axis = some n)
include h hn

/-- The row runs its checks, then releases a LOCAL with OP 0 and answers the owner there then is (R333). -/
theorem exec_ownership : exec (.ownership core) s = .next ((s.started p).guarded p (s.ownershipChecks p.params n) fun t =>
      let u := if uAt p.params 0 1 = 0 && (s.ax n).prot.owner = .localJog then t.modProt n AxisProt.backToHost else t
      u.done p (BitVec.ofNat 32 (ownerCode (u.ax n).prot.owner))) := by
  have hrow : exec (.ownership core) s = .next (ownershipBody (s.started p) p) := congrArg _ (runOpcode_admits h ownershipBody)
  rw [hrow, ownershipBody, hn]
  rfl

/-- OWNERSHIP that fails a check changes nothing (R313). -/
theorem exec_ownership_refused {r : Status × Word} (hr : firstFailure (s.ownershipChecks p.params n) = some r) :
    exec (.ownership core) s = .next (s.answered p r.1 p.axis r.2) := by
  rw [exec_ownership h hn, guarded_started_fails h hr]

/-- OWNERSHIP that leaves the owner as it is answers the owner's code (R333). -/
theorem exec_ownership_query (hc : passes (s.ownershipChecks p.params n))
    (hq : byteAt p.params 0 = 0 → (s.ax n).prot.owner ≠ .localJog) :
    exec (.ownership core) s = .next (s.answered p .ok p.axis (BitVec.ofNat 32 (ownerCode (s.ax n).prot.owner))) := by
  have hkeep : ¬ (uAt p.params 0 1 = 0 ∧ (s.ax n).prot.owner = .localJog) := fun ⟨hop, ho⟩ =>
    hq ((uAt_one_eq_zero _ _).1 hop) ho
  rw [exec_ownership h hn, guarded_passes hc]
  simp only [Bool.and_eq_true, decide_eq_true_eq, if_neg hkeep]
  exact congrArg _ (done_started h _)

/-- OP 0 on an axis of LOCAL that may be released gives it back to HOST (R133, R333). -/
theorem exec_ownership_release (hc : passes (s.ownershipChecks p.params n)) (hop : byteAt p.params 0 = 0)
    (ho : (s.ax n).prot.owner = .localJog) : exec (.ownership core) s =
      .next { s.answered p .ok p.axis 0 with axes := (s.modProt n AxisProt.backToHost).axes } := by
  have hs : s.dev.suspended = false := Admits.susp h
  have hh : s.dev.safeHold = false := Admits.hold h
  rw [exec_ownership h hn, guarded_passes hc, ← answered_modProt, ← answer_started (s := s.modProt n AxisProt.backToHost) hs hh]
  simp only [(uAt_one_eq_zero _ _).2 hop, ho, decide_true, Bool.and_true, if_true, modProt_ax_self]
  rfl

end

/-- Settles O23: each clause says which check of the row fails first, or that none does. -/
theorem ownershipReleasesAndAnswers : Obligations.OwnershipReleasesAndAnswers := by
  unfold Obligations.OwnershipReleasesAndAnswers
  intro s core p n h hn
  have hfirst := firstFailure_ownershipChecks s p.params n
  refine ⟨fun hop => ?_, fun hres hop => ?_, fun hres hop => ?_, fun hres hop ho => ?_, fun hop ho => ?_, fun hres hop ho hf => ?_,
    fun hres hop ho hf => ?_⟩
  · have hown : ¬ (byteAt p.params 0 = 0 ∧ (s.ax n).prot.owner = .sideband) := by
      rintro ⟨h0, -⟩
      simp [h0] at hop
    exact exec_ownership_refused h hn (r := (.rejectParam, 16)) (by rw [hfirst, if_neg hown, if_pos hop])
  · have hown : ¬ (byteAt p.params 0 = 0 ∧ (s.ax n).prot.owner = .sideband) := by
      rcases hop with hop | ⟨-, ho⟩ <;> simp [*]
    have hle : ¬ 1 < (byteAt p.params 0).toNat := by rcases hop with hop | ⟨hop, -⟩ <;> simp [hop]
    exact exec_ownership_refused h hn (r := (.rejectParam, 17)) (by rw [hfirst, if_neg hown, if_neg hle, if_pos hres])
  · rw [exec_ownership_query h hn (by simp [passes, hfirst, hop, hres]) (by simp [hop])]
    cases (s.ax n).prot.owner <;> rfl
  · rw [exec_ownership_query h hn (by simp [passes, hfirst, hop, hres, ho]) (by simp [ho]), ho]
    rfl
  · exact exec_ownership_refused h hn (r := (.rejectOwner, 4)) (by simp [hfirst, hop, ho])
  · exact exec_ownership_refused h hn (r := (.rejectState, 0xFFFFFFFF)) (by simp [hfirst, hop, hres, ho, hf, noField])
  · exact exec_ownership_release h hn (by simp [passes, hfirst, hop, hres, ho, hf]) hop ho

end Sys2Proof.Machine
end

section
/-! SUPPORT. KEY_UNLOCK: what each effect of a register write leaves of the two ports' unlocks, from the updates of one unit to what each
word of a page does (16_integrity.md R416; 13_sideband.md R352). -/
namespace Sys2Proof.Machine
open Sys2Proof

/-! ### Setting and reading the unlocks -/

/-- The unlocks are one bit of each port. -/
theorem unlockedBy_congr {s t : State} (hhp : t.hp.unlocked = s.hp.unlocked) (hsb : t.sb.unlocked = s.sb.unlocked) :
    t.unlockedBy = s.unlockedBy := by
  funext p
  cases p with
  | host => exact hhp
  | sideband => exact hsb

@[simp] theorem setUnlock_unlockedBy_self (s : State) (p : Port) (on : Bool) : (s.setUnlock p on).unlockedBy p = on := by
  cases p <;> rfl

theorem setUnlock_unlockedBy_other (s : State) {p q : Port} (on : Bool) (h : q ≠ p) :
    (s.setUnlock p on).unlockedBy q = s.unlockedBy q := by
  cases p with
  | host =>
    cases q with
    | host => exact absurd rfl h
    | sideband => rfl
  | sideband =>
    cases q with
    | host => rfl
    | sideband => exact absurd rfl h

@[simp] theorem setUnlock_setUnlock (s : State) (p : Port) (a b : Bool) : (s.setUnlock p a).setUnlock p b = s.setUnlock p b := by
  cases p <;> rfl

/-! ### Effects on one unit, and on every unit of a list -/

@[simp] theorem modAxis_unlockedBy (s : State) (n : AxisId) (f : Axis → Axis) : (s.modAxis n f).unlockedBy = s.unlockedBy := rfl
@[simp] theorem modMot_unlockedBy (s : State) (n : AxisId) (f : AxisMotion → AxisMotion) : (s.modMot n f).unlockedBy = s.unlockedBy := rfl
@[simp] theorem modLeg_unlockedBy (s : State) (m : LegId) (f : Leg → Leg) : (s.modLeg m f).unlockedBy = s.unlockedBy := rfl

/-- Effects none of which touches an unlock. -/
theorem forAll_unlockedBy {α : Type} {f : State → α → State} (hf : ∀ s a, (f s a).unlockedBy = s.unlockedBy) (s : State) (l : List α) :
    (s.forAll l f).unlockedBy = s.unlockedBy :=
  forAll_same State.unlockedBy l f (fun s a _ => hf s a) s

@[simp] theorem hostEnables_unlockedBy (s : State) (g : GroupId) : (s.hostEnables g).unlockedBy = s.unlockedBy := by
  unfold State.hostEnables
  exact forAll_unlockedBy (fun s _ => modLeg_unlockedBy s _ _) s _

/-! ### Faults, error codes and pairs -/

@[simp] theorem shale_unlockedBy (s : State) (cls code src : Nat) (data : BitVec 24) : (s.shale cls code src data).unlockedBy = s.unlockedBy :=
  unlockedBy_congr (by rw [shale_hp]) (by rw [shale_sb])

@[simp] theorem accessFlag_unlockedBy (s : State) (i : Nat) : (s.accessFlag i).unlockedBy = s.unlockedBy := rfl
@[simp] theorem healWord_unlockedBy (s : State) (page w : Nat) : (s.healWord page w).unlockedBy = s.unlockedBy := rfl

@[simp] theorem wonceViol_unlockedBy (s : State) (p : Port) : (s.wonceViol p).unlockedBy = s.unlockedBy :=
  (shale_unlockedBy _ _ _ _ _).trans (accessFlag_unlockedBy s 7)

@[simp] theorem regError_unlockedBy (s : State) (p : Port) (code : Nat) : (s.regError p code).unlockedBy = s.unlockedBy := by
  cases p <;> rfl

@[simp] theorem setHolding_unlockedBy (s : State) (p : Port) (k : Nat) (v : Word) : (s.setHolding p k v).unlockedBy = s.unlockedBy := by
  cases p <;> rfl

@[simp] theorem keyViolation_unlockedBy (s : State) (p : Port) : (s.keyViolation p).unlockedBy = s.unlockedBy := by
  have hlog : (((s.accessFlag 6).regError p 4).shale 9 1 255 (portData p)).unlockedBy = s.unlockedBy := by simp
  unfold State.keyViolation
  extract_lets last s1 log
  split
  · cases p <;> exact hlog
  · exact (regError_unlockedBy _ p 4).trans (accessFlag_unlockedBy s 6)

/-! ### Completions and the ends of motion (R78, R304) -/

@[simp] theorem complete_unlockedBy (s : State) (ref : CmdRef) (st : Status) (fl ax : Byte) (mp w : Word) :
    (s.complete ref st fl ax mp w).unlockedBy = s.unlockedBy := by
  cases ref with
  | host t q => rw [State.complete, pushEntry_frame]; rfl
  | sideband => rfl
  | internal => rfl

@[simp] theorem finishAction_unlockedBy (s : State) (a : Action) : (s.finishAction a).unlockedBy = s.unlockedBy := by
  unfold State.finishAction
  cases a.ref with
  | host t q => exact complete_unlockedBy ..
  | sideband => simp only []; split <;> rfl
  | internal => exact complete_unlockedBy ..

@[simp] theorem actionAxis_unlockedBy (s : State) (id : Nat) (o : AxisOutcome) (k : Nat) (b : Bool) :
    (s.actionAxis id o k b).unlockedBy = s.unlockedBy := by
  unfold State.actionAxis
  split
  · rfl
  · split
    · simp only []
      split
      · exact finishAction_unlockedBy ..
      · rfl
    · rfl

@[simp] theorem memberEnds_unlockedBy (s : State) (n : AxisId) (id : BitVec 16) (t e : Int) :
    (s.memberEnds n id t e).unlockedBy = s.unlockedBy := by rw [memberEnds_frame]; rfl

@[simp] theorem reap_unlockedBy (s : State) : s.reap.unlockedBy = s.unlockedBy := unlockedBy_congr rfl rfl

@[simp] theorem completeSeg_unlockedBy (s : State) (n : AxisId) (g : Segment) (st : Status) (mp : Word) (w : Option Word) (d : Nat)
    (t e : Int) : (s.completeSeg n g st mp w d t e).unlockedBy = s.unlockedBy := by
  simp [State.completeSeg]

@[simp] theorem completeRuns_unlockedBy (s : State) (n : AxisId) (l : List Run) (live : Bool) (st : Status) (w : Option Word) :
    (s.completeRuns n l live st w).unlockedBy = s.unlockedBy :=
  forAll_unlockedBy (fun _ _ => completeSeg_unlockedBy ..) s l

@[simp] theorem flushQueue_unlockedBy (s : State) (n : AxisId) (st : Status) : (s.flushQueue n st).unlockedBy = s.unlockedBy :=
  forAll_unlockedBy (fun _ _ => completeSeg_unlockedBy ..) (s.modMot n fun a => { a with queue := [] }) _

@[simp] theorem countDisable_unlockedBy (s : State) (n : AxisId) (k : Nat) : (s.countDisable n k).unlockedBy = s.unlockedBy := rfl

@[simp] theorem stopsDone_unlockedBy (s : State) (n : AxisId) (k : Nat) : (s.stopsDone n k).unlockedBy = s.unlockedBy :=
  forAll_unlockedBy (fun _ _ => actionAxis_unlockedBy ..) s _

@[simp] theorem dropAll_unlockedBy (s : State) (n : AxisId) (st : Status) (w : Option Word) : (s.dropAll n st w).unlockedBy = s.unlockedBy := by
  simp [State.dropAll]

/-! ### BLK_RST: only the reset of the side-band port takes an unlock (R398) -/

/-- The reset of a group leaves the unlocks of both ports (R396). -/
theorem resetGroup_unlockedBy (s : State) (g : GroupId) : (s.resetGroup g).unlockedBy = s.unlockedBy := by
  have haxes (t : State) := forAll_unlockedBy (f := fun s n => (s.dropAll n .flushed none).modAxis n fun x => x.reset t.m7)
    (fun s n => by simp) t (groupAxes g)
  have hlegs := forAll_unlockedBy (f := fun s m => s.modLeg m Leg.reset) fun _ _ => rfl
  have hcoils := forAll_unlockedBy (f := fun s c => s.modCoil c fun _ => {}) fun _ _ => rfl
  have hadcs := forAll_unlockedBy (f := fun s a => if groupOfAdc a = g then
    s.modAdc a fun x => { x with calForced := false, calStarved := false, calRange := false, gsRange := false } else s)
    fun s a => by split_ifs <;> rfl
  exact (hadcs _ _).trans ((hcoils _ _).trans ((hlegs _ _).trans (haxes s)))

theorem resetPort_unlockedBy (s : State) : s.resetPort.unlockedBy = s.unlockedBy := rfl

theorem resetQuartz_unlockedBy (s : State) : s.resetQuartz.unlockedBy = s.unlockedBy :=
  unlockedBy_congr (by simp only [State.resetQuartz, State.loadTrims]) (by simp only [State.resetQuartz, State.loadTrims])

theorem resetSync_unlockedBy (s : State) : s.resetSync.unlockedBy = s.unlockedBy := by
  unfold State.resetSync
  extract_lets t s1
  split
  · rfl
  · exact complete_unlockedBy ..

/-- A port that is locked stays locked when the reset of a block starts. -/
theorem startBlock_locked {s : State} {p : Port} (h : s.unlockedBy p = false) (b : Nat) : (s.startBlock b).unlockedBy p = false := by
  unfold State.startBlock
  split_ifs
  · rw [resetGroup_unlockedBy, h]
  · exact (congrFun (resetPort_unlockedBy s) p).trans h
  · exact (congrFun (resetQuartz_unlockedBy s) p).trans h
  · exact (congrFun (resetSync_unlockedBy s) p).trans h
  · cases p with
    | host => exact h
    | sideband => rfl

theorem requestBlock_locked {s : State} {p : Port} (h : s.unlockedBy p = false) (b : Nat) (own : Bool) :
    (s.requestBlock b own).unlockedBy p = false := by
  unfold State.requestBlock
  split
  · exact startBlock_locked h b
  · exact h

/-- A port that is locked stays locked whatever blocks are asked for their reset. -/
theorem writeBlkRst_locked {s : State} {p : Port} (h : s.unlockedBy p = false) (v : Word) (own : Bool) :
    (s.writeBlkRst v own).unlockedBy p = false :=
  forAll_keeps (fun t => t.unlockedBy p = false) _ _ (fun _ b _ ht => requestBlock_locked ht b own) s h

/-! ### What a word does leaves the unlocks, BLK_RST apart -/

/-- Where the answer to a write is a state, both ports' unlocks are those of `s`. -/
def Written.keepsUnlocks (r : Written) (s : State) : Prop := ∀ t, r = .ok t → t.unlockedBy = s.unlockedBy

theorem keepsUnlocks_error {s : State} {e : Nat} : Written.keepsUnlocks (.error e) s := fun _ h => nomatch h

theorem keepsUnlocks_ok {s t : State} : Written.keepsUnlocks (.ok t) s ↔ t.unlockedBy = s.unlockedBy :=
  ⟨fun h => h t rfl, fun h _ e => Except.ok.inj e ▸ h⟩

/-- A check before a write can only refuse it. -/
theorem keepsUnlocks_check {s : State} {c : Prop} [Decidable c] {e : Nat} {r : Written} (h : r.keepsUnlocks s) :
    Written.keepsUnlocks (if c then .error e else r) s := by
  split
  · exact keepsUnlocks_error
  · exact h

theorem writePage0_keepsUnlocks (s : State) (w : Nat) (v : Word) : (s.writePage0 w v).keepsUnlocks s := by
  unfold State.writePage0
  extract_lets clr
  split <;> exact keepsUnlocks_ok.2 rfl

theorem loadKey_unlockedBy (s : State) (p : Port) (fw : Bool) : (s.loadKey p fw).unlockedBy = s.unlockedBy := by
  unfold State.loadKey
  extract_lets b
  by_cases hload : s.nvm.lc = .manufacture ∧ (if fw then s.nvm.fwKey.isNone else s.nvm.devKey.isNone) = true
  · rw [if_pos hload]
    cases fw <;> rfl
  · rw [if_neg hload, regError_unlockedBy, wonceViol_unlockedBy]

theorem optCtl_keepsUnlocks (s : State) (p : Port) (v : Word) : (s.optCtl p v).keepsUnlocks s := by
  refine keepsUnlocks_check ?_
  split
  · exact keepsUnlocks_ok.2 rfl
  · refine keepsUnlocks_check ?_
    split
    · exact keepsUnlocks_ok.2 rfl
    · exact keepsUnlocks_error
  · exact keepsUnlocks_ok.2 (loadKey_unlockedBy ..)
  · exact keepsUnlocks_ok.2 (loadKey_unlockedBy ..)

theorem writePage1_keepsUnlocks (s : State) (p : Port) {w : Nat} (hw : w ≠ 1) (v : Word) : (s.writePage1 p w v).keepsUnlocks s := by
  unfold State.writePage1
  split
  · exact absurd rfl hw
  · split <;> exact keepsUnlocks_ok.2 rfl
  · exact optCtl_keepsUnlocks s p v
  · exact keepsUnlocks_ok.2 rfl
  · exact keepsUnlocks_ok.2 rfl
  · split
    · exact keepsUnlocks_check (keepsUnlocks_ok.2 rfl)
    · exact keepsUnlocks_ok.2 rfl

theorem writePage2_keepsUnlocks (s : State) (w : Nat) (v : Word) : (s.writePage2 w v).keepsUnlocks s := by
  unfold State.writePage2
  split
  · extract_lets ta
    split
    · exact keepsUnlocks_ok.2 (unlockedBy_congr rfl rfl)
    · exact keepsUnlocks_error
  · exact keepsUnlocks_ok.2 (unlockedBy_congr rfl rfl)
  · exact keepsUnlocks_check (keepsUnlocks_ok.2 rfl)
  · exact keepsUnlocks_ok.2 (unlockedBy_congr rfl rfl)
  · split <;> exact keepsUnlocks_ok.2 rfl
  · split
    · exact keepsUnlocks_check (keepsUnlocks_ok.2 rfl)
    · exact keepsUnlocks_ok.2 rfl

theorem writeFlen_keepsUnlocks (s : State) (v : Word) : (s.writeFlen v).keepsUnlocks s :=
  keepsUnlocks_check (keepsUnlocks_check (keepsUnlocks_ok.2 rfl))

theorem writeTbCfg_keepsUnlocks (s : State) (v : Word) : (s.writeTbCfg v).keepsUnlocks s :=
  keepsUnlocks_check (keepsUnlocks_check (keepsUnlocks_ok.2 rfl))

theorem writeCpr_keepsUnlocks (s : State) (v : Word) : (s.writeCpr v).keepsUnlocks s := by
  unfold State.writeCpr
  extract_lets c
  split
  · exact keepsUnlocks_ok.2 rfl
  · exact keepsUnlocks_error

theorem writeSync_keepsUnlocks (s : State) (v : Word) : (s.writeSync v).keepsUnlocks s :=
  keepsUnlocks_check (keepsUnlocks_check (keepsUnlocks_ok.2 rfl))

theorem writePage3_keepsUnlocks (s : State) (w : Nat) (v : Word) : (s.writePage3 w v).keepsUnlocks s := by
  unfold State.writePage3
  split
  · exact writeFlen_keepsUnlocks s v
  · exact writeTbCfg_keepsUnlocks s v
  · exact writeCpr_keepsUnlocks s v
  · exact keepsUnlocks_ok.2 rfl
  · exact keepsUnlocks_ok.2 rfl
  · exact writeSync_keepsUnlocks s v
  · exact keepsUnlocks_check (keepsUnlocks_ok.2 rfl)
  · split <;> exact keepsUnlocks_ok.2 rfl
  · exact keepsUnlocks_ok.2 rfl

/-! ### The words of a group's page -/

theorem clearGrpFault_unlockedBy (s : State) (g : GroupId) (v : Word) : (s.clearGrpFault g v).unlockedBy = s.unlockedBy :=
  forAll_unlockedBy (fun s m => by split <;> rfl) (s.modGroup g _) (List.finRange 16)

theorem writeDirect_keepsUnlocks (s : State) (g : GroupId) (v : Word) : (s.writeDirect g v).keepsUnlocks s := by
  refine keepsUnlocks_check (keepsUnlocks_ok.2 ?_)
  rw [hostEnables_unlockedBy]
  refine forAll_unlockedBy (fun t m => ?_) (s.modGroup g fun x => { x with hbDirect := v }) (List.finRange 16)
  extract_lets both none' m' was s1
  split_ifs
  · rfl
  · exact shale_unlockedBy ..
  · rfl
  · rfl

theorem writeCommit_keepsUnlocks (s : State) (g : GroupId) (v : Word) (tick : Nat) : (s.writeCommit g v tick).keepsUnlocks s := by
  unfold State.writeCommit
  split
  · exact keepsUnlocks_ok.2 rfl
  · exact keepsUnlocks_check (keepsUnlocks_ok.2 (forAll_unlockedBy (fun _ _ => by split <;> rfl) s _))

theorem writeEdge_keepsUnlocks (s : State) (g : GroupId) (m : Fin 16) (off : Bool) (v : Word) : (s.writeEdge g m off v).keepsUnlocks s :=
  keepsUnlocks_check (keepsUnlocks_check (keepsUnlocks_ok.2 rfl))

theorem writeGroupWord_keepsUnlocks (s : State) (g : GroupId) (w : Nat) (v : Word) (tick : Nat) :
    (s.writeGroupWord g w v tick).keepsUnlocks s := by
  unfold State.writeGroupWord
  split
  · exact keepsUnlocks_check (keepsUnlocks_ok.2 rfl)
  · exact keepsUnlocks_ok.2 rfl
  · exact keepsUnlocks_ok.2 (clearGrpFault_unlockedBy s g v)
  · exact keepsUnlocks_check (keepsUnlocks_check (keepsUnlocks_ok.2 rfl))
  · exact keepsUnlocks_check (keepsUnlocks_ok.2 rfl)
  · exact keepsUnlocks_check (keepsUnlocks_ok.2 rfl)
  · exact keepsUnlocks_check (keepsUnlocks_ok.2 rfl)
  · exact keepsUnlocks_ok.2 (forAll_unlockedBy (fun _ _ => by split <;> rfl) s (List.finRange 2))
  · exact writeDirect_keepsUnlocks s g v
  · exact writeCommit_keepsUnlocks s g v tick
  · split_ifs
    · exact writeEdge_keepsUnlocks _ _ _ _ _
    · exact writeEdge_keepsUnlocks _ _ _ _ _
    · exact keepsUnlocks_ok.2 rfl

theorem writeAxisBlock_keepsUnlocks (s : State) (n : AxisId) (o : Nat) (v : Word) : (s.writeAxisBlock n o v).keepsUnlocks s := by
  unfold State.writeAxisBlock
  split
  · exact keepsUnlocks_ok.2 rfl
  · exact keepsUnlocks_ok.2 rfl
  · exact keepsUnlocks_ok.2 rfl
  · exact keepsUnlocks_ok.2 rfl
  · exact keepsUnlocks_ok.2 rfl
  · exact keepsUnlocks_ok.2 rfl
  · exact keepsUnlocks_check (keepsUnlocks_ok.2 rfl)
  · exact keepsUnlocks_check (keepsUnlocks_ok.2 rfl)
  · exact keepsUnlocks_ok.2 rfl

theorem writeGroup_keepsUnlocks (s : State) (p : Port) (g : GroupId) (w : Nat) (v : Word) (tick : Nat) :
    (s.writeGroup p g w v tick).keepsUnlocks s := by
  refine keepsUnlocks_check (keepsUnlocks_check ?_)
  split
  · exact writeGroupWord_keepsUnlocks s g w v tick
  · simp only []
    split
    · exact keepsUnlocks_ok.2 rfl
    · exact writeAxisBlock_keepsUnlocks _ _ _ _

end Sys2Proof.Machine
end

section
/-! SUPPORT. KEY_UNLOCK: what a write of any word makes of the two ports' unlocks, and the statement about it (10_host_port.md R276, R279;
16_integrity.md R416). -/
namespace Sys2Proof.Machine
open Sys2Proof

/-! ### What a write does once its key is checked -/

/-- What a word other than BLK_RST does leaves both ports' unlocks. -/
theorem writeWord_keepsUnlocks (s : State) (p : Port) {page w : Nat} (hblk : ¬(page = 1 ∧ w = 1)) (v : Word) (tick : Nat) :
    (s.writeWord p page w v tick).keepsUnlocks s := by
  unfold State.writeWord
  split
  · exact writePage0_keepsUnlocks s w v
  · exact writePage1_keepsUnlocks s p (fun hw => hblk ⟨rfl, hw⟩) v
  · exact writePage2_keepsUnlocks s w v
  · exact writePage3_keepsUnlocks s w v
  · split
    · exact writeGroup_keepsUnlocks _ _ _ _ _ _
    · exact keepsUnlocks_ok.2 rfl

theorem presetMaster_keepsUnlocks (s : State) (m : MasterId) (lo hi : Word) : (s.presetMaster m lo hi).keepsUnlocks s :=
  keepsUnlocks_check (keepsUnlocks_ok.2 rfl)

/-- A word of a pair leaves both ports' unlocks, whether the pair is held, committed or refused. -/
theorem writePair_keepsUnlocks (s : State) (p : Port) (page w lo : Nat) (v : Word) :
    (s.writePair p page w lo v).1.keepsUnlocks s ∧ (s.writePair p page w lo v).2.unlockedBy = s.unlockedBy := by
  unfold State.writePair
  extract_lets key s1 held
  split_ifs
  · exact ⟨keepsUnlocks_ok.2 (setHolding_unlockedBy ..), setHolding_unlockedBy ..⟩
  · split
    next t hpreset =>
      have ht : t.unlockedBy = s.unlockedBy := presetMaster_keepsUnlocks _ _ _ _ t hpreset
      exact ⟨keepsUnlocks_ok.2 ((setHolding_unlockedBy ..).trans ht), rfl⟩
    · exact ⟨keepsUnlocks_error, setHolding_unlockedBy ..⟩
  · exact ⟨keepsUnlocks_ok.2 rfl, rfl⟩

/-! ### A write of one word -/

/-- A written value that does not unlock leaves the port that wrote it locked and, BLK_RST apart, the other as it was. -/
theorem regWrite_unlockedBy (s : State) (p : Port) {page w : Nat} {v : Word} (hkey : ¬(page = 0 ∧ w = 5 ∧ v = 0x0000C3A5))
    (hblk : ¬(page = 1 ∧ w = 1)) (tick : Nat) : (s.regWrite p page w v tick).unlockedBy = (s.setUnlock p false).unlockedBy := by
  unfold State.regWrite
  extract_lets open' s1
  split_ifs with hready hoor hunlock hkeyed
  · exact regError_unlockedBy ..
  · exact regError_unlockedBy ..
  · have hv : v ≠ 0x0000C3A5 := fun hv => hkey ⟨hunlock.1, hunlock.2, hv⟩
    rw [decide_eq_false hv, setUnlock_setUnlock]
  · exact keyViolation_unlockedBy ..
  · split
    next lo _ =>
      obtain ⟨hok, herr⟩ := writePair_keepsUnlocks s1 p page w lo v
      split
      next t u heq => exact (healWord_unlockedBy ..).trans (hok t (congrArg Prod.fst heq))
      next e u heq =>
        rw [heq] at herr
        exact (regError_unlockedBy ..).trans herr
    · split
      next t heq => exact (healWord_unlockedBy ..).trans (writeWord_keepsUnlocks s1 p hblk v tick t heq)
      · exact regError_unlockedBy ..

/-- BLK_RST leaves the port that wrote it locked. -/
theorem regWrite_blkRst_locked (s : State) (p : Port) (v : Word) (tick : Nat) : (s.regWrite p 1 1 v tick).unlockedBy p = false := by
  have hlocked : (s.setUnlock p false).unlockedBy p = false := setUnlock_unlockedBy_self ..
  unfold State.regWrite
  extract_lets open' s1
  split_ifs with hready hoor hunlock hkeyed
  · exact (congrFun (regError_unlockedBy ..) p).trans hlocked
  · exact (congrFun (regError_unlockedBy ..) p).trans hlocked
  · exact hunlock.1.elim
  · exact (congrFun (keyViolation_unlockedBy ..) p).trans hlocked
  · exact writeBlkRst_locked hlocked v _

/-- A write consumes the unlock of its port, whatever word it addresses, unless it is the one that unlocks. -/
theorem regWrite_locked (s : State) (p : Port) {page w : Nat} {v : Word} (hkey : ¬(page = 0 ∧ w = 5 ∧ v = 0x0000C3A5)) (tick : Nat) :
    (s.regWrite p page w v tick).unlockedBy p = false := by
  by_cases hblk : page = 1 ∧ w = 1
  · obtain ⟨rfl, rfl⟩ := hblk
    exact regWrite_blkRst_locked s p v tick
  · rw [regWrite_unlockedBy s p hkey hblk, setUnlock_unlockedBy_self]

/-- KEY_UNLOCK, written in READY, sets the unlock by its value alone. -/
theorem regWrite_keyUnlock {s : State} (hready : s.dev.ready = true) (p : Port) (v : Word) (tick : Nat) :
    s.regWrite p 0 5 v tick = s.setUnlock p (v = 0x0000C3A5) := by
  simp [State.regWrite, hready]

/-- Settles O34: KEY_UNLOCK sets the unlock by its value, and every other write goes through the lemmas on `regWrite`. -/
theorem keyUnlockOpensOneWrite : Obligations.KeyUnlockOpensOneWrite := by
  unfold Obligations.KeyUnlockOpensOneWrite
  intro s port other hother
  refine ⟨fun hready => ?_, fun v hv hready => ?_, rfl, fun page word v hkey => ?_⟩
  · exact congrArg _ (regWrite_keyUnlock hready port _ 0)
  · have hset := regWrite_keyUnlock hready port v 0
    rw [decide_eq_false hv] at hset
    exact congrArg _ hset
  · have hkey' : ¬(page.toNat = 0 ∧ word.toNat = 5 ∧ v = 0x0000C3A5) := fun ⟨hp, hw, hv⟩ =>
      hkey ⟨BitVec.eq_of_toNat_eq hp, BitVec.eq_of_toNat_eq hw, hv⟩
    refine ⟨_, rfl, regWrite_locked s port hkey' 0, fun hblk => ?_⟩
    have hblk' : ¬(page.toNat = 1 ∧ word.toNat = 1) := fun ⟨hp, hw⟩ => hblk ⟨BitVec.eq_of_toNat_eq hp, BitVec.eq_of_toNat_eq hw⟩
    rw [regWrite_unlockedBy s port hkey' hblk', setUnlock_unlockedBy_other s false hother]

end Sys2Proof.Machine
end

section
/-! SUPPORT. What no step breaks, said of any two states, and the updates that leave it: the layer under the invariants of every step
(01_architecture.md R22, R23; 11_queues_packets.md R304; 15_reset_lifecycle.md R395, R400). -/
namespace Sys2Proof.Machine
open Sys2Proof

/-! ### Two states of one course -/

/-- `t` keeps what no step of `s` may break: the commands that wait, fresh action numbers, EN lines low where something forbids them, fuses
programmed and fresh records, and the form of the flash contents. -/
structure State.Keeps (s t : State) : Prop where
  pending : t.pending = s.pending
  actions : s.ActionsFresh → t.ActionsFresh
  en : s.EnSafe → t.EnSafe
  fuses : s.FusesFresh → fusesKept s t ∧ t.FusesFresh
  flash : Memory.wf s.mp.flash = true → Memory.wf t.mp.flash = true

/-- `t` keeps all that, and the life-cycle state with its word, the fuses and the stage of the reset sequence besides: what every operation does but
those of resets and of the life cycle. -/
structure State.Calm (s t : State) : Prop extends s.Keeps t where
  life : t.nvm.lc = s.nvm.lc
  lifeWord : t.nvm.lcWord = s.nvm.lcWord
  sameFuses : t.nvm.fuses = s.nvm.fuses
  stage : t.dev.stage = s.dev.stage

theorem State.Keeps.refl (s : State) : s.Keeps s := ⟨rfl, id, id, fun h => ⟨fun _ _ => rfl, h⟩, id⟩

theorem State.Keeps.trans {s t u : State} (h : s.Keeps t) (k : t.Keeps u) : s.Keeps u where
  pending := k.pending.trans h.pending
  actions := k.actions ∘ h.actions
  en := k.en ∘ h.en
  fuses hs := by
    obtain ⟨h1, h2⟩ := h.fuses hs
    obtain ⟨k1, k2⟩ := k.fuses h2
    exact ⟨fun i hi => (k1 i (h1 i hi ▸ hi)).trans (h1 i hi), k2⟩
  flash := k.flash ∘ h.flash

theorem State.Calm.refl (s : State) : s.Calm s := ⟨.refl s, rfl, rfl, rfl, rfl⟩

theorem State.Calm.trans {s t u : State} (h : s.Calm t) (k : t.Calm u) : s.Calm u :=
  ⟨h.toKeeps.trans k.toKeeps, k.life.trans h.life, k.lifeWord.trans h.lifeWord, k.sameFuses.trans h.sameFuses, k.stage.trans h.stage⟩

/-! ### The parts of a state on which it rests -/

/-- What EN depends on and the fuse sequence stand in the device's registers. -/
structure Device.Calm (d d' : Device) : Prop where
  stage : d'.stage = d.stage
  ready : d'.ready = d.ready
  safeHold : d'.safeHold = d.safeHold
  safeA : d'.safeA = d.safeA
  safeB : d'.safeB = d.safeB
  clock : d'.gfault.getLsbD 0 = d.gfault.getLsbD 0
  fuseSeq : d'.fuseSeq = d.fuseSeq

/-- The life-cycle state, its word and the fuses stand in NVM. -/
structure Nvm.Calm (n n' : Nvm) : Prop where
  lc : n'.lc = n.lc
  lcWord : n'.lcWord = n.lcWord
  fuses : n'.fuses = n.fuses

/-- No EN line has risen. -/
abbrev LegsCalm (l l' : Vector Leg 192) : Prop := ∀ m : LegId, l'[m.val].en = true → l[m.val].en = true

/-- The lock-outs, the link fault and the parity fault of a group stand. -/
abbrev Group.Calm (x x' : Group) : Prop := x'.lockout = x.lockout ∧ x'.link = x.link ∧ x'.par = x.par

/-- Those of every group stand. -/
abbrev GroupsCalm (v v' : Vector Group 12) : Prop := ∀ g : GroupId, v[g.val].Calm v'[g.val]

/-- The action numbers stay fresh. -/
abbrev Queues.Calm (q q' : Queues) : Prop := (∀ a ∈ q.actions, a.id < q.nextAct) → ∀ a ∈ q'.actions, a.id < q'.nextAct

/-- The flash contents keep their form. -/
abbrev MemPort.Calm (m m' : MemPort) : Prop := Memory.wf m.flash = true → Memory.wf m'.flash = true

theorem Device.Calm.refl (d : Device) : d.Calm d := ⟨rfl, rfl, rfl, rfl, rfl, rfl, rfl⟩
theorem Nvm.Calm.refl (n : Nvm) : n.Calm n := ⟨rfl, rfl, rfl⟩
theorem LegsCalm.refl (l : Vector Leg 192) : LegsCalm l l := fun _ h => h
theorem GroupsCalm.refl (v : Vector Group 12) : GroupsCalm v v := fun _ => ⟨rfl, rfl, rfl⟩

theorem Queues.calm_of_same {q q' : Queues} (h : q'.actions = q.actions) (k : q'.nextAct = q.nextAct) : q.Calm q' := by
  unfold Queues.Calm
  rw [h, k]
  exact id

theorem MemPort.calm_of_same {m m' : MemPort} (h : m'.flash = m.flash) : m.Calm m' := by
  unfold MemPort.Calm
  rw [h]
  exact id

theorem calm_of_parts {s t : State} (hp : t.pending = s.pending) (hd : s.dev.Calm t.dev) (hn : s.nvm.Calm t.nvm)
    (hl : LegsCalm s.legs t.legs) (hg : GroupsCalm s.groups t.groups) (hq : s.q.Calm t.q) (hm : s.mp.Calm t.mp) : s.Calm t where
  pending := hp
  actions := hq
  en := fun ⟨hen, hready⟩ => by
    refine ⟨fun m hm => ?_, fun hr => hd.stage.trans (hready (hd.ready ▸ hr))⟩
    obtain ⟨hlock, hlink, hpar⟩ := hg (groupOfLeg m)
    have hs := hen m (hl m hm)
    simp only [State.enPermitted, State.grp] at hs ⊢
    rw [hd.stage, hd.safeHold, hd.safeA, hd.safeB, hd.clock, hlock, hlink, hpar]
    exact hs
  fuses h := by
    refine ⟨fun i _ => by rw [hn.fuses], ?_⟩
    unfold State.FusesFresh
    rw [hd.fuseSeq, hn.fuses]
    exact h
  flash := hm
  life := hn.lc
  lifeWord := hn.lcWord
  sameFuses := hn.fuses
  stage := hd.stage

/-! ### Updates of a state -/

section
variable {s0 s : State}

/-- An update part by part. -/
theorem State.Calm.updParts {d n tb ax co l ad g pi ta q hp sb mp} (h : s0.Calm s) (hd : s.dev.Calm d) (hn : s.nvm.Calm n) (hl : LegsCalm s.legs l)
    (hg : GroupsCalm s.groups g) (hq : s.q.Calm q) (hm : s.mp.Calm mp) : s0.Calm ⟨s.pending, d, n, tb, ax, co, l, ad, g, pi, ta, q, hp, sb, mp⟩ :=
  h.trans (calm_of_parts rfl hd hn hl hg hq hm)

theorem State.Calm.updDev {d tb ax co ad pi ta hp sb} (h : s0.Calm s) (hd : s.dev.Calm d) :
    s0.Calm ⟨s.pending, d, s.nvm, tb, ax, co, s.legs, ad, s.groups, pi, ta, s.q, hp, sb, s.mp⟩ :=
  h.updParts hd (.refl _) (.refl _) (.refl _) id id

theorem State.Calm.updNvm {n tb ax co ad pi ta hp sb} (h : s0.Calm s) (hn : s.nvm.Calm n) :
    s0.Calm ⟨s.pending, s.dev, n, tb, ax, co, s.legs, ad, s.groups, pi, ta, s.q, hp, sb, s.mp⟩ :=
  h.updParts (.refl _) hn (.refl _) (.refl _) id id

theorem State.Calm.updLegs {tb ax co l ad pi ta hp sb} (h : s0.Calm s) (hl : LegsCalm s.legs l) :
    s0.Calm ⟨s.pending, s.dev, s.nvm, tb, ax, co, l, ad, s.groups, pi, ta, s.q, hp, sb, s.mp⟩ :=
  h.updParts (.refl _) (.refl _) hl (.refl _) id id

theorem State.Calm.updGroups {tb ax co ad g pi ta hp sb} (h : s0.Calm s) (hg : GroupsCalm s.groups g) :
    s0.Calm ⟨s.pending, s.dev, s.nvm, tb, ax, co, s.legs, ad, g, pi, ta, s.q, hp, sb, s.mp⟩ :=
  h.updParts (.refl _) (.refl _) (.refl _) hg id id

theorem State.Calm.updQueues {tb ax co ad pi ta q hp sb} (h : s0.Calm s) (hq : s.q.Calm q) :
    s0.Calm ⟨s.pending, s.dev, s.nvm, tb, ax, co, s.legs, ad, s.groups, pi, ta, q, hp, sb, s.mp⟩ :=
  h.updParts (.refl _) (.refl _) (.refl _) (.refl _) hq id

theorem State.Calm.updPort {tb ax co ad pi ta hp sb mp} (h : s0.Calm s) (hm : s.mp.Calm mp) :
    s0.Calm ⟨s.pending, s.dev, s.nvm, tb, ax, co, s.legs, ad, s.groups, pi, ta, s.q, hp, sb, mp⟩ :=
  h.updParts (.refl _) (.refl _) (.refl _) (.refl _) id hm

/-- All that a calm update has to keep. -/
abbrev coreOf (d : Device) (n : Nvm) (l : Vector Leg 192) (g : Vector Group 12) (q : Queues) (m : MemPort) :=
  (d.stage, d.ready, d.safeHold, d.safeA, d.safeB, d.gfault.getLsbD 0, d.fuseSeq, n.lc, n.lcWord, n.fuses, l, g, q.actions, q.nextAct, m.flash)

/-- An update of a record that touches nothing of the parts on which the rest depends. -/
theorem State.Calm.upd {d n tb ax co l ad g pi ta q hp sb mp} (h : s0.Calm s)
    (e : coreOf d n l g q mp = coreOf s.dev s.nvm s.legs s.groups s.q s.mp) :
    s0.Calm ⟨s.pending, d, n, tb, ax, co, l, ad, g, pi, ta, q, hp, sb, mp⟩ := by
  simp only [coreOf, Prod.mk.injEq] at e
  obtain ⟨e1, e2, e3, e4, e5, e6, e7, e8, e9, e10, rfl, rfl, e11, e12, e13⟩ := e
  exact h.updParts ⟨e1, e2, e3, e4, e5, e6, e7⟩ ⟨e8, e9, e10⟩ (.refl _) (.refl _) (Queues.calm_of_same e11 e12) (MemPort.calm_of_same e13)

theorem State.Calm.ite {c : Prop} [Decidable c] {a b : State} (ha : c → s0.Calm a) (hb : ¬c → s0.Calm b) : s0.Calm (if c then a else b) := by
  split
  · exact ha ‹_›
  · exact hb ‹_›

theorem State.Calm.forAll {α : Type} {l : List α} {f : State → α → State} (h : s0.Calm s) (hf : ∀ t a, s0.Calm t → s0.Calm (f t a)) :
    s0.Calm (s.forAll l f) := by
  unfold State.forAll
  induction l generalizing s with
  | nil => exact h
  | cons a l ih => exact ih (hf s a h)

theorem State.Calm.modAxis {n f} (h : s0.Calm s) : s0.Calm (s.modAxis n f) := h.upd (by rfl)
theorem State.Calm.modCfg {n f} (h : s0.Calm s) : s0.Calm (s.modCfg n f) := h.upd (by rfl)
theorem State.Calm.modMot {n f} (h : s0.Calm s) : s0.Calm (s.modMot n f) := h.upd (by rfl)
theorem State.Calm.modDrv {n f} (h : s0.Calm s) : s0.Calm (s.modDrv n f) := h.upd (by rfl)
theorem State.Calm.modEnc {n f} (h : s0.Calm s) : s0.Calm (s.modEnc n f) := h.upd (by rfl)
theorem State.Calm.modObs {n f} (h : s0.Calm s) : s0.Calm (s.modObs n f) := h.upd (by rfl)
theorem State.Calm.modProt {n f} (h : s0.Calm s) : s0.Calm (s.modProt n f) := h.upd (by rfl)
theorem State.Calm.modCoil {n f} (h : s0.Calm s) : s0.Calm (s.modCoil n f) := h.upd (by rfl)
theorem State.Calm.modAdc {n f} (h : s0.Calm s) : s0.Calm (s.modAdc n f) := h.upd (by rfl)
theorem State.Calm.modPin {n f} (h : s0.Calm s) : s0.Calm (s.modPin n f) := h.upd (by rfl)
theorem State.Calm.modTable {n f} (h : s0.Calm s) : s0.Calm (s.modTable n f) := h.upd (by rfl)

theorem State.Calm.modLeg {m f} (h : s0.Calm s) (hf : ∀ l : Leg, (f l).en = true → l.en = true) : s0.Calm (s.modLeg m f) := by
  refine h.updLegs (fun k hk => ?_)
  by_cases hkm : k = m
  · rw [hkm] at hk ⊢
    rw [upd_self] at hk
    exact hf _ hk
  · rwa [upd_other _ _ _ _ hkm] at hk

theorem State.Calm.modGroup {g f} (h : s0.Calm s) (hf : ∀ x : Group, x.Calm (f x)) : s0.Calm (s.modGroup g f) := by
  refine h.updGroups (fun k => ?_)
  by_cases hkg : k = g
  · rw [hkg, upd_self]
    exact hf _
  · rw [upd_other _ _ _ _ hkg]
    exact ⟨rfl, rfl, rfl⟩

/-! ### Faults, completions and actions -/

theorem State.Calm.shale {a b c d} (h : s0.Calm s) : s0.Calm (s.shale a b c d) := .ite (fun _ => h.upd (by rfl)) fun _ => h.upd (by rfl)
theorem State.Calm.shaleAxis {n i} (h : s0.Calm s) : s0.Calm (s.shaleAxis n i) := h.shale
theorem State.Calm.noteFault (h : s0.Calm s) : s0.Calm s.noteFault := h.upd (by rfl)
theorem State.Calm.alert {i} (h : s0.Calm s) : s0.Calm (s.alert i) := h.upd (by rfl)
theorem State.Calm.freeVal (h : s0.Calm s) : s0.Calm s.freeVal.2 := h.upd (by rfl)

/-- Every GFAULT bit but that of the clock leaves EN as it was. -/
theorem State.Calm.gfaultSet {i} (h : s0.Calm s) (hi : (BitVec.ofNat 8 (2 ^ i)).getLsbD 0 = false) : s0.Calm (s.gfaultSet i) := by
  refine State.Calm.shale (State.Calm.noteFault (h.updDev ⟨rfl, rfl, rfl, rfl, rfl, ?_, rfl⟩))
  rw [BitVec.getLsbD_or, hi, Bool.or_false]

theorem State.Calm.grpFaultSet {g b c} (h : s0.Calm s) : s0.Calm (s.grpFaultSet g b c) := (h.modGroup fun _ => by exact ⟨rfl, rfl, rfl⟩).noteFault.shale
theorem State.Calm.pushEntry {c} (h : s0.Calm s) : s0.Calm (s.pushEntry c) := .ite (fun _ => h) fun _ => .ite (fun _ => h.upd (by rfl)) fun _ => h.upd (by rfl)
theorem State.Calm.sbResult {r} (h : s0.Calm s) : s0.Calm (s.sbResult r) := h.upd (by rfl)

theorem State.Calm.complete {ref st fl ax mp w} (h : s0.Calm s) : s0.Calm (s.complete ref st fl ax mp w) := by
  cases ref with
  | host tag q => exact h.pushEntry
  | sideband => exact h.sbResult
  | internal => exact h

/-- A new action has the next number. -/
theorem State.Calm.addAction {ref ax k w} (h : s0.Calm s) : s0.Calm (s.addAction ref ax k w) := by
  refine h.updQueues (fun hs a ha => ?_)
  rcases List.mem_append.1 ha with hold | hnew
  · exact Nat.lt_succ_of_lt (hs a hold)
  · rw [List.mem_singleton.1 hnew]
    exact Nat.lt_succ_self _

theorem Queues.calm_filter (q : Queues) (f : Action → Bool) : q.Calm { q with actions := q.actions.filter f } :=
  fun h a ha => h a (List.mem_filter.1 ha).1

theorem Queues.calm_map (q : Queues) (f : Action → Action) (hf : ∀ a, (f a).id = a.id) : q.Calm { q with actions := q.actions.map f } := by
  intro h a ha
  obtain ⟨b, hb, rfl⟩ := List.mem_map.1 ha
  exact (hf b).symm ▸ h b hb

theorem State.Calm.finishAction {a} (h : s0.Calm s) : s0.Calm (s.finishAction a) := by
  have h1 : s0.Calm { s with q := { s.q with actions := s.q.actions.filter fun b => b.id ≠ a.id } } := h.updQueues (s.q.calm_filter _)
  unfold State.finishAction
  cases a.ref with
  | host tag q => exact h1.complete
  | sideband => exact .ite (fun _ => h1.sbResult.alert) fun _ => h1
  | internal => exact h1.complete

theorem State.Calm.actionAxis {id o k b} (h : s0.Calm s) : s0.Calm (s.actionAxis id o k b) := by
  unfold State.actionAxis
  split
  · exact h
  next a ha =>
    have hid : a.id = id := by simpa using List.find?_some ha
    refine .ite (fun _ => ?_) fun _ => h
    have h1 : ∀ a' : Action, a'.id = id → s0.Calm { s with q := { s.q with actions := s.q.actions.map fun b => if b.id = id then a' else b } } :=
      fun a' ha' => h.updQueues (s.q.calm_map _ fun b => by split <;> simp_all)
    exact .ite (fun _ => .finishAction (h1 _ (by exact hid))) fun _ => h1 _ (by exact hid)

theorem State.Calm.endActs {n ks st w k} (h : s0.Calm s) : s0.Calm (s.endActs n ks st w k) := h.forAll fun _ _ h => h.actionAxis

/-! ### Streams -/

theorem State.Calm.freeTags {st n} (h : s0.Calm s) : s0.Calm (s.freeTags st n) := h.upd (by rfl)

theorem State.Calm.endStream (h : s0.Calm s) : s0.Calm s.endStream := by
  unfold State.endStream
  split
  · exact h
  · exact (State.Calm.forAll (h.upd (by rfl)) fun _ _ h => h.complete).complete.freeTags

theorem State.Calm.endStreamOn {l} (h : s0.Calm s) : s0.Calm (s.endStreamOn l) := by
  unfold State.endStreamOn
  split
  · exact h
  · exact .ite (fun _ => h.endStream) fun _ => h

end

end Sys2Proof.Machine
end

section
/-! SUPPORT. Segments, stops, the governor, set-points, starts and the drive of an axis keep what no step breaks (03_motion_segments.md,
05_current_control.md, 17_power_thermal.md). -/
namespace Sys2Proof.Machine
open Sys2Proof

section
variable {s0 s : State}

/-! ### Segments, their ends and stops -/

theorem State.Calm.reeval {n} (h : s0.Calm s) : s0.Calm (s.reeval n) := .ite (fun _ => h) fun _ => h.modMot
theorem State.Calm.memberEnds {n i t e} (h : s0.Calm s) : s0.Calm (s.memberEnds n i t e) := .ite (fun _ => h) fun _ => h.upd (by rfl)
theorem State.Calm.memberTail {n i t} (h : s0.Calm s) : s0.Calm (s.memberTail n i t) := .ite (fun _ => h) fun _ => h.upd (by rfl)
theorem State.Calm.reap (h : s0.Calm s) : s0.Calm s.reap := h.upd (by rfl)
theorem State.Calm.closeBatch {i} (h : s0.Calm s) : s0.Calm (s.closeBatch i) := State.Calm.reap (h.upd (by rfl))

theorem State.Calm.completeSeg {n g st mp w d t e} (h : s0.Calm s) : s0.Calm (s.completeSeg n g st mp w d t e) := h.memberEnds.complete.reap

theorem State.Calm.flushQueue {n st} (h : s0.Calm s) : s0.Calm (s.flushQueue n st) := h.modMot.forAll fun _ _ h => h.completeSeg
theorem State.Calm.endFirst {n r l} (h : s0.Calm s) : s0.Calm (s.endFirst n r l) := h.modMot.completeSeg
theorem State.Calm.endSecond {n r r2} (h : s0.Calm s) : s0.Calm (s.endSecond n r r2) := h.modMot.completeSeg
theorem State.Calm.endBoth {n r r2} (h : s0.Calm s) : s0.Calm (s.endBoth n r r2) := h.endFirst.endFirst.upd (by rfl)

theorem State.Calm.countDisable {n k} (h : s0.Calm s) : s0.Calm (s.countDisable n k) :=
  h.updQueues (s.q.calm_map _ fun a => by split <;> rfl)

theorem State.Calm.stopsDone {n k} (h : s0.Calm s) : s0.Calm (s.stopsDone n k) := h.forAll fun _ _ h => h.actionAxis
theorem State.Calm.completeRuns {n l b st w} (h : s0.Calm s) : s0.Calm (s.completeRuns n l b st w) := h.forAll fun _ _ h => h.completeSeg

theorem State.Calm.endStop {n t} (h : s0.Calm s) : s0.Calm (s.endStop n t) := by
  unfold State.endStop
  extract_lets a away e d fin s1 s2 bad cnt s3
  have h1 : s0.Calm s1 := h.modMot
  have h2 : s0.Calm s2 := h1.forAll fun _ _ h => h.completeSeg
  exact (State.Calm.countDisable (.ite (fun _ => h2.flushQueue) fun _ => h2)).forAll fun _ _ h => h.actionAxis

theorem State.Calm.endDone {n} (h : s0.Calm s) : s0.Calm (s.endDone n) := by
  refine .ite (fun _ => h) fun _ => ?_
  split
  · exact .ite (fun _ => h.endStop) fun _ => h
  · split
    · exact h
    · exact .ite (fun _ => h.endFirst) fun _ => h
    · split
      · exact h.endBoth
      · exact h.endFirst
      · exact h.endSecond
      · exact h

theorem State.Calm.stopHold {n r st w} (h : s0.Calm s) : s0.Calm (s.stopHold n r st w) :=
  .ite (fun _ => h.modMot.completeSeg.flushQueue) fun _ => h.modMot.completeSeg

theorem State.Calm.stopAxis {n q st act rate} (h : s0.Calm s) : s0.Calm (s.stopAxis n q st act rate) := by
  have h1 : s0.Calm (s.endDone n) := h.endDone
  unfold State.stopAxis
  simp only []
  split
  · exact .ite (fun _ => h1.modMot) fun _ => h1
  · split
    · exact h1
    · split
      · exact h1.stopHold
      · exact h1.modMot
    · exact h1.modMot

theorem State.Calm.dropAll {n st w} (h : s0.Calm s) : s0.Calm (s.dropAll n st w) := h.modMot.completeRuns.flushQueue.countDisable.stopsDone

theorem State.Calm.endHeld {n st w} (h : s0.Calm s) : s0.Calm (s.endHeld n st w) :=
  (State.Calm.ite (fun _ => h.modMot.completeRuns.flushQueue) fun _ => h.modMot.completeRuns).countDisable.stopsDone

theorem State.Calm.doStop {n q fl act} (h : s0.Calm s) : s0.Calm (s.doStop n q fl act) := by
  have hfl : ∀ t : State, s0.Calm t → s0.Calm (if fl then t.flushQueue n .flushed else t) :=
    fun _ h => .ite (fun _ => h.flushQueue) fun _ => h
  have h1 : s0.Calm ((s.reeval n).endDone n) := h.reeval.endDone
  refine .ite (fun _ => (hfl _ h1.endHeld).actionAxis) fun _ => ?_
  exact .ite (fun _ => (hfl _ h1.stopAxis).modMot.actionAxis) fun _ => (hfl _ h1.stopAxis).modMot

/-! ### The governor and the set-points -/

theorem State.Calm.govGroup {g} (h : s0.Calm s) : s0.Calm (s.govGroup g) := .ite (fun _ => (h.modGroup fun _ => by exact ⟨rfl, rfl, rfl⟩).shale) fun _ => h.modGroup fun _ => by exact ⟨rfl, rfl, rfl⟩
theorem State.Calm.govAxis {n} (h : s0.Calm s) : s0.Calm (s.govAxis n) := h.upd (by rfl)

theorem State.Calm.admitHead {n} (h : s0.Calm s) : s0.Calm (s.admitHead n).2 := by
  unfold State.admitHead
  simp only []
  split
  · exact h.upd (by rfl)
  · exact h.upd (by rfl)

theorem State.Calm.selectAmp {n} (h : s0.Calm s) : s0.Calm (s.selectAmp n) := .ite (fun _ => h.modDrv.modMot) fun _ => h.modDrv.modMot
theorem State.Calm.angle {n th amp} (h : s0.Calm s) : s0.Calm (s.angle n th amp) := h.upd (by rfl)
theorem State.Calm.setCoils {n} (h : s0.Calm s) : s0.Calm (s.setCoils n) :=
  .ite (fun _ => h.modDrv) fun _ => .ite (fun _ => h.modEnc.angle) fun _ => h.angle
theorem State.Calm.refresh {n} (h : s0.Calm s) : s0.Calm (s.refresh n) := h.reeval.selectAmp.setCoils

/-! ### HOME and the start of segments -/

theorem State.Calm.newHead {n l} (h : s0.Calm s) : s0.Calm (s.newHead n l) := .ite (fun _ => h.modDrv) fun _ => h
theorem State.Calm.endHome {n r st w} (h : s0.Calm s) : s0.Calm (s.endHome n r st w) := h.modMot.completeSeg.flushQueue

theorem State.Calm.homeLeg {n r o d v ms g f} (h : s0.Calm s) : s0.Calm (s.homeLeg n r o d v ms g f) := by
  unfold State.homeLeg
  simp only []
  split
  · exact h.endHome
  · exact .ite (fun _ => h.modMot.newHead) fun _ => h.endHome

theorem State.Calm.homeDecel {n r o g} (h : s0.Calm s) : s0.Calm (s.homeDecel n r o g) := h.upd (by rfl)
theorem State.Calm.homeBackMove {n r o p} (h : s0.Calm s) : s0.Calm (s.homeBackMove n r o p) := h.upd (by rfl)
theorem State.Calm.homeSet {n r o} (h : s0.Calm s) : s0.Calm (s.homeSet n r o) := h.modMot.completeSeg

theorem State.Calm.homeAdvance {n} (h : s0.Calm s) : s0.Calm (s.homeAdvance n) := by
  unfold State.homeAdvance
  simp only []
  split
  · split
    · exact h
    · refine .ite (fun _ => h) fun _ => ?_
      split
      · exact .ite (fun _ => h.modMot) fun _ => h
      · exact .ite (fun _ => h.modMot) fun _ => h
      · exact .ite (fun _ => h.homeSet) fun _ => h
      · exact h.homeLeg
      · exact h.homeLeg
      · exact h
  · exact h

theorem State.Calm.withdraw {n i} (h : s0.Calm s) : s0.Calm (s.withdraw n i) := h.upd (by rfl)
theorem State.Calm.popQueue {n} (h : s0.Calm s) : s0.Calm (s.popQueue n) := h.modMot
theorem State.Calm.refusePlan {n g d} (h : s0.Calm s) : s0.Calm (s.refusePlan n g d) := h.popQueue.completeSeg.withdraw.flushQueue

theorem State.Calm.startAt {n g l ms ps vs d} (h : s0.Calm s) : s0.Calm (s.startAt n g l ms ps vs d) := by
  unfold State.startAt
  simp only []
  split
  · exact .ite (fun _ => h.popQueue.modMot.homeLeg) fun _ => h.popQueue.modMot.homeLeg
  · exact .ite (fun _ => .ite (fun _ => h.popQueue.modMot.newHead.memberTail) fun _ => h.popQueue.modMot.newHead) fun _ => h.refusePlan

theorem State.Calm.velocityYields {n} (h : s0.Calm s) : s0.Calm (s.velocityYields n) := h.stopAxis
theorem State.Calm.delayHead {n} (h : s0.Calm s) : s0.Calm (s.delayHead n) := h.modMot
theorem State.Calm.refuseLimit {n g} (h : s0.Calm s) : s0.Calm (s.refuseLimit n g) := h.popQueue.completeSeg

theorem State.Calm.govern {n g} (h : s0.Calm s) : s0.Calm (s.govern n g).2 := by
  unfold State.govern
  split
  · exact h.admitHead
  · exact h

theorem State.Calm.startIdle {n g l hp d r} (h : s0.Calm s) : s0.Calm (s.startIdle n g l hp d r) :=
  .ite (fun _ => h.refuseLimit) fun _ => .ite (fun _ => h.govern.startAt) fun _ => h.govern.delayHead

theorem State.Calm.startTakeover {n g l hp v} (h : s0.Calm s) : s0.Calm (s.startTakeover n g l hp v) := by
  refine .ite (fun _ => .ite (fun _ => h.velocityYields) fun _ => h.govern.delayHead) fun _ => ?_
  refine .ite (fun _ => h.refuseLimit) fun _ => .ite (fun _ => ?_) fun _ => h.govern.delayHead
  exact .ite (fun _ => h.govern.startAt) fun _ => h.govern.startAt.completeSeg

theorem State.Calm.startBlend {n g l hp r} (h : s0.Calm s) : s0.Calm (s.startBlend n g l hp r) :=
  .ite (fun _ => h.refuseLimit) fun _ => .ite (fun _ => h.govern.startAt) fun _ => h.govern.delayHead

theorem State.Calm.tryStart {n} (h : s0.Calm s) : s0.Calm (s.tryStart n) := by
  unfold State.tryStart
  simp only []
  split
  · exact h
  · refine .ite (fun _ => h) fun _ => .ite (fun _ => h) fun _ => ?_
    split
    · exact h
    · split
      · exact .ite (fun _ => h) fun _ => h.startIdle
      · exact .ite (fun _ => h.startTakeover) fun _ => .ite (fun _ => h.startBlend) fun _ => h

theorem State.Calm.reanchor {n} (h : s0.Calm s) : s0.Calm (s.reanchor n) := by
  unfold State.reanchor
  simp only []
  split
  · split
    · exact h
    · refine .ite (fun _ => h) fun _ => .ite (fun _ => .ite (fun _ => h.modMot) fun _ => h.stopAxis) fun _ => ?_
      split
      · exact .ite (fun _ => h) fun _ => h.modMot
      · exact h
  · exact h

theorem State.Calm.markTimeout {n} (h : s0.Calm s) : s0.Calm (s.markTimeout n) := h.modMot
theorem State.Calm.expireQueued {n} (h : s0.Calm s) : s0.Calm (s.expireQueued n) := h.modMot.forAll fun _ _ h => h.completeSeg

theorem State.Calm.deadlines {n} (h : s0.Calm s) : s0.Calm (s.deadlines n) := by
  refine .ite (fun _ => h) fun _ => State.Calm.expireQueued (.ite (fun _ => ?_) fun _ => h.endDone)
  exact .ite (fun _ => h.endDone.stopAxis) fun _ => h.endDone.markTimeout.stopAxis

theorem State.Calm.homeTimeout {n} (h : s0.Calm s) : s0.Calm (s.homeTimeout n) := by
  unfold State.homeTimeout
  simp only []
  split
  · exact .ite (fun _ => h.stopAxis) fun _ => h
  · exact h

/-! ### The drive of an axis -/

theorem State.Calm.legsOff {n} (h : s0.Calm s) : s0.Calm (s.legsOff n) :=
  (h.forAll fun _ _ h => h.modLeg fun l hl => by simp [Leg.turnOff] at hl).modDrv

theorem groupOfLeg_legOf (n : AxisId) (k : Fin 4) : groupOfLeg (legOf n k) = groupOf n := by
  ext
  simp only [groupOfLeg, legOf, groupOf]
  omega

theorem groupOf_leadOf (n : AxisId) : groupOf (leadOf n) = groupOf n := by
  ext
  simp only [groupOf, leadOf]
  omega

theorem groupOf_partnerOf (n : AxisId) : groupOf (partnerOf n) = groupOf n := by
  ext
  simp only [groupOf, partnerOf]
  omega

/-- The legs that an axis drives lie in its own group. -/
theorem groupOfLeg_drivenLegs {s : State} {n : AxisId} {m : LegId} (h : m ∈ s.drivenLegs n) : groupOfLeg m = groupOf n := by
  obtain ⟨k, hk, hm⟩ := List.mem_flatMap.1 h
  obtain ⟨j, -, rfl⟩ := List.mem_map.1 hm
  rw [groupOfLeg_legOf]
  unfold State.driven at hk
  split at hk
  · rcases List.mem_cons.1 hk with rfl | hk
    · exact groupOf_leadOf n
    · rw [List.mem_singleton.1 hk, groupOf_partnerOf]
  · rw [List.mem_singleton.1 hk]

theorem enPermitted_of_enAllowed {s : State} {n : AxisId} (h : s.enAllowed n = true) (hrun : s.dev.stage = .running) :
    s.enPermitted (groupOf n) := by
  simp only [State.enAllowed, Bool.and_eq_true, Bool.not_eq_true', decide_eq_true_eq] at h
  obtain ⟨⟨⟨⟨⟨⟨⟨ha, hb⟩, hlock⟩, hlink⟩, hpar⟩, -⟩, hhold⟩, hclk⟩ := h
  exact ⟨ha, hb, hlock, hlink, hpar, hhold, hclk, hrun⟩

/-- EN may rise on a leg whose group permits it. -/
theorem State.Calm.modLeg_permitted {m f} (h : s0.Calm s) (hf : s0.EnSafe → (f (s.leg m)).en = true → s.enPermitted (groupOfLeg m)) :
    s0.Calm (s.modLeg m f) := by
  refine ⟨⟨h.pending, h.actions, fun hs => ⟨fun k hk => ?_, (h.en hs).2⟩, h.fuses, h.flash⟩, h.life, h.lifeWord, h.sameFuses, h.stage⟩
  by_cases hkm : k = m
  · rw [hkm, modLeg_leg_self] at hk
    exact hkm ▸ hf hs hk
  · rw [modLeg_leg_other _ _ _ _ hkm] at hk
    exact (h.en hs).1 k hk

end

end Sys2Proof.Machine
end

section
/-! SUPPORT. Energising, the placement of pulses, the current loops, the observer and Quartz keep what no step breaks: EN rises only where
its group permits it (05_current_control.md, 06_pwm_mica.md, 07_quartz_calibration.md, 08_stall.md). -/
namespace Sys2Proof.Machine
open Sys2Proof

section
variable {s0 s : State}

/-! ### Energising and turning off -/

/-- Effects on legs alone, each of which raises EN only where the state before them permits it. -/
theorem State.Calm.forAll_permitted {α : Type} {l : List α} {leg : α → LegId} {f : α → Leg → Leg} (h : s0.Calm s)
    (hf : s0.EnSafe → ∀ a ∈ l, ∀ x : Leg, (f a x).en = true → s.enPermitted (groupOfLeg (leg a))) :
    s0.Calm (s.forAll l fun s a => s.modLeg (leg a) (f a)) := by
  refine (forAll_keeps (fun t => s0.Calm t ∧ ∀ g, t.enPermitted g ↔ s.enPermitted g) l _ ?_ s ⟨h, fun _ => Iff.rfl⟩).1
  intro t a ha ⟨ht, hp⟩
  exact ⟨ht.modLeg_permitted fun hs hen => (hp _).2 (hf hs a ha _ hen), hp⟩

theorem State.Calm.energise {n} (h : s0.Calm s) (hrun : s0.EnSafe → s0.dev.stage = .running) : s0.Calm (s.energise n) := by
  have h1 : s0.Calm (s.forAll (s.drivenLegs n) fun t m => t.modLeg m fun l =>
      { l with en := s.enAllowed n && !l.intlk && !l.intlkHold, enNew := (s.enAllowed n && !l.intlk && !l.intlkHold) && !l.en
               tripped := false }) := by
    refine h.forAll_permitted (leg := id) fun hs m hm l hl => ?_
    simp only [Bool.and_eq_true] at hl
    obtain ⟨⟨hok, -⟩, -⟩ := hl
    rw [id, groupOfLeg_drivenLegs hm]
    exact enPermitted_of_enAllowed hok (h.stage.trans (hrun hs))
  exact ((h1.forAll fun _ _ h => h.modCoil).upd (by rfl))

theorem State.Calm.startObserver {n} (h : s0.Calm s) : s0.Calm (s.startObserver n) := ((h.forAll fun _ _ h => h.modCoil).upd (by rfl))
theorem State.Calm.endEnable {n st w} (h : s0.Calm s) : s0.Calm (s.endEnable n st w) := h.modDrv.endActs

theorem State.Calm.endIdent {n st w} (h : s0.Calm s) : s0.Calm (s.endIdent n st w) := by
  unfold State.endIdent
  split
  · exact h
  · exact h.modProt.complete

theorem State.Calm.ownedAlert {n} (h : s0.Calm s) : s0.Calm (s.ownedAlert n) := .ite (fun _ => h.alert) fun _ => h
theorem State.Calm.dropJogWait {n st w} (h : s0.Calm s) : s0.Calm (s.dropJogWait n st w) := State.Calm.endActs (h.upd (by rfl))

theorem State.Calm.endAll {n st w} (h : s0.Calm s) : s0.Calm (s.endAll n st w) :=
  State.Calm.dropJogWait (State.Calm.upd h.ownedAlert.modProt.modMot.dropAll.endEnable.endIdent.modDrv (by rfl))

theorem State.Calm.setUnsure {n} (h : s0.Calm s) : s0.Calm (s.setUnsure n) := .ite (fun _ => h) fun _ => h.modMot

theorem State.Calm.turnOff {n st w} (h : s0.Calm s) : s0.Calm (s.turnOff n st w) := by
  unfold State.turnOff
  extract_lets s1 s2
  have h2 : s0.Calm s2 := h.endAll.modDrv.endActs
  clear_value s2
  exact h2.upd (by rfl)

theorem State.Calm.finishDisable {n} (h : s0.Calm s) : s0.Calm (s.finishDisable n) :=
  h.legsOff.modDrv.modProt.modMot.endIdent.dropJogWait.endActs
theorem State.Calm.offNow {n} (h : s0.Calm s) : s0.Calm (s.offNow n) :=
  .ite (fun _ => .ite (fun _ => h.finishDisable) fun _ => h.legsOff) fun _ => h
theorem State.Calm.disableBrake {n} (h : s0.Calm s) : s0.Calm (s.disableBrake n) := .ite (fun _ => h.modDrv) fun _ => h
theorem State.Calm.disableStep {n} (h : s0.Calm s) : s0.Calm (s.disableStep n) := .ite (fun _ => h.finishDisable) fun _ => h
theorem State.Calm.enableReady {n} (h : s0.Calm s) : s0.Calm (s.enableReady n) := .ite (fun _ => h.endEnable) fun _ => h
theorem State.Calm.enableNow {n} (h : s0.Calm s) (hrun : s0.EnSafe → s0.dev.stage = .running) : s0.Calm (s.enableNow n) :=
  (h.energise hrun).startObserver.modDrv.modMot.enableReady
theorem State.Calm.brakeElapsed {n} (h : s0.Calm s) : s0.Calm (s.brakeElapsed n) :=
  .ite (fun _ => h) fun _ => .ite (fun _ => h.modDrv) fun _ => h.modDrv.enableReady
theorem State.Calm.boostExpired {n} (h : s0.Calm s) : s0.Calm (s.boostExpired n) := .ite (fun _ => h.modDrv) fun _ => h
theorem State.Calm.shareError {n} (h : s0.Calm s) : s0.Calm (s.shareError n) := .ite (fun _ => h.turnOff.modProt.shaleAxis) fun _ => h

/-! ### Pulses -/

theorem groupOfLeg_legAt (g : GroupId) (m : Fin 16) : groupOfLeg (legAt g m) = g := by
  ext
  simp only [groupOfLeg, legAt]
  omega

theorem State.Calm.hostEnables {g} (h : s0.Calm s) (hrun : s0.EnSafe → s0.dev.stage = .running) : s0.Calm (s.hostEnables g) := by
  refine h.forAll_permitted (leg := legAt g) fun hs m _ l hl => ?_
  simp only [Bool.and_eq_true, Bool.not_eq_true', decide_eq_true_eq] at hl
  obtain ⟨⟨⟨⟨⟨⟨⟨ha, hb⟩, hlock⟩, hlink⟩, hpar⟩, hhold⟩, hclk⟩, -⟩ := hl
  rw [groupOfLeg_legAt]
  exact ⟨ha, hb, hlock, hlink, hpar, hhold, hclk, h.stage.trans (hrun hs)⟩

theorem State.Calm.takeHostedge {g} (h : s0.Calm s) : s0.Calm (s.takeHostedge g) := by
  unfold State.takeHostedge
  extract_lets x s1 s2
  have h1 : s0.Calm s1 := h.modGroup fun _ => by exact ⟨rfl, rfl, rfl⟩
  have h2 : s0.Calm s2 := h1.forAll fun _ _ h => h.modCoil
  exact .ite (fun _ => h1) fun _ => .ite (fun _ => h2.forAll fun _ _ h => h.modLeg fun _ => by exact id) fun _ => (h2.modGroup fun _ => by exact ⟨rfl, rfl, rfl⟩).forAll fun _ _ h => h.modLeg fun _ hl => nomatch hl

@[simp] theorem Leg.transfer_en (l : Leg) (b : Bool) : (l.transfer b).en = l.en := by
  unfold Leg.transfer
  split_ifs <;> rfl

@[simp] theorem Leg.enter_en (l : Leg) (old sl tm tail : Nat) (c b : Bool) (o : Option Bool) : (l.enter old sl tm tail c b o).1.en = l.en := by
  unfold Leg.enter
  cases o with
  | none => exact l.transfer_en b
  | some _ => exact l.transfer_en b

theorem State.Calm.enterFrame {old g} (h : s0.Calm s) (hrun : s0.EnSafe → s0.dev.stage = .running) : s0.Calm (s.enterFrame old g) := by
  unfold State.enterFrame
  extract_lets tails t x tm s1 s2
  have ht : s0.Calm t := h.takeHostedge
  have h1 : s0.Calm s1 := ht.forAll fun _ _ h => .ite (fun _ => h.modCoil) fun _ => h
  have h2 : s0.Calm s2 := h1.forAll fun u m hu => by
    have h3 : s0.Calm (u.modLeg (legAt g m) fun _ =>
        ((u.leg (legAt g m)).enter old u.sl tm (tails.getD m.val 0) x.fineLost x.hostDriven (x.directHold m.val)).1) := by
      refine hu.trans (calm_of_parts rfl ⟨rfl, rfl, rfl, rfl, rfl, rfl, rfl⟩ ⟨rfl, rfl, rfl⟩ (fun k hk => ?_) (fun _ => ⟨rfl, rfl, rfl⟩) id id)
      by_cases hkm : k = legAt g m
      · rw [hkm] at hk ⊢
        exact (Leg.enter_en ..).symm.trans ((congrArg Leg.en (upd_self ..)).symm.trans hk)
      · exact (congrArg Leg.en (upd_other _ _ _ _ hkm)).symm.trans hk
    exact .ite (fun _ => h3.modGroup fun _ => by exact ⟨rfl, rfl, rfl⟩) fun _ => h3
  exact .ite (fun _ => h2.hostEnables hrun) fun _ => h2

theorem State.Calm.commitPlan {g p} (h : s0.Calm s) : s0.Calm (s.commitPlan g p) := by
  unfold State.commitPlan
  extract_lets l fine s1 s2 s3 lost s4
  have h1 : s0.Calm s1 := h.forAll fun _ _ h => h.modLeg fun _ => by exact id
  have h2 : s0.Calm s2 := h1.forAll fun _ _ h => h.modCoil
  have h3 : s0.Calm s3 := h2.forAll fun _ _ h => State.Calm.forAll h.modCoil fun _ _ h => h.modLeg fun _ => by exact id
  have h4 : s0.Calm s4 := h3.modGroup fun _ => by exact ⟨rfl, rfl, rfl⟩
  exact h4.forAll fun _ _ h => h.modAdc

theorem State.Calm.micaGroup {vm g} (h : s0.Calm s) : s0.Calm (s.micaGroup vm g) :=
  .ite (fun _ => h.forAll fun _ _ h => h.modAdc) fun _ => h.commitPlan

theorem State.Calm.missedCommit {g} (h : s0.Calm s) : s0.Calm (s.missedCommit g) :=
  .ite (fun _ => h) fun _ => h.forAll fun _ _ h => h.modLeg fun _ => by exact id

/-! ### Samples, the current loops and IDENTIFY_MOTOR -/

@[simp] theorem Leg.liveZero_en (l : Leg) (a : Adc) (raw : BitVec 12) : (l.liveZero a raw).en = l.en := by
  unfold Leg.liveZero
  split
  · rfl
  · split_ifs <;> rfl

theorem State.Calm.liveZeros {t inp x c} (h : s0.Calm s) : s0.Calm (s.liveZeros t inp x c) := by
  have hl : ∀ (u : State) (m : LegId) (a : Adc) (raw : BitVec 12), s0.Calm u → s0.Calm (u.modLeg m fun l => l.liveZero a raw) :=
    fun _ _ _ _ hu => hu.modLeg fun l hen => (l.liveZero_en _ _).symm.trans hen
  exact .ite (fun _ => .ite (fun _ => hl _ _ _ _ (.ite (fun _ => hl _ _ _ _ h) fun _ => h)) fun _ => .ite (fun _ => hl _ _ _ _ h) fun _ => h)
    fun _ => h

theorem State.Calm.sampleAxis {t inp es n} (h : s0.Calm s) : s0.Calm (s.sampleAxis t inp es n) := by
  refine .ite (fun _ => h) fun _ => State.Calm.liveZeros (State.Calm.liveZeros (.ite (fun _ => ?_) fun _ => h.modCoil.modCoil.modDrv))
  exact h.modCoil.modCoil.modDrv.modProt

theorem State.Calm.applied {vm c} (h : s0.Calm s) : s0.Calm (s.applied vm c) := h.upd (by rfl)

theorem State.Calm.loopAxis {vm n} (h : s0.Calm s) : s0.Calm (s.loopAxis vm n) :=
  .ite (fun _ => h) fun _ => .ite (fun _ => ((h.forAll fun _ _ h => h.modCoil).upd (by rfl))) fun _ => h.modCoil.modCoil.modObs.upd (by rfl)

theorem State.Calm.sampleIsLost {c} (h : s0.Calm s) : s0.Calm (s.sampleIsLost c) := .ite (fun _ => h.modCoil.shaleAxis) fun _ => h
theorem State.Calm.rcoilFrame {n} (h : s0.Calm s) : s0.Calm (s.rcoilFrame n) := h.upd (by rfl)

theorem State.Calm.rcoilWindowEnd {n} (h : s0.Calm s) : s0.Calm (s.rcoilWindowEnd n) :=
  .ite (fun _ => h) fun _ => .ite (fun _ => h.modProt) fun _ =>
    .ite (fun _ => h.modProt.modCoil.modCoil.modCfg.modProt) fun _ => h.modProt.modProt.shaleAxis

theorem State.Calm.identFinish {n i vm} (h : s0.Calm s) : s0.Calm (s.identFinish n i vm) :=
  .ite (fun _ => h.modProt.modCfg.modProt.complete) fun _ => h.modProt.complete

theorem State.Calm.identFrame {vm n} (h : s0.Calm s) : s0.Calm (s.identFrame vm n) := by
  unfold State.identFrame
  split
  · exact h
  · exact .ite (fun _ => h.modProt) fun _ => h.identFinish

/-! ### The observer and stall detection -/

theorem State.Calm.learn {n} (h : s0.Calm s) : s0.Calm (s.learn n) := .ite (fun _ => h.modObs) fun _ => h
theorem State.Calm.countStall {n} (h : s0.Calm s) : s0.Calm (s.countStall n) := h.upd (by rfl)
theorem State.Calm.observe {n} (h : s0.Calm s) : s0.Calm (s.observe n) :=
  .ite (fun _ => h) fun _ => .ite (fun _ => h.modObs) fun _ => h.modCoil.modCoil.modObs.modDrv.modObs.learn.countStall
theorem State.Calm.referenceEnd {n} (h : s0.Calm s) : s0.Calm (s.referenceEnd n) :=
  .ite (fun _ => .ite (fun _ => h.modObs.shaleAxis) fun _ => h.modObs) fun _ => h
theorem State.Calm.keLearned {n} (h : s0.Calm s) : s0.Calm (s.keLearned n) := .ite (fun _ => h.modCfg.modObs) fun _ => h

theorem State.Calm.stallReact {n w} (h : s0.Calm s) : s0.Calm (s.stallReact n w) := by
  unfold State.stallReact
  extract_lets stopping
  split
  · exact .ite (fun _ => h) fun _ => State.Calm.upd h.ownedAlert.modMot (by rfl)
  · exact State.Calm.turnOff (.ite (fun _ => h.modMot) fun _ => h)
  · exact h

theorem State.Calm.declareStall {n} (h : s0.Calm s) : s0.Calm (s.declareStall n) := by
  refine .ite (fun _ => State.Calm.stallReact ?_) fun _ => h
  exact .ite (fun _ => .modMot (.ite (fun _ => h.modObs.shaleAxis) fun _ => h.modObs)) fun _ =>
    .setUnsure (.ite (fun _ => h.modObs.shaleAxis) fun _ => h.modObs)

theorem State.Calm.stallStop {n} (h : s0.Calm s) : s0.Calm (s.stallStop n) := by
  unfold State.stallStop
  extract_lets w t s1
  have h1 : s0.Calm s1 := .ite (fun _ => h.endDone) fun _ => h.endDone.stopAxis
  exact .ite (fun _ => h1.flushQueue) fun _ => h1

/-! ### Quartz -/

theorem State.Calm.loadTrims (h : s0.Calm s) : s0.Calm s.loadTrims := by
  refine h.updParts (.refl _) (.refl _) (fun m hm => ?_) (fun g => ?_) id id
  · simpa using hm
  · rw [Vector.getElem_ofFn]
    exact ⟨rfl, rfl, rfl⟩

theorem State.Calm.gainTargets {g} (h : s0.Calm s) : s0.Calm (s.gainTargets g) :=
  (h.forAll fun _ _ h => h.modLeg fun _ => by exact id).forAll fun _ _ h => h.modAdc

theorem State.Calm.refine {g i} (h : s0.Calm s) : s0.Calm (s.refine g i) := .ite (fun _ => h) fun _ => h.forAll fun _ _ h => h.modLeg fun _ => by exact id

theorem State.Calm.delayLine {g c} (h : s0.Calm s) : s0.Calm (s.delayLine g c) := by
  refine .ite (fun _ => h) fun _ => .ite (fun _ => ?_) fun _ => ?_
  · exact .ite (fun _ => (h.gainTargets.modGroup fun _ => by exact ⟨rfl, rfl, rfl⟩).refine.shale) fun _ => h.gainTargets.modGroup fun _ => by exact ⟨rfl, rfl, rfl⟩
  · exact .ite (fun _ => h.gainTargets.modGroup fun _ => by exact ⟨rfl, rfl, rfl⟩) fun _ => (h.gainTargets.modGroup fun _ => by exact ⟨rfl, rfl, rfl⟩).refine.shale

theorem State.Calm.noteRange {a} (h : s0.Calm s) : s0.Calm (s.noteRange a) := .ite (fun _ => h.modAdc.shale) fun _ => h.modAdc

theorem State.Calm.convert {a z raw} (h : s0.Calm s) : s0.Calm (s.convert a z raw) := by
  unfold State.convert
  extract_lets x r span zero z s1
  have h1 : s0.Calm s1 := by
    unfold s1
    split
    · exact h.modAdc
    · exact h.modAdc
    · exact h.modAdc
    · split
      · exact h.modAdc
      · exact (h.modLeg fun _ => by exact id).modAdc
  exact h1.modAdc

theorem State.Calm.calibrate {t inp a} (h : s0.Calm s) : s0.Calm (s.calibrate t inp a) := .ite (fun _ => h.convert) fun _ => h

@[simp] theorem Leg.stepTerms_en (l : Leg) (p : Nat) (b : Bool) : (l.stepTerms p b).en = l.en := rfl

theorem State.Calm.stepGroup {f g} (h : s0.Calm s) : s0.Calm (s.stepGroup f g) :=
  .ite (fun _ => h.modGroup fun _ => by exact ⟨rfl, rfl, rfl⟩) fun _ => ((h.modGroup fun _ => by exact ⟨rfl, rfl, rfl⟩).forAll fun _ _ h => h.modAdc).forAll fun _ _ h => h.modLeg fun _ => by exact id

theorem State.Calm.forceSlot {a} (h : s0.Calm s) : s0.Calm (s.forceSlot a) := by
  unfold State.forceSlot
  extract_lets x
  refine .ite (fun _ => h) fun _ => ?_
  split
  · exact h.modAdc
  · exact .ite (fun _ => h.modAdc.modMot.shale) fun _ => h.modAdc.modMot

theorem State.Calm.enterSlots {a} (h : s0.Calm s) : s0.Calm (s.enterSlots a) := h.modAdc

theorem State.Calm.clearRings (h : s0.Calm s) : s0.Calm s.clearRings := by
  refine h.updLegs (fun m hm => ?_)
  simpa using hm

end

end Sys2Proof.Machine
end

section
/-! SUPPORT. Pins, trips, retries, DIAGNOSE, lock-outs, shutdowns, link failures and safe-off keep what no step breaks: where EN may no
longer be high, it goes low (04_axio_homing.md, 09_power_stage.md, 17_power_thermal.md). -/
namespace Sys2Proof.Machine
open Sys2Proof

section
variable {s0 s : State}

/-! ### Pins and their axes -/

theorem State.Calm.limitEdge {n p d} (h : s0.Calm s) : s0.Calm (s.limitEdge n p d) := by
  refine .ite (fun _ => h) fun _ => .ite (fun _ => ?_) fun _ => .ite (fun _ => h.ownedAlert.stopAxis) fun _ => h
  exact .ite (fun _ => h) fun _ => .ite (fun _ => h.ownedAlert.endHeld) fun _ => h.ownedAlert.stopAxis

theorem State.Calm.bidirLimit {n} (h : s0.Calm s) : s0.Calm (s.bidirLimit n) := .ite (fun _ => h.ownedAlert.stopAxis) fun _ => h

theorem State.Calm.homeEdgeHeld {n r o b p m} (h : s0.Calm s) : s0.Calm (s.homeEdgeHeld n r o b p m) := by
  unfold State.homeEdgeHeld
  extract_lets a first still
  split
  · exact h.modMot
  · exact h.upd (by rfl)
  · exact h.modMot
  · exact h

theorem State.Calm.homeEdge {n b p} (h : s0.Calm s) : s0.Calm (s.homeEdge n b p) := by
  unfold State.homeEdge
  extract_lets a
  split
  · split
    · exact h
    · split
      · exact h.homeEdgeHeld
      · split
        · exact h.homeDecel
        · exact h.homeBackMove
        · exact h.modMot.homeDecel
        · exact h
  · exact h

theorem State.Calm.homeChatter {n p} (h : s0.Calm s) : s0.Calm (s.homeChatter n p) := by
  unfold State.homeChatter
  split
  · exact h
  · split
    · exact h
    · exact .ite (fun _ => h.endHeld) fun _ => h.stopAxis

theorem State.Calm.startJog {n d} (h : s0.Calm s) : s0.Calm (s.startJog n d) := h.upd (by rfl)

theorem State.Calm.jogStep {n} (h : s0.Calm s) : s0.Calm (s.jogStep n) := by
  refine .ite (fun _ => ?_) fun _ => h
  split
  · exact .ite (fun _ => h.startJog) fun _ => h
  · exact .ite (fun _ => h.startJog) fun _ => h
  · exact h

theorem State.Calm.stopFlush {n} (h : s0.Calm s) : s0.Calm (s.stopFlush n) :=
  (State.Calm.ite (fun _ => h.endDone.endHeld) fun _ => h.endDone.stopAxis).flushQueue.endStreamOn

theorem State.Calm.jogEdge {n b} (h : s0.Calm s) : s0.Calm (s.jogEdge n b) := by
  unfold State.jogEdge
  extract_lets x up dn blocked s1
  have h1 : s0.Calm s1 := h.modMot
  split
  · exact h1
  · exact .ite (fun _ => h1.modProt.stopFlush.jogStep) fun _ => h1
  · split
    · exact .ite (fun _ => h1.stopAxis) fun _ => h1
    · exact h1.jogStep

theorem State.Calm.setPlug {n p} (h : s0.Calm s) : s0.Calm (s.setPlug n p) := .ite (fun _ => h) fun _ => h.modProt.shaleAxis
theorem State.Calm.unplug {n w} (h : s0.Calm s) : s0.Calm (s.unplug n w) := h.turnOff.modProt.shaleAxis.setUnsure
theorem State.Calm.plugPinOff {n} (h : s0.Calm s) : s0.Calm (s.plugPinOff n) := .ite (fun _ => h.unplug) fun _ => h.setPlug
theorem State.Calm.encoderEdge {n f b} (h : s0.Calm s) : s0.Calm (s.encoderEdge n f b) := h.upd (by rfl)
theorem State.Calm.capture {a b c d} (h : s0.Calm s) : s0.Calm (s.capture a b c d) := h.upd (by rfl)
theorem State.Calm.axioTransition {p l t} (h : s0.Calm s) : s0.Calm (s.axioTransition p l t) :=
  .ite (fun _ => h) fun _ => .ite (fun _ => h.modPin) fun _ => h.modPin
theorem State.Calm.startChatter {p} (h : s0.Calm s) : s0.Calm (s.startChatter p) := State.Calm.shale (State.Calm.upd h.modPin (by rfl))
theorem State.Calm.noteChatter {p b} (h : s0.Calm s) : s0.Calm (s.noteChatter p b) := .ite (fun _ => h.startChatter) fun _ => h

theorem State.Calm.inputChange {p n a b x} (h : s0.Calm s) : s0.Calm (s.inputChange p n a b x) := by
  unfold State.inputChange
  extract_lets p' f s1 s2 s3
  have h1 : s0.Calm s1 := .ite (fun _ => h.homeChatter) fun _ => .ite (fun _ => h.homeEdge) fun _ => h
  have h2 : s0.Calm s2 := .ite (fun _ => h1.limitEdge) fun _ => h1
  have h3 : s0.Calm s3 := .ite (fun _ => h2.jogEdge) fun _ => h2
  exact .ite (fun _ => h3.plugPinOff) fun _ => h3

theorem State.Calm.edgeStep {p l x b} (h : s0.Calm s) : s0.Calm (s.edgeStep p l x b) := by
  unfold State.edgeStep
  extract_lets p' s1 s2
  have h1 : s0.Calm s1 := h.modPin
  refine .ite (fun _ => h1) fun _ => ?_
  split
  · exact h1.noteChatter
  · exact h1.noteChatter.inputChange

theorem State.Calm.waitStep3 {t p e} (h : s0.Calm s) : s0.Calm (s.waitStep3 t p e) := h.upd (by rfl)

theorem State.Calm.axioQualify {p t} (h : s0.Calm s) : s0.Calm (s.axioQualify p t) := by
  unfold State.axioQualify
  extract_lets p' raw edges nine s1
  have h1 : s0.Calm s1 := h.modPin
  refine .ite (fun _ => h) fun _ => .ite (fun _ => h.modPin) fun _ => ?_
  split
  · exact h1.waitStep3
  · exact .ite (fun _ => h1.modPin.noteChatter.encoderEdge) fun _ => .ite (fun _ => h1.modPin.noteChatter.capture) fun _ => h1.waitStep3

theorem State.Calm.chatterEnd {p t} (h : s0.Calm s) : s0.Calm (s.chatterEnd p t) := by
  unfold State.chatterEnd
  extract_lets p' was s1
  have h1 : s0.Calm s1 := h.modPin
  refine .ite (fun _ => ?_) fun _ => h
  split
  · exact h1
  · exact .ite (fun _ => h1.jogEdge.refresh) fun _ => .ite (fun _ => h1.plugPinOff) fun _ => h1

theorem State.Calm.localReturn {n} (h : s0.Calm s) : s0.Calm (s.localReturn n) := .ite (fun _ => h.modProt) fun _ => h

theorem State.Calm.plugProbe {n a b} (h : s0.Calm s) : s0.Calm (s.plugProbe n a b) := by
  have h1 : s0.Calm (State.forAll (s.modProt n fun p => { p with ra := a, rb := b, probe := probeVerdict a b }) (axisLegs n) fun s m =>
      s.modLeg m fun l => { l with testTicks := 0 }) := h.modProt.forAll fun _ _ h => h.modLeg fun _ => by exact id
  exact .ite (fun _ => .ite (fun _ => .setPlug (.ite (fun _ => h1.modCfg) fun _ => h1)) fun _ => .ite (fun _ => h1.modCfg) fun _ => h1) fun _ => h

theorem State.Calm.unplugDetect {n} (h : s0.Calm s) : s0.Calm (s.unplugDetect n) := .ite (fun _ => h.unplug) fun _ => h

theorem State.Calm.encoderSettle {n b} (h : s0.Calm s) : s0.Calm (s.encoderSettle n b) := by
  refine .ite (fun _ => h) fun _ => .ite (fun _ => ?_) fun _ => .ite (fun _ => h.modMot.modEnc) fun _ => h
  refine .ite (fun _ => h) fun _ => .ite (fun _ => h) fun _ => .ite (fun _ => ?_) fun _ => .ite (fun _ => h.turnOff) fun _ => h
  exact .ite (fun _ => h.modMot.modEnc) fun _ => .ite (fun _ => h.modMot.modEnc.endEnable) fun _ => h.modMot.modEnc

theorem State.Calm.encError {n} (h : s0.Calm s) : s0.Calm (s.encError n) := .ite (fun _ => h.modEnc.modMot.shaleAxis) fun _ => h

/-! ### Trips and retries -/

theorem State.Calm.modLegOff {m} (h : s0.Calm s) : s0.Calm (s.modLeg m Leg.turnOff) := h.modLeg fun _ hl => nomatch hl

theorem State.Calm.legTrip {m a b t} (h : s0.Calm s) : s0.Calm (s.legTrip m a b t) := by
  unfold State.legTrip
  extract_lets g n was t0 t1 s1
  have h0 : s0.Calm t0 := .ite (fun _ => h.waitStep3) fun _ => h
  have h1 : s0.Calm t1 := .ite (fun _ => h0) fun _ => h0.waitStep3
  have h2 : s0.Calm s1 := (h1.modGroup fun _ => by exact ⟨rfl, rfl, rfl⟩).modLeg fun _ hl => nomatch hl
  exact .ite (fun _ => h2) fun _ => (h2.forAll fun _ _ h => h.modLegOff).modObs

theorem State.Calm.latch {n} (h : s0.Calm s) : s0.Calm (s.latch n) := h.turnOff.modProt.shaleAxis
theorem State.Calm.retryWait {n} (h : s0.Calm s) : s0.Calm (s.retryWait n) := by
  unfold State.retryWait
  extract_lets s1 
  exact h.reeval.ownedAlert.legsOff.modDrv.modMot.modProt
theorem State.Calm.afterTry {n} (h : s0.Calm s) : s0.Calm (s.afterTry n) := .ite (fun _ => h.latch) fun _ => h.retryWait
theorem State.Calm.failedTry {n m} (h : s0.Calm s) : s0.Calm (s.failedTry n m) := h.modProt.afterTry

theorem State.Calm.involve {cl n} (h : s0.Calm s) : s0.Calm (s.involve cl n) := by
  unfold State.involve
  extract_lets mine
  split
  · exact h
  · exact .ite (fun _ => h) fun _ => h.modProt.afterTry

theorem State.Calm.classifyGroup {g} (h : s0.Calm s) : s0.Calm (s.classifyGroup g) := h.forAll fun _ _ h => h.grpFaultSet
theorem State.Calm.classifyAxis {n} (h : s0.Calm s) : s0.Calm (s.classifyAxis n) := .ite (fun _ => h) fun _ => h.involve

theorem State.Calm.waitEnd {n} (h : s0.Calm s) : s0.Calm (s.waitEnd n) := by
  refine .ite (fun _ => h) fun _ => ?_
  split
  · exact h.modProt
  · exact .ite (fun _ => h.modProt.modProt) fun _ => h.modProt

theorem State.Calm.retryCheckEnd {n a b t} (h : s0.Calm s) : s0.Calm (s.retryCheckEnd n a b t) :=
  .ite (fun _ => h) fun _ => .ite (fun _ => h.waitStep3) fun _ => State.Calm.upd h.modProt (by rfl)

theorem State.Calm.checkFailed {n m} (h : s0.Calm s) : s0.Calm (s.checkFailed n m) := .ite (fun _ => h.failedTry) fun _ => h
theorem State.Calm.resumeLimit {n} (h : s0.Calm s) : s0.Calm (s.resumeLimit n) := .ite (fun _ => h.dropAll) fun _ => h

theorem State.Calm.retryResume {n} (h : s0.Calm s) : s0.Calm (s.retryResume n) := by
  unfold State.retryResume
  extract_lets x
  split
  · exact h
  · refine .ite (fun _ => State.Calm.refresh (State.Calm.resumeLimit ?_)) fun _ => h
    exact .ite (fun _ => h.modMot.modProt.setUnsure.endEnable) fun _ => h.modMot.modProt.setUnsure

/-! ### DIAGNOSE -/

theorem State.Calm.nextDiag {k g} (h : s0.Calm s) : s0.Calm (s.nextDiag k g) := by
  induction k generalizing s with
  | zero => exact h
  | succ k ih =>
    unfold State.nextDiag
    split
    · exact h
    · have h1 {t a} (k : s0.Calm t) : s0.Calm (t.modGroup g fun x => { x with diagQueue := a }) := k.modGroup fun _ => by exact ⟨rfl, rfl, rfl⟩
      exact .ite (fun _ => ih (h1 h).actionAxis) fun _ => .ite (fun _ => ih (h1 h).actionAxis) fun _ => (h1 h).modGroup fun _ => by exact ⟨rfl, rfl, rfl⟩

theorem State.Calm.diagnoseEnd {n r} (h : s0.Calm s) : s0.Calm (s.diagnoseEnd n r) := by
  unfold State.diagnoseEnd
  extract_lets g
  split
  · exact h
  · refine .ite (fun _ => h) fun _ => State.Calm.nextDiag (State.Calm.actionAxis ?_)
    exact .ite (fun _ => (h.modGroup fun _ => by exact ⟨rfl, rfl, rfl⟩).modProt.shaleAxis) fun _ => (h.modGroup fun _ => by exact ⟨rfl, rfl, rfl⟩).modProt

theorem State.Calm.abortDiag {g} (h : s0.Calm s) : s0.Calm (s.abortDiag g) := by
  unfold State.abortDiag
  split
  · exact h
  · exact (h.modGroup fun _ => by exact ⟨rfl, rfl, rfl⟩).actionAxis.nextDiag

/-! ### What forbids EN -/

/-- A change after which every leg whose EN is high had it high before, and in a group that still permits it. -/
theorem calm_of_permitted {s t : State} (hp : t.pending = s.pending) (hn : s.nvm.Calm t.nvm) (hstage : t.dev.stage = s.dev.stage)
    (hready : t.dev.ready = true → s.dev.ready = true) (hfuse : t.dev.fuseSeq = s.dev.fuseSeq) (hq : s.q.Calm t.q) (hm : s.mp.Calm t.mp)
    (hen : ∀ m, (t.leg m).en = true → (s.leg m).en = true ∧ (s.enPermitted (groupOfLeg m) → t.enPermitted (groupOfLeg m))) : s.Calm t where
  pending := hp
  actions := hq
  en := fun ⟨h1, h2⟩ => ⟨fun m hm => (hen m hm).2 (h1 m (hen m hm).1), fun hr => hstage.trans (h2 (hready hr))⟩
  fuses h := by
    refine ⟨fun i _ => by rw [hn.fuses], ?_⟩
    unfold State.FusesFresh
    rw [hfuse, hn.fuses]
    exact h
  flash := hm
  life := hn.lc
  lifeWord := hn.lcWord
  sameFuses := hn.fuses
  stage := hstage

theorem Leg.turnOff_turnOff (l : Leg) : l.turnOff.turnOff = l.turnOff := by simp [Leg.turnOff]

theorem mem_groupLegs (g : GroupId) (m : LegId) : m ∈ (List.finRange 16).map (legAt g) ↔ groupOfLeg m = g := by
  refine ⟨fun h => ?_, fun h => ?_⟩
  · obtain ⟨k, -, rfl⟩ := List.mem_map.1 h
    exact groupOfLeg_legAt g k
  · refine List.mem_map.2 ⟨⟨m.val % 16, by omega⟩, List.mem_finRange _, ?_⟩
    ext
    simp only [← h, legAt, groupOfLeg]
    omega

/-- The legs of the group go low, the others stand (R242). -/
theorem groupLegsOff_leg (s : State) (g : GroupId) (m : LegId) :
    (s.groupLegsOff g).leg m = if groupOfLeg m = g then (s.leg m).turnOff else s.leg m := by
  unfold State.groupLegsOff
  rw [forAll_same (fun t : State => t.leg m) (groupAxes g) (fun s n => s.modDrv n fun d => { d with energised := false }) (fun _ _ _ => modDrv_leg ..),
    forAll_modLeg _ _ Leg.turnOff_turnOff]
  simp only [mem_groupLegs]

/-- `t` differs from `s` in legs, axes, coils, pins and the like, but in nothing else on which EN depends. -/
structure State.LegsApart (s t : State) : Prop where
  pending : t.pending = s.pending
  dev : t.dev = s.dev
  nvm : t.nvm = s.nvm
  groups : t.groups = s.groups
  q : t.q = s.q
  mp : t.mp = s.mp

theorem State.LegsApart.refl (s : State) : s.LegsApart s := ⟨rfl, rfl, rfl, rfl, rfl, rfl⟩
theorem State.LegsApart.modLeg {s t : State} {m f} (h : s.LegsApart t) : s.LegsApart (t.modLeg m f) := ⟨h.pending, h.dev, h.nvm, h.groups, h.q, h.mp⟩
theorem State.LegsApart.modDrv {s t : State} {n f} (h : s.LegsApart t) : s.LegsApart (t.modDrv n f) := ⟨h.pending, h.dev, h.nvm, h.groups, h.q, h.mp⟩

theorem groupLegsOff_legsApart (s : State) (g : GroupId) : s.LegsApart (s.groupLegsOff g) :=
  forAll_keeps s.LegsApart _ _ (fun _ _ _ h => h.modDrv) _ (forAll_keeps s.LegsApart _ _ (fun _ _ _ h => h.modLeg) _ (.refl s))

theorem State.Calm.groupLegsOff {g} (h : s0.Calm s) : s0.Calm (s.groupLegsOff g) :=
  (h.forAll fun _ _ h => h.modLegOff).forAll fun _ _ h => h.modDrv

/-- A group may be changed in any way once its EN lines go low with it. -/
theorem calm_of_groupDark {s u t : State} {g} {f : Group → Group} (hu : u = s.modGroup g f) (h : u.LegsApart t)
    (hleg : ∀ m, t.leg m = if groupOfLeg m = g then (u.leg m).turnOff else u.leg m) : s.Calm t := by
  obtain ⟨hp, hd, hn, hg, hq, hm⟩ := h
  refine calm_of_permitted (hp.trans (hu ▸ rfl)) ⟨?_, ?_, ?_⟩ ?_ ?_ ?_ ?_ ?_ fun m hen => ?_
  · rw [hn, hu]; rfl
  · rw [hn, hu]; rfl
  · rw [hn, hu]; rfl
  · rw [hd, hu]; rfl
  · rw [hd, hu]; exact id
  · rw [hd, hu]; rfl
  · rw [hq, hu]; exact id
  · rw [hm, hu]; exact id
  · rw [hleg] at hen
    split at hen
    · nomatch hen
    · next hother =>
      have hgrp : t.grp (groupOfLeg m) = s.grp (groupOfLeg m) := by
        simp only [State.grp, hg, hu]
        exact upd_other _ _ _ _ hother
      refine ⟨by rwa [hu] at hen, fun hperm => ?_⟩
      rw [State.enPermitted, hgrp, hd, hu]
      exact hperm

theorem State.Calm.modGroup_groupLegsOff {g f} (h : s0.Calm s) : s0.Calm ((s.modGroup g f).groupLegsOff g) :=
  h.trans (calm_of_groupDark rfl (groupLegsOff_legsApart _ g) (groupLegsOff_leg _ g))

theorem State.Calm.modGroup_noteFault_groupLegsOff {g f} (h : s0.Calm s) : s0.Calm ((s.modGroup g f).noteFault.groupLegsOff g) := by
  obtain ⟨hp, hd, hn, hg, hq, hm⟩ := groupLegsOff_legsApart (s.modGroup g f).noteFault g
  exact h.trans (calm_of_groupDark rfl ⟨hp, hd, hn, hg, hq, hm⟩ (groupLegsOff_leg _ g))

/-- A change of a group that forbids EN no more than before. -/
theorem State.Calm.modGroup_loose {g f} (h : s0.Calm s)
    (hf : ∀ x : Group, x.lockout = 0 → x.link = false → x.par = false → (f x).lockout = 0 ∧ (f x).link = false ∧ (f x).par = false) :
    s0.Calm (s.modGroup g f) := by
  refine h.trans (calm_of_permitted rfl ⟨rfl, rfl, rfl⟩ rfl id rfl id id fun m hm => ⟨hm, fun hperm => ?_⟩)
  by_cases hg : groupOfLeg m = g
  · obtain ⟨ha, hb, hlock, hlink, hpar, hhold, hclk, hrun⟩ := hperm
    rw [hg] at hlock hlink hpar ⊢
    obtain ⟨k1, k2, k3⟩ := hf _ hlock hlink hpar
    rw [← modGroup_grp_self s g f] at k1 k2 k3
    exact ⟨ha, hb, k1, k2, k3, hhold, hclk, hrun⟩
  · have hgrp : (s.modGroup g f).grp (groupOfLeg m) = s.grp (groupOfLeg m) := modGroup_grp_other _ _ _ _ hg
    obtain ⟨ha, hb, hlock, hlink, hpar, hhold, hclk, hrun⟩ := hperm
    exact ⟨ha, hb, (congrArg Group.lockout hgrp).trans hlock, (congrArg Group.link hgrp).trans hlink,
      (congrArg Group.par hgrp).trans hpar, hhold, hclk, hrun⟩

/-! ### Lock-outs, shutdowns, link failures and safe-off -/

theorem State.Calm.dropEnergise {n} (h : s0.Calm s) : s0.Calm (s.dropEnergise n) := h.upd (by rfl)

theorem State.Calm.lockOut {g k t} (h : s0.Calm s) : s0.Calm (s.lockOut g k t) :=
  ((h.modGroup_groupLegsOff.grpFaultSet).forAll fun _ _ h => h.dropEnergise).waitStep3.abortDiag

theorem State.Calm.supplyStep {g k} (h : s0.Calm s) : s0.Calm (s.supplyStep g k) := h.forAll fun _ _ h => h.endAll.setUnsure.dropEnergise

theorem State.Calm.lockoutRelease {g} (h : s0.Calm s) : s0.Calm (s.lockoutRelease g) := by
  unfold State.lockoutRelease
  extract_lets s1
  have h1 : s0.Calm s1 := h.modGroup_loose fun _ _ hlink hpar => ⟨rfl, hlink, hpar⟩
  clear_value s1
  exact h1.upd (by rfl)

theorem State.Calm.brakePinsOff {n} (h : s0.Calm s) : s0.Calm (s.brakePinsOff n) := h.forAll fun _ _ h => h.modPin

theorem State.Calm.thermalShutdown {g t} (h : s0.Calm s) : s0.Calm (s.thermalShutdown g t) :=
  .ite (fun _ => h.modGroup fun _ => by exact ⟨rfl, rfl, rfl⟩) fun _ => ((h.modGroup fun _ => by exact ⟨rfl, rfl, rfl⟩).groupLegsOff.noteFault.shale).forAll fun _ _ h => h.turnOff.offNow.setUnsure.brakePinsOff

theorem State.Calm.thermalStep {g} (h : s0.Calm s) : s0.Calm (s.thermalStep g) := .ite (fun _ => h.thermalShutdown) fun _ => h

theorem State.Calm.linkFailure {g w} (h : s0.Calm s) : s0.Calm (s.linkFailure g w) := by
  cases w with
  | repeatedOk => exact h
  | sample c gap => exact h.modGroup fun _ => by exact ⟨rfl, rfl, rfl⟩
  | configWrite => exact (h.modGroup_groupLegsOff.noteFault.shale).forAll fun _ _ h => h.turnOff

/-- An EN line that is low stays so where groups' lines go low. -/
theorem groupLegsOff_en {s : State} {g : GroupId} {m : LegId} (h : (s.leg m).en = false) : ((s.groupLegsOff g).leg m).en = false := by
  rw [groupLegsOff_leg]
  split
  · rfl
  · exact h

/-- Every EN line of a group listed is low once those of the groups listed are. -/
theorem groupsOff_dark (m : LegId) (l : List GroupId) (s : State) (hm : groupOfLeg m ∈ l) : ((s.forAll l State.groupLegsOff).leg m).en = false := by
  induction l generalizing s with
  | nil => nomatch hm
  | cons g l ih =>
    rw [forAll_cons]
    by_cases hhead : groupOfLeg m = g
    · have hg : ((s.groupLegsOff g).leg m).en = false := by rw [groupLegsOff_leg, if_pos hhead]; rfl
      exact forAll_keeps (fun t => (t.leg m).en = false) _ _ (fun _ _ _ h => groupLegsOff_en h) _ hg
    · exact ih _ ((List.mem_cons.1 hm).resolve_left hhead)

theorem State.Calm.safeOff {a b t} (h : s0.Calm s) : s0.Calm (s.safeOff a b t) := by
  unfold State.safeOff
  extract_lets s1 s2 s3
  have h1 : s0.Calm s1 := h.forAll fun _ _ h => h.groupLegsOff
  have h2 : s0.Calm s2 := h1.forAll fun _ _ h => h.dropEnergise.modDrv
  have h3 : s0.Calm s3 := h2.forAll fun _ _ h => .modPin h
  have e1 : ∀ m, (s1.leg m).en = false := fun m => groupsOff_dark m _ s (List.mem_finRange _)
  have e2 : ∀ m, (s2.leg m).en = false := fun m => forAll_keeps (fun t : State => (t.leg m).en = false) _ _ (fun _ _ _ h => by exact h) _ (e1 m)
  have e3 : ∀ m, (s3.leg m).en = false := fun m => forAll_keeps (fun t : State => (t.leg m).en = false) _ _ (fun _ _ _ h => by exact h) _ (e2 m)
  clear_value s3
  refine State.Calm.waitStep3 (h3.trans (calm_of_permitted rfl ⟨rfl, rfl, rfl⟩ rfl id rfl id id fun m hm => ?_))
  exact nomatch (e3 m).symm.trans hm

theorem State.Calm.safeStep {a b} (h : s0.Calm s) : s0.Calm (s.safeStep a b) :=
  (State.Calm.shale (h.upd (by rfl))).forAll fun _ _ h => h.turnOff.offNow

theorem State.Calm.faultStep {e} (h : s0.Calm s) : s0.Calm (s.faultStep e) := by
  cases e with
  | safe a b => exact h.safeStep
  | supply g k => exact h.supplyStep
  | trips g => exact h.classifyGroup
  | tripAxis n => exact h.classifyAxis
  | checkFail n m => exact h.checkFailed
  | edge p l m nine => exact h.edgeStep

theorem State.Calm.faultSteps (h : s0.Calm s) : s0.Calm s.faultSteps := by
  unfold State.faultSteps
  extract_lets d s1
  have h1 : s0.Calm s1 := State.Calm.forAll (h.upd (by rfl)) fun _ _ h => h.faultStep
  clear_value s1
  refine h1.updGroups (fun g => ?_)
  rw [Vector.getElem_map]
  exact ⟨rfl, rfl, rfl⟩

end

end Sys2Proof.Machine
end

section
/-! SUPPORT. No step of a frame, and no reset of a block, breaks what no step breaks (02_master_time.md R59; 15_reset_lifecycle.md R390, R396,
R398; 16_integrity.md R414, R415). -/
namespace Sys2Proof.Machine
open Sys2Proof

section
variable {s0 s : State}

/-! ### Step 1: the boundary -/

theorem State.Calm.epochTimeout (h : s0.Calm s) : s0.Calm s.epochTimeout := by
  unfold State.epochTimeout
  split
  · exact h
  · exact .ite (fun _ => State.Calm.complete (h.upd (by rfl))) fun _ => h

theorem State.Calm.takeTime (h : s0.Calm s) : s0.Calm s.takeTime := by
  unfold State.takeTime
  extract_lets t still t1 s1
  refine .ite (fun _ => h.upd (by rfl)) fun _ => ?_
  have h1 : s0.Calm s1 := h.upd (by rfl)
  split
  · exact h1
  · exact h1.complete

theorem State.Calm.drivePins (h : s0.Calm s) : s0.Calm s.drivePins := by
  refine h.forAll fun t p h => ?_
  split
  · exact h
  · exact .ite (fun _ => h.modPin) fun _ => h

@[simp] theorem Leg.restFrame_en (l : Leg) (k : Nat) (b : Bool) : (l.restFrame k b).en = l.en := by
  unfold Leg.restFrame
  extract_lets l1
  split <;> rfl

theorem State.Calm.healEdges {t} (h : s0.Calm s) : s0.Calm (State.healEdges t s) := h.upd (by rfl)

theorem State.Calm.boundary {inp} (h : s0.Calm s) (hrun : s0.EnSafe → s0.dev.stage = .running) : s0.Calm (s.boundary inp) := by
  unfold State.boundary
  extract_lets d s1 s1' s2 s3 s4 s5 s6 s7
  have h1 : s0.Calm s1 := h.upd (by rfl)
  have h1' : s0.Calm s1' := h1.forAll fun _ _ h => h.disableBrake.modDrv
  have h2 : s0.Calm s2 := h1'.drivePins.takeTime.epochTimeout
  have h3 : s0.Calm s3 := h2.forAll fun _ _ h => h.modGroup fun _ => by exact ⟨rfl, rfl, rfl⟩
  have h4 : s0.Calm s4 := (h3.forAll fun _ _ h => h.enterFrame hrun).healEdges
  have h5 : s0.Calm s5 := h4.forAll fun _ _ h => h.applied
  have h6 : s0.Calm s6 := h5.forAll fun _ _ h => h.enterSlots
  have h7 : s0.Calm s7 := (h6.forAll fun _ _ h => h.modLeg fun _ hl => by rwa [Leg.restFrame_en] at hl).forAll fun _ _ h => h.modObs
  exact h7.forAll fun _ _ h => h.offNow.disableStep

theorem State.Calm.snapshot (h : s0.Calm s) : s0.Calm s.snapshot := h.upd (by rfl)

/-! ### Step 3: what waits for the snapshot -/

theorem State.Calm.bindNow {n m} (h : s0.Calm s) : s0.Calm (s.bindNow n m) := h.upd (by rfl)

theorem State.Calm.adjust {n f act} (h : s0.Calm s) : s0.Calm (s.adjust n f act) := by
  unfold State.adjust
  extract_lets s1 a
  have h1 : s0.Calm s1 := h.reeval.endDone
  split
  · exact h1.actionAxis
  · split
    · exact h1.actionAxis
    · exact .ite (fun _ => h1.modMot.newHead.actionAxis) fun _ => h1.actionAxis

theorem State.Calm.disableSnap {n} (h : s0.Calm s) : s0.Calm (s.disableSnap n) := by
  unfold State.disableSnap
  extract_lets s1 s2 s3 held
  have h1 : s0.Calm s1 := h.reeval.endDone
  have h2 : s0.Calm s2 := State.Calm.endIdent (.ite (fun _ => h1.endEnable) fun _ => h1)
  have h3 : s0.Calm s3 := h2.modDrv.modProt
  exact .ite (fun _ => h3.dropAll) fun _ => h3.stopAxis.flushQueue.countDisable

theorem State.Calm.stopAllNow {acts} (h : s0.Calm s) : s0.Calm (s.stopAllNow acts) := by
  unfold State.stopAllNow
  extract_lets on s1 moving counted q s2 s3 s4
  have h1 : s0.Calm s1 := h.forAll fun _ _ h => h.reeval.endDone
  have h2 : s0.Calm s2 := h1.updQueues (s1.q.calm_map _ fun b => by simp only [counted]; split <;> rfl)
  have h3 : s0.Calm s3 := h2.forAll fun _ _ h => h.forAll fun _ _ h => h.doStop
  have h4 : s0.Calm s4 := h3.forAll fun _ _ h => h.modDrv
  exact h4.forAll fun _ _ h => h.closeBatch

theorem State.Calm.takeNow {n} (h : s0.Calm s) : s0.Calm (s.takeNow n) := by
  unfold State.takeNow
  extract_lets was
  exact h.reeval.modProt.stopFlush

theorem State.Calm.snapOp {o} (h : s0.Calm s) (hrun : s0.EnSafe → s0.dev.stage = .running) : s0.Calm (s.snapOp o) := by
  cases o with
  | bind n m act => exact h.bindNow.actionAxis
  | setPosition n p act => exact h.modMot.actionAxis
  | setSpeed n v act => exact State.Calm.adjust (f := fun k => k.withSpeed v) h
  | setAccel n acc dec act => exact State.Calm.adjust (f := fun k => k.withAccel acc dec) h
  | stop n quick flush act => exact h.doStop
  | disable n act => exact h.disableSnap
  | stopAll act => exact h.stopAllNow
  | closeBatch id => exact h.closeBatch
  | take n act => exact h.takeNow
  | handBack n act => exact .ite (fun _ => h.stopAxis) fun _ => h
  | installTable t es fa ref => exact h.modTable.complete
  | energise n => exact .ite (fun _ => h) fun _ => .ite (fun _ => h.enableNow hrun) fun _ => .ite (fun _ => h.energise hrun) fun _ => h
  | stallStop n => exact h.stallStop
  | readAxis n i ref => exact h
  | readGroup g i ref => exact h

theorem State.Calm.snapEffect {acts o} (h : s0.Calm s) (hrun : s0.EnSafe → s0.dev.stage = .running) : s0.Calm (s.snapEffect acts o) := by
  unfold State.snapEffect
  split
  · exact .ite (fun _ => h.stopAllNow) fun _ => h
  · exact h.snapOp hrun

theorem State.Calm.runSnapOps (h : s0.Calm s) (hrun : s0.EnSafe → s0.dev.stage = .running) : s0.Calm s.runSnapOps :=
  State.Calm.forAll (h.upd (by rfl)) fun _ _ h => h.snapEffect hrun

/-! ### Step 3: parity, jogs and ownership -/

theorem State.Calm.parityAxis {n c} (h : s0.Calm s) : s0.Calm (s.parityAxis n c) := .ite (fun _ => h.turnOff.offNow) fun _ => h

/-- Every EN line goes low, and what follows may forbid EN everywhere (R390). -/
theorem enterSafeHold_calm_dark (h : s0.Calm s) : s0.Calm s.enterSafeHold ∧ ∀ m, (s.enterSafeHold.leg m).en = false := by
  unfold State.enterSafeHold
  extract_lets s1 s2
  have h1 : s0.Calm s1 := h.forAll fun _ _ h => h.groupLegsOff
  have h2 : s0.Calm s2 := h1.forAll fun _ _ h => h.ownedAlert.modDrv
  have e1 : ∀ m, (s1.leg m).en = false := fun m => groupsOff_dark m _ s (List.mem_finRange _)
  have e2 : ∀ m, (s2.leg m).en = false := fun m => by
    refine forAll_keeps (fun t : State => (t.leg m).en = false) _ _ (fun t n _ h => ?_) _ (e1 m)
    show ((t.ownedAlert n).leg m).en = false
    unfold State.ownedAlert
    split <;> exact h
  clear_value s2
  refine ⟨h2.trans (calm_of_permitted rfl ⟨rfl, rfl, rfl⟩ rfl (fun h => nomatch h) rfl id id fun m hm => ?_), e2⟩
  exact nomatch (e2 m).symm.trans hm

theorem State.Calm.enterSafeHold (h : s0.Calm s) : s0.Calm s.enterSafeHold := (enterSafeHold_calm_dark h).1
theorem enterSafeHold_dark (s : State) (m : LegId) : (s.enterSafeHold.leg m).en = false := (enterSafeHold_calm_dark (.refl s)).2 m

theorem State.Calm.parityReact {p w c} (h : s0.Calm s) : s0.Calm (s.parityReact p w c) := by
  unfold State.parityReact
  split
  · extract_lets g
    split
    · exact h.modGroup_noteFault_groupLegsOff.forAll fun _ _ h => h.parityAxis
    · split
      · exact h.modProt.parityAxis
      · exact h
  · refine .ite (fun _ => State.Calm.enterSafeHold (h.upd (by rfl))) fun _ => State.Calm.shale (h.upd (by rfl))

theorem State.Calm.integrityStep (h : s0.Calm s) : s0.Calm s.integrityStep :=
  (State.Calm.forAll (h.upd (by rfl)) fun _ _ h => h.parityReact).forAll fun _ _ h => .ite (fun _ => h.turnOff.setUnsure.offNow) fun _ => h

theorem State.Calm.endJogStop {n} (h : s0.Calm s) : s0.Calm (s.endJogStop n) := .ite (fun _ => h.endDone) fun _ => h

theorem State.Calm.sbJogStart {j} (h : s0.Calm s) : s0.Calm (s.sbJogStart j) := by
  unfold State.sbJogStart
  extract_lets n d drop s1
  have hdrop : s0.Calm (drop s) := h.upd (by rfl)
  have h1 : s0.Calm s1 := hdrop.startJog
  clear_value s1 drop
  exact .ite (fun _ => h) fun _ => .ite (fun _ => hdrop.endActs) fun _ => .ite (fun _ => State.Calm.endActs (h1.upd (by rfl))) fun _ => h

theorem State.Calm.ownerEnds {n} (h : s0.Calm s) : s0.Calm (s.ownerEnds n) := by
  unfold State.ownerEnds
  extract_lets s1
  have h1 : s0.Calm s1 := .ite (fun _ => h) fun _ => h.modProt
  exact .ite (fun _ => h1.endActs) fun _ => h

theorem State.Calm.axisEvents {n} (h : s0.Calm s) : s0.Calm (s.axisEvents n) := by
  unfold State.axisEvents
  extract_lets s1
  have h1 : s0.Calm s1 := h.endJogStop.homeAdvance.jogStep.bidirLimit
  exact h1.modMot

theorem State.Calm.ringOrder {t} (h : s0.Calm s) : s0.Calm (s.ringOrder t) := h.upd (by rfl)

theorem State.Calm.events (h : s0.Calm s) : s0.Calm s.events := by
  unfold State.events
  extract_lets s1 s2 s3 s4
  have h1 : s0.Calm s1 := h.faultSteps.forAll fun _ _ h => h.thermalStep
  have h2 : s0.Calm s2 := h1.integrityStep.forAll fun _ _ h => h.axisEvents
  have h3 : s0.Calm s3 := h2.forAll fun _ _ h => h.sbJogStart
  have h4 : s0.Calm s4 := h3.forAll fun _ _ h => h.ownerEnds
  clear_value s4
  exact h4.upd (by rfl)

/-! ### Steps 5 to 7 -/

theorem State.Calm.evaluate (h : s0.Calm s) : s0.Calm s.evaluate := by
  unfold State.evaluate
  extract_lets s1 d s2
  have h1 : s0.Calm s1 := h.forAll fun _ _ h => h.govGroup
  have h2 : s0.Calm s2 := by
    clear_value s1
    exact h1.upd (by rfl)
  exact (h2.forAll fun _ _ h => h.govAxis).forAll fun _ _ h => h.modDrv.refresh

theorem State.Calm.loops {t n} (h : s0.Calm s) : s0.Calm (State.loops t s n) := h.loopAxis.identFrame.observe.rcoilFrame

theorem State.Calm.regulate {t t1 inp} (h : s0.Calm s) : s0.Calm (State.regulate t t1 inp s) := by
  unfold State.regulate
  extract_lets a a1 a2 b c
  have ha : s0.Calm a := h.forAll fun _ _ h => h.calibrate
  have ha1 : s0.Calm a1 := ha.forAll fun _ _ h => h.sampleAxis
  have ha2 : s0.Calm a2 := ha1.forAll fun _ _ h => h.noteRange
  have hb : s0.Calm b := ha2.forAll fun _ _ h => h.stepGroup
  have hc : s0.Calm c := hb.forAll fun _ _ h => h.loops
  clear_value c
  refine hc.updGroups (fun g => ?_)
  rw [Vector.getElem_map]
  exact ⟨rfl, rfl, rfl⟩

theorem State.Calm.placement {t} (h : s0.Calm s) : s0.Calm (s.placement t) := h.forAll fun _ _ h => h.micaGroup

theorem State.Calm.readOut {o} (h : s0.Calm s) : s0.Calm (s.readOut o) := by
  unfold State.readOut
  split
  · exact h.modProt.complete
  · exact (h.modGroup fun _ => by exact ⟨rfl, rfl, rfl⟩).complete
  · exact h

theorem State.Calm.readOuts (h : s0.Calm s) : s0.Calm s.readOuts := (State.Calm.forAll (h.upd (by rfl)) fun _ _ h => h.readOut).ringOrder

/-- A whole frame of a module that runs. -/
theorem State.Calm.frame {inp} (h : s0.Calm s) (hrun : s0.EnSafe → s0.dev.stage = .running) : s0.Calm (s.frame inp) :=
  ((h.boundary hrun).snapshot.runSnapOps hrun).events.ringOrder.evaluate.regulate.ringOrder.placement.readOuts.noteFault

/-! ### Resets of blocks -/

theorem State.Calm.resetGroup {g} (h : s0.Calm s) : s0.Calm (s.resetGroup g) := by
  unfold State.resetGroup
  extract_lets m7 s1 s2 s3 s4
  have h1 : s0.Calm s1 := h.forAll fun _ _ h => h.dropAll.modAxis
  have h2 : s0.Calm s2 := h1.forAll fun _ _ h => h.modLeg fun _ hl => nomatch hl
  have h3 : s0.Calm s3 := h2.forAll fun _ _ h => h.modCoil
  have h4 : s0.Calm s4 := h3.forAll fun _ _ h => .ite (fun _ => h.modAdc) fun _ => h
  have h5 : s0.Calm (s4.modGroup g Group.reset) := h4.modGroup_loose fun _ hlock _ _ => ⟨hlock, rfl, rfl⟩
  have h6 := h5.noteFault
  generalize (s4.modGroup g Group.reset).noteFault = s6 at h6
  exact h6.upd (by rfl)

theorem State.Calm.resetQuartz (h : s0.Calm s) : s0.Calm s.resetQuartz := by
  refine State.Calm.loadTrims (h.updParts (.refl _) (.refl _) (fun m hm => ?_) (fun g => ?_) id id)
  · rwa [Vector.getElem_map] at hm
  · rw [Vector.getElem_map]
    exact ⟨rfl, rfl, rfl⟩

theorem State.Calm.resetSync (h : s0.Calm s) : s0.Calm s.resetSync := by
  unfold State.resetSync
  extract_lets t s1
  have h1 : s0.Calm s1 := h.upd (by rfl)
  split
  · exact h1
  · exact h1.complete

theorem State.Calm.resetSideBand (h : s0.Calm s) : s0.Calm s.resetSideBand := h.upd (by rfl)
theorem State.Calm.resetPort (h : s0.Calm s) : s0.Calm s.resetPort := h.upd (by rfl)

theorem State.Calm.startBlock {b} (h : s0.Calm s) : s0.Calm (s.startBlock b) := by
  unfold State.startBlock
  split
  · exact h.resetGroup
  · extract_lets s1
    have h1 : s0.Calm s1 :=
      .ite (fun _ => h.resetPort) fun _ => .ite (fun _ => h.resetQuartz) fun _ => .ite (fun _ => h.resetSync) fun _ => h.resetSideBand
    clear_value s1
    exact h1.upd (by rfl)

theorem State.Calm.requestBlock {b o} (h : s0.Calm s) : s0.Calm (s.requestBlock b o) := by
  unfold State.requestBlock
  split
  · exact h.startBlock
  · exact h.upd (by rfl)

theorem State.Calm.writeBlkRst {v o} (h : s0.Calm s) : s0.Calm (s.writeBlkRst v o) := h.forAll fun _ _ h => h.requestBlock

theorem State.Calm.blockEnd {b} (h : s0.Calm s) : s0.Calm (s.blockEnd b) := by
  unfold State.blockEnd
  extract_lets mp s1 d s2
  have h1 : s0.Calm s1 := by
    unfold s1
    split
    · exact h.modGroup fun _ => by exact ⟨rfl, rfl, rfl⟩
    · split
      · exact h
      · exact h.upd (by rfl)
  have h2 : s0.Calm s2 := by
    clear_value s1
    exact h1.upd (by rfl)
  exact h2.forAll fun _ _ h => h.complete

end

end Sys2Proof.Machine
end

section
/-! SUPPORT. The registers, the packet rings and the host port keep what no step breaks (10_host_port.md R267 to R286; 11_queues_packets.md
R287 to R299; 19_registers_device.md; 20_registers_group.md). -/
namespace Sys2Proof.Machine
open Sys2Proof

section
variable {s0 s : State}

/-! ### Reading -/

theorem State.Calm.setShadow {p k v} (h : s0.Calm s) : s0.Calm (s.setShadow p k v) := by
  cases p with
  | host => exact h.upd (by rfl)
  | sideband => exact h.upd (by rfl)

theorem State.Calm.setHolding {p k v} (h : s0.Calm s) : s0.Calm (s.setHolding p k v) := by
  cases p with
  | host => exact h.upd (by rfl)
  | sideband => exact h.upd (by rfl)

theorem State.Calm.regError {p c} (h : s0.Calm s) : s0.Calm (s.regError p c) := by
  cases p with
  | host => exact h.upd (by rfl)
  | sideband => exact h.upd (by rfl)

theorem State.Calm.regRead {p page w} (h : s0.Calm s) : s0.Calm (s.regRead p page w).2 := by
  unfold State.regRead
  split_ifs
  · exact h.regError
  · exact h
  · split
    · exact h
    · split
      · exact h.setShadow
      · exact h

/-! ### Writing: pages 0 to 3 -/

/-- A write that succeeds leaves what no step breaks. -/
def Written.Calm (s0 : State) (w : Written) : Prop := ∀ t, w = .ok t → s0.Calm t

theorem Written.Calm.ok {t : State} (h : s0.Calm t) : Written.Calm s0 (.ok t) := fun _ e => Except.ok.inj e ▸ h

theorem Written.Calm.error {e : Nat} : Written.Calm s0 (.error e) := fun _ e => nomatch e

theorem Written.Calm.ite {c : Prop} [Decidable c] {a b : Written} (ha : Written.Calm s0 a) (hb : Written.Calm s0 b) :
    Written.Calm s0 (if c then a else b) := by
  split
  · exact ha
  · exact hb

theorem State.Calm.accessFlag {i} (h : s0.Calm s) (hi : (BitVec.ofNat 8 (2 ^ i)).getLsbD 0 = false) : s0.Calm (s.accessFlag i) := by
  refine State.Calm.noteFault (h.updDev ⟨rfl, rfl, rfl, rfl, rfl, ?_, rfl⟩)
  rw [BitVec.getLsbD_or, hi, Bool.or_false]

theorem State.Calm.wonceViol {p} (h : s0.Calm s) : s0.Calm (s.wonceViol p) := (h.accessFlag rfl).shale

/-- The bit of a lost clock cannot be written away (R474). -/
theorem gfault_clock_kept (x v keep : BitVec 8) (hk : keep.getLsbD 0 = true) : (x &&& (~~~v ||| keep)).getLsbD 0 = x.getLsbD 0 := by
  rw [BitVec.getLsbD_and, BitVec.getLsbD_or, hk, Bool.or_true, Bool.and_true]

theorem State.Calm.writePage0 {w v} (h : s0.Calm s) : Written.Calm s0 (s.writePage0 w v) := by
  unfold State.writePage0
  extract_lets clr
  split
  · refine .ok (State.Calm.noteFault (h.updDev ⟨rfl, rfl, rfl, rfl, rfl, gfault_clock_kept _ _ _ ?_, rfl⟩))
    exact apply_ite (fun k : BitVec 8 => k.getLsbD 0) .. |>.trans (ite_self _)
  · exact .ok (h.upd (by rfl))
  · exact .ok (h.upd (by rfl))
  · exact .ok (h.upd (by rfl))
  · exact .ok (h.upd (by rfl))
  · exact .ok (h.upd (by rfl))
  · exact .ok (h.upd (by rfl))
  · exact .ok h

theorem State.Calm.writeOptions {r} (h : s0.Calm s) : s0.Calm (s.writeOptions r) := h.upd (by rfl)
theorem State.Calm.clearStaging (h : s0.Calm s) : s0.Calm s.clearStaging := h.upd (by rfl)

theorem State.Calm.loadKey {p b} (h : s0.Calm s) : s0.Calm (s.loadKey p b) :=
  .ite (fun _ => State.Calm.clearStaging (.ite (fun _ => h.upd (by rfl)) fun _ => h.upd (by rfl))) fun _ => h.wonceViol.regError

theorem State.Calm.optCtl {p v} (h : s0.Calm s) : Written.Calm s0 (s.optCtl p v) := by
  refine .ite .error ?_
  split
  · exact .ok h
  · exact .ite .error (.ite (.ok h.writeOptions) .error)
  · exact .ok h.loadKey
  · exact .ok h.loadKey

theorem State.Calm.writePage1 {p w v} (h : s0.Calm s) : Written.Calm s0 (s.writePage1 p w v) := by
  unfold State.writePage1
  split
  · exact .ok h.writeBlkRst
  · exact .ok (.ite (fun _ => h.upd (by rfl)) fun _ => h)
  · exact h.optCtl
  · exact .ok (h.upd (by rfl))
  · exact .ok (h.upd (by rfl))
  · split
    · exact .ite .error (.ok (h.upd (by rfl)))
    · exact .ok h

theorem State.Calm.writePage2 {w v} (h : s0.Calm s) : Written.Calm s0 (s.writePage2 w v) := by
  unfold State.writePage2
  split
  · exact .ite (.ok (h.upd (by rfl))) .error
  · exact .ok (h.upd (by rfl))
  · exact .ite .error (.ok (h.updQueues id))
  · exact .ok (h.upd (by rfl))
  · exact .ok (.ite (fun _ => h.upd (by rfl)) fun _ => h)
  · split
    · exact .ite .error (.ok (h.upd (by rfl)))
    · exact .ok h

theorem State.Calm.writeFlen {v} (h : s0.Calm s) : Written.Calm s0 (s.writeFlen v) := .ite .error (.ite .error (.ok (h.upd (by rfl))))
theorem State.Calm.writeTbCfg {v} (h : s0.Calm s) : Written.Calm s0 (s.writeTbCfg v) := .ite .error (.ite .error (.ok (h.upd (by rfl))))
theorem State.Calm.writeCpr {v} (h : s0.Calm s) : Written.Calm s0 (s.writeCpr v) := .ite (.ok (h.upd (by rfl))) .error
theorem State.Calm.writeRate {v w} (h : s0.Calm s) : s0.Calm (s.writeRate v w) := h.upd (by rfl)
theorem State.Calm.writeSync {v} (h : s0.Calm s) : Written.Calm s0 (s.writeSync v) := .ite .error (.ite .error (.ok (h.upd (by rfl))))

theorem State.Calm.writePage3 {w v} (h : s0.Calm s) : Written.Calm s0 (s.writePage3 w v) := by
  unfold State.writePage3
  split
  · exact h.writeFlen
  · exact h.writeTbCfg
  · exact h.writeCpr
  · exact .ok h.writeRate
  · exact .ok h.writeRate
  · exact h.writeSync
  · exact .ite .error (.ok (h.upd (by rfl)))
  · exact .ok (.ite (fun _ => h.upd (by rfl)) fun _ => h)
  · exact .ok h

theorem State.Calm.presetMaster {m lo hi} (h : s0.Calm s) : Written.Calm s0 (s.presetMaster m lo hi) := .ite .error (.ok (h.upd (by rfl)))

theorem State.Calm.writePair {p page w lo v} (h : s0.Calm s) :
    Written.Calm s0 (s.writePair p page w lo v).1 ∧ s0.Calm (s.writePair p page w lo v).2 := by
  unfold State.writePair
  extract_lets key s1 held
  split
  · split
    · exact ⟨.ok h.setHolding, h.setHolding⟩
    · split
      next s2 e => exact ⟨.ok (h.presetMaster s2 e).setHolding, h⟩
      next e => exact ⟨.error, h.setHolding⟩
  · exact ⟨.ok h, h⟩

/-! ### Writing: the group pages -/

theorem State.Calm.writeHostedge {g v} (h : s0.Calm s) : Written.Calm s0 (s.writeHostedge g v) := .ite .error (.ok (h.modGroup fun _ => by exact ⟨rfl, rfl, rfl⟩))

theorem State.Calm.clearGrpFault {g v} (h : s0.Calm s) : s0.Calm (s.clearGrpFault g v) :=
  ((h.modGroup fun _ => by exact ⟨rfl, rfl, rfl⟩).forAll fun _ _ h => .ite (fun _ => h.modLeg fun _ => by exact id) fun _ => h).noteFault

/-- HB_DIRECT raises EN only where the group permits it (R257). -/
theorem State.Calm.writeDirect {g v} (h : s0.Calm s) (hrun : s0.EnSafe → s0.dev.stage = .running) : Written.Calm s0 (s.writeDirect g v) := by
  refine .ite .error (.ok (State.Calm.hostEnables ?_ hrun))
  refine (h.modGroup fun _ => by exact ⟨rfl, rfl, rfl⟩).forAll fun _ _ h => .ite (fun _ => ?_) fun _ => .ite (fun _ => h.modLeg fun _ => by exact id) fun _ => h
  exact .ite (fun _ => (h.modLeg fun _ => by exact id).noteFault) fun _ => (h.modLeg fun _ => by exact id).noteFault.shale

theorem State.Calm.writeCommit {g v k} (h : s0.Calm s) : Written.Calm s0 (s.writeCommit g v k) := by
  refine .ite (.ok h) (.ite .error (.ok (h.forAll fun _ _ h => .ite (fun _ => h.modLeg fun l hl => ?_) fun _ => h)))
  split at hl <;> exact hl

theorem State.Calm.writeEdge {g m b v} (h : s0.Calm s) : Written.Calm s0 (s.writeEdge g m b v) := by
  refine .ite .error (.ite .error (.ok (h.modLeg fun l hl => ?_)))
  split at hl <;> exact hl

theorem State.Calm.foldl {α : Type} {l : List α} {f : State → α → State} (h : s0.Calm s) (hf : ∀ t a, s0.Calm t → s0.Calm (f t a)) :
    s0.Calm (l.foldl f s) := State.Calm.forAll h hf

theorem State.Calm.writeGroupWord {g w v k} (h : s0.Calm s) (hrun : s0.EnSafe → s0.dev.stage = .running) :
    Written.Calm s0 (s.writeGroupWord g w v k) := by
  unfold State.writeGroupWord
  split
  · exact h.writeHostedge
  · exact .ok (h.modGroup fun _ => by exact ⟨rfl, rfl, rfl⟩)
  · exact .ok h.clearGrpFault
  · exact .ite .error (.ite .error (.ok (h.modGroup fun _ => by exact ⟨rfl, rfl, rfl⟩)))
  · exact .ite .error (.ok (h.modGroup fun _ => by exact ⟨rfl, rfl, rfl⟩))
  · exact .ite .error (.ok (h.modGroup fun _ => by exact ⟨rfl, rfl, rfl⟩))
  · exact .ite .error (.ok (h.modGroup fun _ => by exact ⟨rfl, rfl, rfl⟩))
  · exact .ok (h.foldl fun _ _ h => .ite (fun _ => h.modAdc) fun _ => h)
  · exact h.writeDirect hrun
  · exact h.writeCommit
  · split
    · exact h.writeEdge
    · split
      · exact h.writeEdge
      · exact .ok h

theorem State.Calm.clearAxStat {n v} (h : s0.Calm s) : s0.Calm (s.clearAxStat n v) := by
  unfold State.clearAxStat
  extract_lets s1 s2
  have h1 : s0.Calm s1 := h.modProt
  have h2 : s0.Calm s2 := h1.modObs
  exact h2.modEnc

theorem State.Calm.writeAxisBlock {n o v} (h : s0.Calm s) : Written.Calm s0 (s.writeAxisBlock n o v) := by
  unfold State.writeAxisBlock
  split
  · exact .ok h.clearAxStat
  · exact .ok h.modCfg
  · exact .ok h.modCfg
  · exact .ok h.modCfg
  · exact .ok h.modCfg
  · exact .ok h.modCfg
  · exact .ite .error (.ok h.modCfg)
  · exact .ite .error (.ok h.modCfg)
  · exact .ok h

theorem State.Calm.writeGroup {p g w v k} (h : s0.Calm s) (hrun : s0.EnSafe → s0.dev.stage = .running) :
    Written.Calm s0 (s.writeGroup p g w v k) :=
  .ite .error (.ite .error (.ite (h.writeGroupWord hrun) (.ite (.ok h) h.writeAxisBlock)))

theorem State.Calm.writeWord {p page w v k} (h : s0.Calm s) (hrun : s0.EnSafe → s0.dev.stage = .running) :
    Written.Calm s0 (s.writeWord p page w v k) := by
  unfold State.writeWord
  split
  · exact h.writePage0
  · exact h.writePage1
  · exact h.writePage2
  · exact h.writePage3
  · split
    · exact h.writeGroup hrun
    · exact .ok h

theorem State.Calm.setUnlock {p b} (h : s0.Calm s) : s0.Calm (s.setUnlock p b) := by
  cases p with
  | host => exact h.upd (by rfl)
  | sideband => exact h.upd (by rfl)

theorem State.Calm.keyViolation {p} (h : s0.Calm s) : s0.Calm (s.keyViolation p) := by
  unfold State.keyViolation
  extract_lets last s1 log s2
  have h1 : s0.Calm s1 := (h.accessFlag rfl).regError
  have h2 : s0.Calm s2 := h1.shale
  clear_value s2
  refine .ite (fun _ => ?_) fun _ => h1
  cases p with
  | host => exact h2.upd (by rfl)
  | sideband => exact h2.upd (by rfl)

theorem State.Calm.healWord {p w} (h : s0.Calm s) : s0.Calm (s.healWord p w) := h.upd (by rfl)

theorem setUnlock_dev (s : State) (p : Port) (b : Bool) : (s.setUnlock p b).dev = s.dev := by
  cases p with
  | host => rfl
  | sideband => rfl

/-- One word written through a port: a module that is READY runs, and only then does a write act (R276). -/
theorem State.Calm.regWrite {p page w v k} (h : s0.Calm s) : s0.Calm (s.regWrite p page w v k) := by
  unfold State.regWrite
  extract_lets op s1
  have h1 : s0.Calm s1 := h.setUnlock
  clear_value s1
  refine .ite (fun _ => h1.regError) fun hready => .ite (fun _ => h1.regError) fun _ => .ite (fun _ => h1.setUnlock) fun _ =>
    .ite (fun _ => h1.keyViolation) fun _ => ?_
  split
  · next lo _ =>
    have h2 := h1.writePair (p := p) (page := page) (w := w) (lo := lo) (v := v)
    split
    next s2 _ e => exact (h2.1 s2 (congrArg Prod.fst e)).healWord
    next e =>
      rw [e] at h2
      exact h2.2.regError
  · split
    next s2 e => exact (h1.writeWord (fun hs => h.stage.symm.trans ((h.en hs).2 (by simpa using hready))) s2 e).healWord
    · exact h1.regError

/-! ### Packets -/

theorem State.Calm.answer {p st w} (h : s0.Calm s) : s0.Calm (s.answer p st w) := h.complete
theorem State.Calm.dropPacket {q} (h : s0.Calm s) : s0.Calm (s.dropPacket q) := h.upd (by rfl)

theorem State.Calm.settle {k} (h : s0.Calm s) : s0.Calm (State.settle k s) := by
  induction k generalizing s with
  | zero => exact h
  | succ k ih =>
    unfold State.settle
    split
    · exact h
    · exact ih h.dropPacket.answer

theorem State.Calm.flushPackets {q c} (h : s0.Calm s) : s0.Calm (s.flushPackets q c) := State.Calm.forAll (h.upd (by rfl)) fun _ _ h => h.answer

theorem State.Calm.startStopAll {r q} (h : s0.Calm s) : s0.Calm (s.startStopAll r q) := by
  unfold State.startStopAll
  extract_lets s1 wait act s2 s3
  have h1 : s0.Calm s1 := h.flushPackets.endStream
  have h2 : s0.Calm s2 := h1.addAction
  have h3 : s0.Calm s3 := .ite (fun _ => h2.finishAction) fun _ => h2
  clear_value s3
  exact h3.upd (by rfl)

/-! ### The host port -/

theorem State.Calm.frameError {c} (h : s0.Calm s) : s0.Calm (s.frameError c) := .ite (fun _ => h) fun _ => h.upd (by rfl)
theorem State.Calm.latchStatus {o f} (h : s0.Calm s) : s0.Calm (s.latchStatus o f) := h.upd (by rfl)
theorem State.Calm.driveData {f t l} (h : s0.Calm s) : s0.Calm (s.driveData f t l) := h.upd (by rfl)

theorem State.Calm.hostFrame {o f b} (h : s0.Calm s) (hb : ∀ t, s0.Calm t → s0.Calm (b t)) : s0.Calm (s.hostFrame o f b) :=
  .ite (fun _ => h) fun _ => .ite (fun _ => State.Calm.frameError (h.upd (by rfl))) fun _ =>
    .ite (fun _ => State.Calm.frameError (h.upd (by rfl))) fun _ => hb _ h.latchStatus

theorem State.Calm.readWords {page k w} (h : s0.Calm s) : s0.Calm (State.readWords page k w s).2 := by
  induction k generalizing s w with
  | zero => exact h
  | succ k ih => exact ih h.regRead

theorem State.Calm.readFrame {f} (h : s0.Calm s) : s0.Calm (s.readFrame f) :=
  h.hostFrame fun _ h => h.readWords.driveData.frameError

theorem State.Calm.writeWords {f d k} (h : s0.Calm s) : s0.Calm (State.writeWords f d k s) := h.forAll fun _ _ h => h.regWrite
theorem State.Calm.writeFrame {f} (h : s0.Calm s) : s0.Calm (s.writeFrame f) := h.hostFrame fun _ h => h.writeWords.frameError
theorem State.Calm.refusePush {n b c} (h : s0.Calm s) : s0.Calm (s.refusePush n b c) := h.upd (by rfl)

theorem State.Calm.preempt (h : s0.Calm s) : s0.Calm s.preempt := by
  refine .ite (fun _ => h) fun _ => ?_
  split
  · exact h
  · exact h.upd (by rfl)

theorem State.Calm.acceptPush {n b} (h : s0.Calm s) : s0.Calm (s.acceptPush n b) := by
  unfold State.acceptPush
  extract_lets seq p q s1
  have h1 : s0.Calm s1 := h.upd (by rfl)
  exact .ite (fun _ => h1) fun _ => .ite (fun _ => .ite (fun _ => h1.dropPacket.startStopAll) fun _ => h1) fun _ => h1.preempt

theorem State.Calm.offer {n b} (h : s0.Calm s) : s0.Calm (s.offer n b) := by
  unfold State.offer
  split
  · exact h.refusePush
  · exact h.acceptPush

theorem State.Calm.pushFrame {f} (h : s0.Calm s) : s0.Calm (s.pushFrame f) :=
  h.hostFrame fun _ h => .ite (fun _ => h) fun _ => .ite (fun _ => h.frameError) fun _ => State.Calm.frameError (State.Calm.offer (h.upd (by rfl)))

theorem State.Calm.removeEntries {k} (h : s0.Calm s) : s0.Calm (s.removeEntries k) :=
  h.updQueues id

theorem State.Calm.pullFrame {f} (h : s0.Calm s) : s0.Calm (s.pullFrame f) := h.hostFrame fun _ h => h.removeEntries.driveData.frameError
theorem State.Calm.give {c p} (h : s0.Calm s) : s0.Calm (s.give c p) := h.upd (by rfl)

theorem State.Calm.dispatch {c} (h : s0.Calm s) : s0.Calm (s.dispatch c) := by
  unfold State.dispatch
  split
  · exact h
  · extract_lets s1
    have h1 : s0.Calm s1 := h.settle
    clear_value s1
    split
    · exact h1
    · have h2 : s0.Calm { s1 with q := { s1.q with p := s1.choose.2.1, cr := s1.choose.2.2 } } := h1.upd (by rfl)
      show s0.Calm (match s1.choose.1 with | none => _ | some k => _)
      split
      · exact h2
      · exact h2.give.settle

/-! ### What every opcode shares -/

theorem State.Calm.refuse {p r n} (h : s0.Calm s) : s0.Calm (s.refuse p r n) := h.complete

theorem State.Calm.act {p b} (h : s0.Calm s) (hb : ∀ t p, s0.Calm t → s0.Calm (b t p)) : s0.Calm (s.act p b) := by
  unfold State.act
  split
  · exact h.refuse
  · exact hb _ _ h

theorem State.Calm.runPacket {c m b} (h : s0.Calm s) (hb : ∀ t p, s0.Calm t → s0.Calm (b t p)) : s0.Calm (s.runPacket c m b) := by
  refine .ite (fun _ => ?_) fun _ => h
  split
  · exact h
  · exact h.dropPacket.act hb

theorem State.Calm.runOpcode {c o b} (h : s0.Calm s) (hb : ∀ t p, s0.Calm t → s0.Calm (b t p)) : s0.Calm (s.runOpcode c o b) :=
  h.runPacket hb

theorem State.Calm.guarded {p l e} (h : s0.Calm s) (he : ∀ t, s0.Calm t → s0.Calm (e t)) : s0.Calm (s.guarded p l e) := by
  unfold State.guarded
  split
  · exact h.refuse
  · exact he _ h

theorem State.Calm.guardedEach {p l k e} (h : s0.Calm s) (he : ∀ t, s0.Calm t → s0.Calm (e t)) : s0.Calm (s.guardedEach p l k e) := by
  unfold State.guardedEach
  split
  · exact h.refuse
  · split
    · exact h.refuse
    · exact he _ h

theorem State.Calm.done {p w} (h : s0.Calm s) : s0.Calm (s.done p w) := h.answer
theorem State.Calm.addSnap {o} (h : s0.Calm s) : s0.Calm (s.addSnap o) := h.upd (by rfl)

theorem State.Calm.atSnapshot {p k o} (h : s0.Calm s) : s0.Calm (s.atSnapshot p k o) := by
  unfold State.atSnapshot
  extract_lets act l s1
  have h1 : s0.Calm s1 := h.addAction
  clear_value s1
  exact h1.upd (by rfl)

end

end Sys2Proof.Machine
end

section
/-! SUPPORT. The rules of the opcodes keep what no step breaks (12_opcodes.md R316 to R329, R339). -/
namespace Sys2Proof.Machine
open Sys2Proof

section
variable {s0 s : State} {p : Packet}

/-! ### Configuring -/

theorem State.Calm.echoBody (h : s0.Calm s) : s0.Calm (echoBody s p) := h.done
theorem State.Calm.identifyBody (h : s0.Calm s) : s0.Calm (identifyBody s p) := by
  unfold Machine.identifyBody
  exact h.guarded fun _ h => h.done
theorem State.Calm.healAxis {n l} (h : s0.Calm s) : s0.Calm (s.healAxis n l) := h.forAll fun _ _ h => h.healWord
theorem State.Calm.configAxis {n l} (h : s0.Calm s) : s0.Calm (s.configAxis l n) := h.modCfg.modObs.healAxis

theorem State.Calm.configAxisBody (h : s0.Calm s) : s0.Calm (configAxisBody s p) :=
  h.guardedEach fun _ h => (h.forAll fun _ _ h => h.configAxis).done

theorem State.Calm.configGroup {l g} (h : s0.Calm s) : s0.Calm (s.configGroup l g) := by
  unfold State.configGroup
  extract_lets changed s1 s2
  have h1 : s0.Calm s1 := h.modGroup fun _ => by exact ⟨rfl, rfl, rfl⟩
  have h2 : s0.Calm s2 := h1.forAll fun _ _ h => h.modProt
  exact h2.forAll fun _ _ h => h.healWord

theorem State.Calm.configGroupBody (h : s0.Calm s) : s0.Calm (configGroupBody s p) := by
  unfold Machine.configGroupBody
  split
  · exact h.refuse
  · exact h.guarded fun _ h => h.configGroup.done

theorem State.Calm.bindBody (h : s0.Calm s) : s0.Calm (bindBody s p) := h.guardedEach fun _ h => h.atSnapshot
theorem State.Calm.setPositionBody (h : s0.Calm s) : s0.Calm (setPositionBody s p) := h.guardedEach fun _ h => h.atSnapshot

theorem State.Calm.routePin {n e} (h : s0.Calm s) : s0.Calm (s.routePin n e) := by
  unfold State.routePin
  extract_lets s1 q
  have h1 : s0.Calm s1 := h.modPin
  split
  · exact h1
  · exact .ite (fun _ => h1.modEnc) fun _ => .ite (fun _ => h1.modEnc) fun _ => .ite (fun _ => h1.modPin) fun _ =>
      .ite (fun _ => h1.setPlug) fun _ => h1

theorem State.Calm.route {l} (h : s0.Calm s) : s0.Calm (s.route l) := by
  unfold State.route
  extract_lets s1
  have h1 : s0.Calm s1 := h.forAll fun t r ht => by
    split
    · exact ht.routePin
    · exact ht
  clear_value s1
  exact h1.upd (by rfl)

theorem State.Calm.routeBody (h : s0.Calm s) : s0.Calm (routeBody s p) := h.guarded fun _ h => h.route.done

/-! ### Segments -/

theorem State.Calm.batchDefineBody (h : s0.Calm s) : s0.Calm (batchDefineBody s p) := h.guarded fun _ h => State.Calm.done (h.upd (by rfl))
theorem State.Calm.batchCloseBody (h : s0.Calm s) : s0.Calm (batchCloseBody s p) := h.guarded fun _ h => h.addSnap.done
theorem State.Calm.contribute {n i} (h : s0.Calm s) : s0.Calm (s.contribute n i) := .ite (fun _ => h) fun _ => h.upd (by rfl)
theorem State.Calm.enqueue {n g} (h : s0.Calm s) : s0.Calm (s.enqueue n g) := h.modMot.contribute

theorem State.Calm.segmentBody (h : s0.Calm s) : s0.Calm (segmentBody s p) := by
  unfold Machine.segmentBody
  split
  · exact h.refuse
  · exact h.guarded fun _ h => h.enqueue

theorem State.Calm.setSpeedBody (h : s0.Calm s) : s0.Calm (setSpeedBody s p) := h.guarded fun _ h => h.atSnapshot
theorem State.Calm.setAccelBody (h : s0.Calm s) : s0.Calm (setAccelBody s p) := by
  unfold Machine.setAccelBody
  exact h.guarded fun _ h => h.atSnapshot

/-! ### Stopping, enabling and reading -/

theorem State.Calm.stopBody {b} (h : s0.Calm s) : s0.Calm (stopBody b s p) :=
  State.Calm.atSnapshot (.ite (fun _ => h.flushPackets.endStreamOn) fun _ => h)

theorem State.Calm.startDisable {n act} (h : s0.Calm s) : s0.Calm (s.startDisable n act) :=
  .ite (fun _ => h) fun _ => .ite (fun _ => h.addSnap) fun _ => .ite (fun _ => h.dropEnergise.addSnap) fun _ => h.actionAxis

theorem State.Calm.disableBody (h : s0.Calm s) : s0.Calm (disableBody s p) := h.endStreamOn.addAction.forAll fun _ _ h => h.startDisable

theorem State.Calm.startEnable {n act} (h : s0.Calm s) : s0.Calm (s.startEnable n act) := by
  unfold State.startEnable
  split
  · exact h.actionAxis
  · exact .ite (fun _ => h) fun _ => .ite (fun _ => h.actionAxis) fun _ => h.modDrv.addSnap

theorem State.Calm.enableBody (h : s0.Calm s) : s0.Calm (enableBody s p) := h.addAction.forAll fun _ _ h => h.startEnable
theorem State.Calm.flushBody (h : s0.Calm s) : s0.Calm (flushBody s p) := (h.endStreamOn.forAll fun _ _ h => h.flushQueue).done

theorem State.Calm.startDiagnose {n act} (h : s0.Calm s) : s0.Calm (s.startDiagnose n act) :=
  .ite (fun _ => (h.modGroup fun _ => by exact ⟨rfl, rfl, rfl⟩).nextDiag) fun _ => h.modGroup fun _ => by exact ⟨rfl, rfl, rfl⟩

theorem State.Calm.diagnoseBody (h : s0.Calm s) : s0.Calm (diagnoseBody s p) := h.addAction.forAll fun _ _ h => h.startDiagnose

theorem State.Calm.identifyMotorBody (h : s0.Calm s) : s0.Calm (identifyMotorBody s p) := by
  unfold Machine.identifyMotorBody
  split
  · exact h.refuse
  · exact h.guarded fun _ h => h.modProt

theorem State.Calm.readAxisBody (h : s0.Calm s) : s0.Calm (readAxisBody s p) := by
  unfold Machine.readAxisBody
  split
  · exact h.refuse
  · exact h.guarded fun _ h => .ite (fun _ => h.done) fun _ => h.addSnap

theorem State.Calm.readGroupBody (h : s0.Calm s) : s0.Calm (readGroupBody s p) := by
  unfold Machine.readGroupBody
  split
  · exact h.refuse
  · exact h.guarded fun _ h => .ite (fun _ => h.done) fun _ => h.addSnap

end

end Sys2Proof.Machine
end

section
/-! SUPPORT. The memory port, CLEAR_FAULT, OWNERSHIP, SYNC_EPOCH and the firmware's operations keep what no step breaks (12_opcodes.md R330 to
R335; 14_memory_port.md R363 to R376; 16_integrity.md R420 to R423). -/
namespace Sys2Proof.Machine
open Sys2Proof

section
variable {s0 s : State} {p : Packet}

/-! ### Flash reads -/

theorem State.Calm.flashError (h : s0.Calm s) : s0.Calm s.flashError := h.upd (by rfl)
theorem State.Calm.discover (h : s0.Calm s) : s0.Calm s.discover := h.upd (by rfl)

@[simp] theorem MemPort.setCont_flash (m : MemPort) (d b : Bool) : (m.setCont d b).flash = m.flash := by
  unfold MemPort.setCont
  split <;> rfl

theorem State.Calm.fetched {a k} (h : s0.Calm s) : s0.Calm (s.fetched a k) :=
  .ite (fun _ => h) fun _ => h.updPort (MemPort.calm_of_same (MemPort.setCont_flash ..))

theorem State.Calm.setMark {b m} (h : s0.Calm s) : s0.Calm (s.setMark b m) := by
  unfold State.setMark
  cases b with
  | false => exact h.upd (by rfl)
  | true => exact h.upd (by rfl)

theorem State.Calm.bankRead {b} (h : s0.Calm s) : s0.Calm (s.bankRead b) := by
  unfold State.bankRead
  extract_lets a
  split
  · exact h.flashError
  · exact .ite (fun _ => h.fetched) fun _ => .ite (fun _ => h.fetched.fetched) fun _ => h.fetched.flashError

theorem State.Calm.loadPacketTable (h : s0.Calm s) : s0.Calm (s.loadPacketTable p) :=
  .ite (fun _ => h.modTable.addSnap) fun _ => h.modTable.done

theorem State.Calm.portStart (h : s0.Calm s) : s0.Calm s.portStart := by
  unfold State.portStart
  extract_lets run run' m m'
  cases run' with
  | none => exact h.upd (by rfl)
  | some j => exact h.updPort (MemPort.calm_of_same (MemPort.setCont_flash ..))

theorem State.Calm.addJob {j} (h : s0.Calm s) : s0.Calm (s.addJob j) := State.Calm.portStart (h.upd (by rfl))

theorem State.Calm.loadTableBody (h : s0.Calm s) : s0.Calm (loadTableBody s p) :=
  h.guarded fun _ h => .ite (fun _ => h.addJob) fun _ => h.loadPacketTable

theorem State.Calm.tableRead {b r t a} (h : s0.Calm s) : s0.Calm (s.tableRead b r t a) := by
  unfold State.tableRead
  extract_lets s1 s2
  have h1 : s0.Calm s1 := h.modTable.fetched
  have h2 : s0.Calm s2 := .ite (fun _ => h1) fun _ => h1.flashError
  clear_value s2
  split
  · exact h2.complete
  · exact .ite (fun _ => h2.addSnap) fun _ => h2.complete

theorem State.Calm.tableReload {t} (h : s0.Calm s) : s0.Calm (s.tableReload t) := by
  unfold State.tableReload
  extract_lets x a s1
  refine .ite (fun _ => h) fun _ => ?_
  have h1 : s0.Calm s1 := .ite (fun _ => h.fetched) fun _ => h.flashError
  clear_value s1
  split
  · exact h1.modTable
  · exact h1.modTable

/-! ### Libraries -/

theorem State.Calm.loadLibraryBody (h : s0.Calm s) : s0.Calm (loadLibraryBody s p) := h.addJob

theorem State.Calm.writeRecord {r t q} (h : s0.Calm s) : s0.Calm (s.writeRecord r t q) := by
  unfold State.writeRecord
  extract_lets p
  split
  · exact h.refuse
  · exact h.act fun _ _ h => h.segmentBody

theorem State.Calm.streamOn {st l n} (h : s0.Calm s) : s0.Calm (State.streamOn st l n s) := by
  induction l generalizing s n with
  | nil => exact State.Calm.freeTags (State.Calm.complete (h.upd (by rfl)))
  | cons r l ih => exact .ite (fun _ => h.upd (by rfl)) fun _ => ih h.writeRecord

theorem State.Calm.streamStep (h : s0.Calm s) : s0.Calm s.streamStep := by
  refine .ite (fun _ => h) fun _ => ?_
  split
  · exact h
  · exact h.streamOn

theorem State.Calm.stretchRead {x} (h : s0.Calm s) : s0.Calm (s.stretchRead x) := .ite (fun _ => h.fetched) fun _ => h.flashError

theorem State.Calm.libraryRead {b r a i t m v} (h : s0.Calm s) : s0.Calm (s.libraryRead b r a i t m v) := by
  unfold State.libraryRead
  extract_lets fail s1
  have hfail : ∀ {u st w}, s0.Calm u → s0.Calm (fail u st w) := fun h => h.complete
  have h1 : s0.Calm s1 := h.forAll fun _ _ h => h.stretchRead
  refine .ite (fun _ => hfail h.flashError) fun _ => ?_
  clear_value s1
  split
  · exact hfail h1
  · refine .ite (fun _ => hfail h1) fun _ => ?_
    split
    · exact hfail h1
    · exact State.Calm.streamStep (h1.upd (by rfl))

/-! ### CLEAR_FAULT, OWNERSHIP and SYNC_EPOCH -/

theorem State.Calm.clearAxis {n} (h : s0.Calm s) : s0.Calm (s.clearAxis n) := h.modProt.modObs

theorem State.Calm.clearGroup {g} (h : s0.Calm s) : s0.Calm (s.clearGroup p g) := by
  refine State.Calm.noteFault (State.Calm.modGroup_loose ?_ fun _ hlock _ _ => ⟨hlock, rfl, rfl⟩)
  exact h.forAll fun _ _ h => h.clearAxis

theorem State.Calm.freeLost (h : s0.Calm s) : s0.Calm s.freeLost := h.upd (by rfl)

theorem State.Calm.clearGlobal (h : s0.Calm s) : s0.Calm s.clearGlobal := by
  refine State.Calm.noteFault (h.updDev ⟨rfl, rfl, rfl, rfl, rfl, ?_, rfl⟩)
  have hk : (if s.dev.discNow then 0x21 else 0x01 : BitVec 8).getLsbD 0 = true := by split <;> rfl
  rw [BitVec.getLsbD_and, hk, Bool.and_true]

theorem State.Calm.clearFaultBody (h : s0.Calm s) : s0.Calm (clearFaultBody s p) := by
  refine h.guarded fun t ht => ?_
  split
  · exact ht.clearAxis.done
  · exact .ite (fun _ => ht.clearGroup.done) fun _ => ht.clearGlobal.done.freeLost
  · exact ht.clearGlobal.done.freeLost

theorem State.Calm.ownershipBody (h : s0.Calm s) : s0.Calm (ownershipBody s p) := by
  unfold Machine.ownershipBody
  split
  · exact h.refuse
  · exact h.guarded fun _ h => State.Calm.done (.ite (fun _ => h.modProt) fun _ => h)

theorem State.Calm.syncEpochBody (h : s0.Calm s) : s0.Calm (syncEpochBody s p) := h.guarded fun _ h => h.upd (by rfl)

/-! ### Firmware staging and the live switch -/

theorem State.Calm.fwStageBody (h : s0.Calm s) : s0.Calm (fwStageBody s p) := by
  refine h.guarded fun t ht => ?_
  have h1 : s0.Calm (if uAt p.params 0 1 = 2 then t else t.setMark t.inactiveBank none) := .ite (fun _ => ht) fun _ => ht.setMark
  generalize (if uAt p.params 0 1 = 2 then t else t.setMark t.inactiveBank none) = u at h1
  exact State.Calm.portStart (h1.upd (by rfl))

theorem State.Calm.endStage {r st w} (h : s0.Calm s) : s0.Calm (s.endStage r st w) := State.Calm.complete (h.upd (by rfl))

/-- What an erase or a program leaves in the flash keeps its form. -/
theorem State.Calm.flashWrite {j} (h : s0.Calm s) : s0.Calm (s.flashWrite j) := by
  cases j with
  | erase r b => exact h.updPort (fun hw => cellErase_wf _ _ _ hw)
  | program r o l => exact h.updPort (fun hw => cellWrite_wf _ _ _ hw)
  | table r t a => exact h
  | library r a i t m v => exact h
  | verify r => exact h

theorem State.Calm.stageOpEnd {b j r} (h : s0.Calm s) : s0.Calm (s.stageOpEnd b j r) := by
  unfold State.stageOpEnd
  split
  next a k _ =>
    extract_lets t s1 m s2
    have ht : s0.Calm t := h.upd (by rfl)
    have h1 : s0.Calm s1 := ht.flashWrite
    have h2 : s0.Calm s2 := by
      clear_value s1
      exact h1.upd (by rfl)
    exact .ite (fun _ => .ite (fun _ => h2) fun _ => h2.endStage) fun _ => ht.flashError.endStage

theorem State.Calm.verifyEnd {b r} (h : s0.Calm s) : s0.Calm (s.verifyEnd b r) := by
  unfold State.verifyEnd
  extract_lets bank code i s1 s2
  have h1 : s0.Calm s1 := .ite (fun _ => h.bankRead) fun _ => h.flashError
  have h2 : s0.Calm s2 := .ite (fun _ => h1.flashError) fun _ => h1
  exact .ite (fun _ => h1.setMark.endStage) fun _ => h2.endStage

theorem State.Calm.flashEnd {b} (h : s0.Calm s) : s0.Calm (s.flashEnd b) := by
  unfold State.flashEnd
  split
  · exact h
  next j _ =>
    extract_lets m s1
    have h1 : s0.Calm s1 := h.upd (by rfl)
    refine State.Calm.portStart ?_
    cases j with
    | table r t a => exact h1.tableRead
    | library r a i t m v => exact h1.libraryRead
    | erase r k => exact h.stageOpEnd
    | program r o l => exact h.stageOpEnd
    | verify r => exact h.verifyEnd

theorem State.Calm.resume (h : s0.Calm s) : s0.Calm s.resume := h.updParts ⟨rfl, rfl, rfl, rfl, rfl, rfl, rfl⟩ (.refl _) (.refl _) (.refl _) id id
theorem State.Calm.suspend {w} (h : s0.Calm s) : s0.Calm (s.suspend w) := h.upd (by rfl)

theorem State.Calm.quiesce (h : s0.Calm s) : s0.Calm s.quiesce := by
  unfold State.quiesce
  split
  · exact .ite (fun _ => h.suspend) fun _ => h
  · exact h
  · exact h
  · exact h

theorem State.Calm.fwSwitchBody (h : s0.Calm s) : s0.Calm (fwSwitchBody s p) := h.guarded fun _ h => State.Calm.quiesce (h.upd (by rfl))

theorem State.Calm.codeFailed {r b} (h : s0.Calm s) : s0.Calm (s.codeFailed r b) := by
  unfold State.codeFailed
  extract_lets s1 back m s2
  have h1 : s0.Calm s1 := h.setMark.shale
  have h2 : s0.Calm s2 := by
    clear_value s1
    exact .ite (fun _ => h1) fun _ => h1.upd (by rfl)
  clear_value s2
  exact State.Calm.resume (State.Calm.complete (h2.upd (by rfl)))

theorem State.Calm.codeLoadEnd (h : s0.Calm s) : s0.Calm s.codeLoadEnd := by
  unfold State.codeLoadEnd
  split
  · extract_lets good s1
    have h1 : s0.Calm s1 := h.bankRead
    clear_value s1
    exact .ite (fun _ => h1.upd (by rfl)) fun _ => h1.codeFailed
  · exact h
  · exact h
  · exact h

theorem State.Calm.tryBank (h : s0.Calm s) : s0.Calm s.tryBank := by
  unfold State.tryBank
  split
  · exact h
  next b rest _ =>
    refine .ite (fun _ => ?_) fun _ => h
    have h1 : s0.Calm (s.bankRead b) := h.bankRead
    split
    · exact State.Calm.suspend (h1.upd (by rfl))
    · exact State.Calm.shale (h1.upd (by rfl))

theorem State.Calm.writeBootBank {b} (h : s0.Calm s) : s0.Calm (s.writeBootBank b) := h.writeOptions

theorem Nvm.raiseFloor_calm (v : Nvm) (i : Image) : v.Calm (v.raiseFloor i) := by
  unfold Nvm.raiseFloor
  split <;> exact ⟨rfl, rfl, rfl⟩

theorem State.Calm.takeOver {r b} (h : s0.Calm s) : s0.Calm (s.takeOver r b) := by
  unfold State.takeOver
  extract_lets i m s1 s2
  have h1 : s0.Calm s1 := h.upd (by rfl)
  have h2 : s0.Calm s2 := h1.shale.resume
  clear_value s2
  have h3 : s0.Calm { s2 with nvm := s2.nvm.raiseFloor i } := h2.updNvm (Nvm.raiseFloor_calm ..)
  split
  · exact h2
  · exact h3.writeBootBank.complete

theorem State.Calm.switchFrame (h : s0.Calm s) : s0.Calm s.switchFrame := by
  unfold State.switchFrame
  split
  · exact h.takeOver
  · exact h.quiesce
  · exact h
  · exact h

end

end Sys2Proof.Machine
end

section
/-! SUPPORT. The memory checks, the side-band port and the rows of the time base keep what no step breaks (02_master_time.md R42 to R70;
13_sideband.md R340 to R362; 16_integrity.md R405 to R421). -/
namespace Sys2Proof.Machine
open Sys2Proof

section
variable {s0 s : State}

/-! ### Restarts and memory checks -/

theorem State.Calm.cutFlash (h : s0.Calm s) : s0.Calm s.cutFlash := by
  unfold State.cutFlash
  split
  · exact h
  · exact .ite (fun _ => h.flashWrite) fun _ => .ite (fun _ => h.freeVal.flashWrite) fun _ => h.freeVal

theorem State.Calm.endCoreRun (h : s0.Calm s) : s0.Calm s.endCoreRun := by
  unfold State.endCoreRun
  extract_lets s1 s2 reading m s3
  have h1 : s0.Calm s1 := h.forAll fun _ _ h => h.endIdent
  have h2 : s0.Calm s2 := by
    unfold s2
    clear_value s1
    split
    · exact h1
    · exact h1.cutFlash.setMark.endStage
  have h3 : s0.Calm s3 := by
    clear_value s2
    exact h2.upd (by rfl)
  exact h3.endStream.forAll fun _ _ h => h.complete

theorem State.Calm.restart (h : s0.Calm s) : s0.Calm s.restart := by
  unfold State.restart
  extract_lets d q s1
  have h1 : s0.Calm s1 := h.upd (by rfl)
  exact h1.shale.endCoreRun
theorem State.Calm.sramError {c i w} (h : s0.Calm s) : s0.Calm (s.sramError c i w) := State.Calm.shale (h.upd (by rfl))

theorem State.Calm.tableError {t e w} (h : s0.Calm s) : s0.Calm (s.tableError t e w) := by
  unfold State.tableError
  extract_lets x
  split
  · exact h.sramError
  · exact h.modTable.sramError
  · exact h.modTable.sramError

theorem State.Calm.descriptorError {n b w} (h : s0.Calm s) : s0.Calm (s.descriptorError n b w) := by
  refine .ite (fun _ => h) fun _ => ?_
  have h2 : ∀ k, s0.Calm (((s.sramError 0x13 n.val w).freeVal.2.modMot n fun a => a.markLost k).setUnsure n) := fun _ => h.sramError.freeVal.modMot.setUnsure
  exact .ite (fun _ => (h2 _).turnOff) fun _ => State.Calm.refresh (.ite (fun _ => (h2 _).stopAxis.flushQueue) fun _ => (h2 _).stopAxis)

theorem State.Calm.firmwareError {a b w} (h : s0.Calm s) : s0.Calm (s.firmwareError a b w) := by
  unfold State.firmwareError
  extract_lets s1 s2
  have h1 : s0.Calm s1 := h.sramError
  have h2 : s0.Calm s2 := h1.restart
  clear_value s2
  exact .ite (fun _ => h1) fun _ => .ite (fun _ => State.Calm.pushEntry (h2.upd (by rfl))) fun _ => h2

theorem State.Calm.scrub {r w} (h : s0.Calm s) : s0.Calm (s.scrub r w) := by
  cases r with
  | free => exact h
  | profileCache n => exact h.sramError
  | codeCache => exact h.sramError
  | microstepTable t e => exact h.tableError
  | descriptor n c => exact h.descriptorError
  | packet tag => exact .ite (fun _ => State.Calm.sramError (h.upd (by rfl))) fun _ => h
  | completion i => exact .ite (fun _ => State.Calm.sramError (h.upd (by rfl))) fun _ => h
  | firmwareData a b => exact h.firmwareError

theorem State.Calm.parityGroup {p w} (h : s0.Calm s) : s0.Calm (s.parityGroup p w) := by
  unfold State.parityGroup
  extract_lets k axis src
  exact State.Calm.shale (h.upd (by rfl))

theorem State.Calm.parityScrub {p w c} (h : s0.Calm s) : s0.Calm (s.parityScrub p w c) :=
  .ite (fun _ => .ite (fun _ => h.upd (by rfl)) fun _ => h) fun _ => .ite (fun _ => h.parityGroup) fun _ => h

/-! ### The side-band port -/

theorem State.Calm.sbWoken (h : s0.Calm s) : s0.Calm s.sbWoken := by
  unfold State.sbWoken
  extract_lets s1
  have h1 : s0.Calm s1 := h.upd (by rfl)
  clear_value s1
  exact .ite (fun _ => h1.upd (by rfl)) fun _ => h1

theorem State.Calm.settlePulse (h : s0.Calm s) : s0.Calm s.settlePulse := h.upd (by rfl)
theorem State.Calm.sbReturn {c a l} (h : s0.Calm s) : s0.Calm (s.sbReturn c a l) := h.upd (by rfl)

theorem State.Calm.sbRead {c a b} (h : s0.Calm s) (hb : ∀ t, s0.Calm t → s0.Calm (b t).2) : s0.Calm (s.sbRead c a b) := by
  unfold State.sbRead
  extract_lets s1
  have h1 : s0.Calm s1 := h.sbWoken
  split
  · exact h1.sbReturn
  · have h2 := hb s1 h1
    exact h2.upd (by rfl)

theorem State.Calm.sbDiscard {r} (h : s0.Calm s) : s0.Calm (s.sbDiscard r) := State.Calm.sbResult (h.upd (by rfl))

theorem State.Calm.sbPending {n k} (h : s0.Calm s) : s0.Calm (s.sbPending n k) := by
  unfold State.sbPending
  extract_lets act s1
  have h1 : s0.Calm s1 := h.addAction
  clear_value s1
  exact h1.upd (by rfl)

theorem State.Calm.sbDispatch {c f} (h : s0.Calm s) (hf : ∀ t, s0.Calm t → s0.Calm (f t)) : s0.Calm (s.sbDispatch c f) := by
  unfold State.sbDispatch
  extract_lets s1
  have h1 : s0.Calm s1 := .ite (fun _ => h.preempt) fun _ => h
  clear_value s1
  exact .ite (fun _ => hf _ h1) fun _ => h1.upd (by rfl)

theorem State.Calm.sbOnAxis {a c f} (h : s0.Calm s) (hf : ∀ t n, s0.Calm t → s0.Calm (f t n)) : s0.Calm (s.sbOnAxis a c f) := by
  unfold State.sbOnAxis
  split
  · exact h.sbResult
  · split
    · exact h.sbResult
    · exact hf _ _ h

theorem State.Calm.sbStop (h : s0.Calm s) : s0.Calm s.sbStop := State.Calm.startStopAll (h.upd (by rfl))

theorem State.Calm.axisStopAct {a m} (h : s0.Calm s) : s0.Calm (s.axisStopAct a m) := by
  refine h.sbOnAxis fun t n ht => ?_
  split
  · exact ht.sbPending.addSnap
  · exact ht.sbPending.addSnap
  · exact ht.endStreamOn.sbPending.startDisable

theorem State.Calm.axisEnableAct {a} (h : s0.Calm s) : s0.Calm (s.axisEnableAct a) := h.sbOnAxis fun _ _ h => h.sbPending.startEnable
theorem State.Calm.sbJogStop {n} (h : s0.Calm s) : s0.Calm (s.sbJogStop n) := State.Calm.addSnap (h.upd (by rfl))

theorem State.Calm.sbJogAct {a d} (h : s0.Calm s) : s0.Calm (s.sbJogAct a d) := by
  unfold State.sbJogAct
  extract_lets bad
  refine h.sbOnAxis fun t n ht => ?_
  extract_lets s1 s2 s3
  have h1 : s0.Calm s1 := ht.dropJogWait
  have h2 : s0.Calm s2 := .ite (fun _ => h1.sbJogStop) fun _ => h1
  have h3 : s0.Calm s3 := h2.sbPending
  clear_value s3
  exact .ite (fun _ => h1.sbJogStop.sbResult) fun _ => .ite (fun _ => h1.sbResult) fun _ => h3.upd (by rfl)

theorem State.Calm.takeAct {a} (h : s0.Calm s) : s0.Calm (s.takeAct a) :=
  h.sbOnAxis fun _ _ h => .ite (fun _ => h.sbResult) fun _ => h.sbPending.addSnap

theorem State.Calm.handBackAct {a} (h : s0.Calm s) : s0.Calm (s.handBackAct a) := by
  refine h.sbOnAxis fun t n ht => ?_
  have h1 : s0.Calm ((t.dropJogWait n .stopped 0).sbPending n .handBack) := ht.dropJogWait.sbPending
  exact State.Calm.addSnap (h1.upd (by rfl))

theorem State.Calm.sbAct {c} (h : s0.Calm s) : s0.Calm (s.sbAct c) := by
  unfold State.sbAct
  split
  · exact h.sbStop
  · exact h.axisStopAct
  · exact h.axisEnableAct
  · exact h.sbJogAct
  · exact h.takeAct
  · exact h.handBackAct
  · exact h

theorem State.Calm.sbActUnseen {c} (h : s0.Calm s) : s0.Calm (s.sbActUnseen c) := by
  unfold State.sbActUnseen
  extract_lets s1
  have h1 : s0.Calm s1 := h.sbAct
  clear_value s1
  exact h1.upd (by rfl)

theorem State.Calm.sbDrainOne (h : s0.Calm s) : s0.Calm s.sbDrainOne := by
  unfold State.sbDrainOne
  split
  · exact h
  · extract_lets own b t s1
    have ht : s0.Calm t := h.upd (by rfl)
    have h1 : s0.Calm s1 := ht.sbAct
    exact .ite (fun _ => h) fun _ => .ite (fun _ => .ite (fun _ => h1) fun _ => h1.alert) fun _ => ht.sbActUnseen

theorem State.Calm.times {f : State → State} {k} (h : s0.Calm s) (hf : ∀ t, s0.Calm t → s0.Calm (f t)) : s0.Calm (times f k s) := by
  induction k generalizing s with
  | zero => exact h
  | succ k ih => exact ih (hf s h)

theorem State.Calm.sbDrain (h : s0.Calm s) : s0.Calm s.sbDrain := h.times fun _ h => h.sbDrainOne

/-! ### Passcodes -/

theorem State.Calm.wrongPasscode (h : s0.Calm s) : s0.Calm s.wrongPasscode := by
  unfold State.wrongPasscode
  extract_lets l b s1
  have h1 : s0.Calm s1 := h.upd (by rfl)
  exact h1.shale.sbResult

theorem State.Calm.awaitReset (h : s0.Calm s) : s0.Calm s.awaitReset := h.upd (by rfl)

/-! ### Rows of the time base -/

theorem State.Calm.masterEdge {m b t} (h : s0.Calm s) : s0.Calm (s.masterEdge m b t) := h.upd (by rfl)

theorem State.Calm.quadError (h : s0.Calm s) : s0.Calm s.quadError := by
  unfold State.quadError
  extract_lets log b s1 s2
  have h1 : s0.Calm s1 := h.upd (by rfl)
  have h2 : s0.Calm s2 := h1.gfaultSet rfl
  clear_value s2
  refine .ite (fun _ => h2.upd (by rfl)) fun _ => State.Calm.noteFault (h1.updDev ⟨rfl, rfl, rfl, rfl, rfl, ?_, rfl⟩)
  rw [BitVec.getLsbD_or]
  exact Bool.or_false _

theorem State.Calm.m0Edge {a b t} (h : s0.Calm s) : s0.Calm (s.m0Edge a b t) := by
  unfold State.m0Edge
  extract_lets b s1 d
  have h1 : s0.Calm s1 := h.upd (by rfl)
  exact .ite (fun _ => h1.quadError) fun _ => .ite (fun _ => h1) fun _ => h1.masterEdge

theorem State.Calm.indexCheck (h : s0.Calm s) : s0.Calm s.indexCheck := by
  unfold State.indexCheck
  extract_lets c b s1
  have h1 : s0.Calm s1 := h.upd (by rfl)
  refine .ite (fun _ => h) fun _ => ?_
  split
  · exact h1
  · exact .ite (fun _ => h1) fun _ => h1.gfaultSet rfl

theorem State.Calm.mszEdge {b t} (h : s0.Calm s) : s0.Calm (s.mszEdge b t) := by
  unfold State.mszEdge
  extract_lets s1
  have h1 : s0.Calm s1 := h.capture
  exact .ite (fun _ => h1.indexCheck) fun _ => h1

theorem State.Calm.newLength (h : s0.Calm s) : s0.Calm s.newLength := by
  refine State.Calm.clearRings (h.updLegs (fun m hm => ?_))
  rwa [Vector.getElem_map] at hm

theorem State.Calm.tsyncEdge {t} (h : s0.Calm s) : s0.Calm (s.tsyncEdge t) := .ite (fun _ => h) fun _ => .ite (fun _ => h.upd (by rfl)) fun _ => h.upd (by rfl)

theorem State.Calm.epochLoad (h : s0.Calm s) : s0.Calm s.epochLoad := by
  unfold State.epochLoad
  split
  · exact h
  · refine .ite (fun _ => h) fun _ => State.Calm.complete ?_
    exact h.upd (by rfl)

end

end Sys2Proof.Machine
end

section
/-! SUPPORT. Resets, the stages until READY, life-cycle changes and fuses: what they keep, and the one move of the life-cycle state that each
makes (15_reset_lifecycle.md R377 to R404). -/
namespace Sys2Proof.Machine
open Sys2Proof

/-- `t` keeps what no step breaks, and its life-cycle state is that of `s` or one that an arrow of R400 leads to, with its word. -/
structure State.Lawful (s t : State) : Prop extends s.Keeps t where
  life : s.nvm.lcWord = lifeWord s.nvm.lc → lifeMove s.nvm.lc t.nvm.lc = true ∧ t.nvm.lcWord = lifeWord t.nvm.lc

theorem lifeMove_self (l : LifeCycle) : lifeMove l l = true := by simp [lifeMove]

theorem State.Keeps.lawful {s t : State} (h : s.Keeps t) (hl : t.nvm.lc = s.nvm.lc) (hw : t.nvm.lcWord = s.nvm.lcWord) : s.Lawful t :=
  ⟨h, fun hs => ⟨by rw [hl, lifeMove_self], by rw [hw, hl, hs]⟩⟩

theorem State.Calm.lawful {s t : State} (h : s.Calm t) : s.Lawful t := h.toKeeps.lawful h.life h.lifeWord

theorem State.Calm.trans_lawful {s t u : State} (h : s.Calm t) (k : t.Lawful u) : s.Lawful u := by
  refine ⟨h.toKeeps.trans k.toKeeps, fun hs => ?_⟩
  rw [← h.life]
  exact k.life (by rw [h.lifeWord, h.life, hs])

theorem State.Lawful.trans_calm {s t u : State} (h : s.Lawful t) (k : t.Calm u) : s.Lawful u := by
  refine ⟨h.toKeeps.trans k.toKeeps, fun hs => ?_⟩
  rw [k.life, k.lifeWord]
  exact h.life hs

theorem State.Lawful.ite {s a b : State} {c : Prop} [Decidable c] (ha : c → s.Lawful a) (hb : ¬c → s.Lawful b) : s.Lawful (if c then a else b) := by
  split
  · exact ha ‹_›
  · exact hb ‹_›

/-! ### A module that does not run -/

/-- Outside the running stage EN is low everywhere, and READY is 0. -/
theorem State.EnSafe.dark {s : State} (h : s.EnSafe) (hs : s.dev.stage ≠ .running) : (∀ m, (s.leg m).en = false) ∧ s.dev.ready = false := by
  obtain ⟨hen, hready⟩ := h
  refine ⟨fun m => ?_, ?_⟩
  · cases hm : (s.leg m).en with
    | false => rfl
    | true =>
      obtain ⟨-, -, -, -, -, -, -, hrun⟩ := hen m hm
      exact absurd hrun hs
  · cases hr : s.dev.ready with
    | false => rfl
    | true => exact absurd (hready hr) hs

/-- A change after which every EN line is low. -/
theorem keeps_of_dark {s t : State} (hp : t.pending = s.pending) (hq : s.q.Calm t.q) (hf : s.FusesFresh → fusesKept s t ∧ t.FusesFresh)
    (hm : s.mp.Calm t.mp) (hen : s.EnSafe → (∀ m, (t.leg m).en = false) ∧ (t.dev.ready = true → t.dev.stage = .running)) : s.Keeps t where
  pending := hp
  actions := hq
  en hs := ⟨fun m hm => (nomatch ((hen hs).1 m).symm.trans hm), (hen hs).2⟩
  fuses := hf
  flash := hm

/-! ### Fuses -/

/-- Codes written into other pins leave the code of a pin. -/
theorem foldl_set_other (l : List (Fin 144 × BitVec 2)) (f : Vector (BitVec 2) 144) (i : Fin 144) (h : ∀ r ∈ l, r.1 ≠ i) :
    (l.foldl (fun (f : Vector (BitVec 2) 144) r => f.set r.1.val r.2) f)[i.val] = f[i.val] := by
  induction l generalizing f with
  | nil => rfl
  | cons r l ih =>
    rw [List.foldl_cons, ih _ fun q hq => h q (List.mem_cons_of_mem _ hq), Vector.getElem_set_ne]
    exact fun e => h r List.mem_cons_self (Fin.ext e)

/-- Records on unprogrammed pins leave every programmed code (R395). -/
theorem blow_keeps {v : Nvm} {l : List (Fin 144 × BitVec 2)} (hl : ∀ r ∈ l, v.fuses[r.1.val] = 0) (i : Fin 144) (hi : v.fuses[i.val] ≠ 0) :
    (v.blow l).fuses[i.val] = v.fuses[i.val] :=
  foldl_set_other l v.fuses i fun r hr e => hi (e ▸ hl r hr)

theorem FusesFresh.of_none {s : State} (h : s.dev.fuseSeq = none) : s.FusesFresh := fun _ _ _ _ e => nomatch h.symm.trans e

/-- The end of a fuse sequence (R395). -/
theorem fuseEnd_lawful (s : State) : s.Lawful s.fuseEnd := by
  unfold State.fuseEnd
  split
  · exact (State.Calm.refl s).lawful
  next ref l done skipped hseq =>
    have h1 : s.Lawful { s with dev := { s.dev with fuseSeq := none }, nvm := s.nvm.blow l } := by
      refine State.Keeps.lawful ⟨rfl, id, id, fun hs => ⟨fun i hi => ?_, FusesFresh.of_none rfl⟩, id⟩ rfl rfl
      exact blow_keeps (hs _ _ _ _ hseq).2 i hi
    exact h1.trans_calm (State.Calm.refl _).settlePulse.complete

/-! ### What a reset cuts (R385) -/

/-- What a reset needs of the operations that it cuts: no programmed fuse is lost, and the life cycle and the flash form stand. -/
structure State.Cut (s t : State) : Prop where
  pending : t.pending = s.pending
  life : t.nvm.lc = s.nvm.lc
  lifeWord : t.nvm.lcWord = s.nvm.lcWord
  fuses : s.FusesFresh → fusesKept s t
  flash : s.mp.Calm t.mp

theorem State.Calm.cut {s t : State} (h : s.Calm t) : s.Cut t := ⟨h.pending, h.life, h.lifeWord, fun hs => (h.fuses hs).1, h.flash⟩

theorem State.Cut.trans_calm {s t u : State} (h : s.Cut t) (k : t.Calm u) : s.Cut u :=
  ⟨k.pending.trans h.pending, k.life.trans h.life, k.lifeWord.trans h.lifeWord,
    fun hs i hi => (congrArg (·[i.val]) k.sameFuses).trans (h.fuses hs i hi), fun hw => k.flash (h.flash hw)⟩

theorem State.Calm.trans_cut {s t u : State} (h : s.Calm t) (k : t.Cut u) : s.Cut u := by
  refine ⟨k.pending.trans h.pending, k.life.trans h.life, k.lifeWord.trans h.lifeWord, fun hs i hi => ?_, fun hw => k.flash (h.flash hw)⟩
  have e : t.nvm.fuses[i.val] = s.nvm.fuses[i.val] := congrArg (·[i.val]) h.sameFuses
  exact (k.fuses (h.fuses hs).2 i (e ▸ hi)).trans e

section
variable {s0 s : State}

theorem Nvm.cutOptions_calm (v : Nvm) (r : Vector Word 64) (c : Int) : v.Calm (v.cutOptions r c) := by
  unfold Nvm.cutOptions
  split_ifs <;> exact ⟨rfl, rfl, rfl⟩

theorem State.Calm.cutOptions (h : s0.Calm s) : s0.Calm s.cutOptions := by
  unfold State.cutOptions
  split
  · exact h
  · exact h.freeVal.updNvm (Nvm.cutOptions_calm ..)

theorem State.Calm.writeShale {e} (h : s0.Calm s) : s0.Calm (s.writeShale e) := State.Calm.alert (h.upd (by rfl))

theorem State.Calm.cutShale {e c} (h : s0.Calm s) : s0.Calm (s.cutShale e c) := by
  refine .ite (fun _ => h) fun _ => .ite (fun _ => h.upd (by rfl)) fun _ => ?_
  have h1 : s0.Calm (s.writeShale e) := h.writeShale
  generalize s.writeShale e = s1 at h1
  exact h1.upd (by rfl)

theorem State.Calm.cutLog (h : s0.Calm s) : s0.Calm s.cutLog := by
  unfold State.cutLog
  split
  · exact h
  · exact .ite (fun _ => h) fun _ => h.freeVal.cutShale

/-- Of a fuse sequence that a reset cuts only the first records are programmed. -/
theorem cutFuses_cut (s : State) : s.Cut s.cutFuses := by
  unfold State.cutFuses
  split
  · exact (State.Calm.refl s).cut
  next ref l done skipped hseq =>
    refine ⟨rfl, rfl, rfl, fun hs i hi => ?_, fun h => h⟩
    exact blow_keeps (fun r hr => (hs _ _ _ _ hseq).2 r (List.mem_of_mem_take hr)) i hi

end

theorem cut_of_reset (s : State) : s.Cut s.cutNvm.cutFlash :=
  (((State.Calm.refl s).cutOptions.trans_cut (cutFuses_cut _)).trans_calm (State.Calm.refl _).cutLog).trans_calm (State.Calm.refl _).cutFlash

/-! ### Device resets -/

theorem resetCore_keeps (s : State) (src : Fin 7) : s.Keeps (s.resetCore src) := by
  have h := cut_of_reset s
  unfold State.resetCore
  extract_lets s1 fused stage
  change s.Cut s1 at h
  clear_value s1
  refine keeps_of_dark h.pending (fun _ _ ha => nomatch ha) (fun hs => ⟨h.fuses hs, FusesFresh.of_none rfl⟩) h.flash fun _ => ⟨fun m => ?_, fun hr => nomatch hr⟩
  show ((Vector.replicate 192 ({} : Leg))[m.val]).en = false
  rw [Vector.getElem_replicate]

theorem resetCore_life (s : State) (src : Fin 7) : (s.resetCore src).nvm.lc = s.nvm.lc := (cut_of_reset s).life
theorem resetCore_lifeWord (s : State) (src : Fin 7) : (s.resetCore src).nvm.lcWord = s.nvm.lcWord := (cut_of_reset s).lifeWord

theorem changeLife_keeps (s : State) (l : LifeCycle) : s.Keeps (s.changeLife l) :=
  ⟨rfl, fun h => h, fun h => h, fun h => ⟨fun _ _ => rfl, h⟩, fun h => h⟩

@[simp] theorem changeLife_lc (s : State) (l : LifeCycle) : (s.changeLife l).nvm.lc = l := rfl
@[simp] theorem changeLife_lcWord (s : State) (l : LifeCycle) : (s.changeLife l).nvm.lcWord = lifeWord l := rfl

/-- A device reset: SERVICE falls back to FIELD, every other state stays (R403). -/
theorem startReset_lawful (s : State) (src : Fin 7) : s.Lawful (s.startReset src) := by
  unfold State.startReset
  split
  · next h =>
    simp only [Bool.and_eq_true, decide_eq_true_eq] at h
    refine ⟨(changeLife_keeps s .field).trans (resetCore_keeps _ src), fun _ => ?_⟩
    rw [resetCore_life, resetCore_lifeWord, h.1]
    exact ⟨rfl, rfl⟩
  · exact (resetCore_keeps s src).lawful (resetCore_life s src) (resetCore_lifeWord s src)

theorem startReset_lifeChange (s : State) : s.startReset 2 = s.resetCore 2 := by simp [State.startReset]

/-- An accepted transition moves the life-cycle state to the one it names (R401). -/
theorem transition_lawful (s : State) (l : LifeCycle) (h : lifeMove s.nvm.lc l = true) : s.Lawful (s.transition l) := by
  unfold State.transition
  rw [startReset_lifeChange]
  refine ⟨(changeLife_keeps s l).trans (State.Keeps.trans ?_ (resetCore_keeps _ 2)), fun _ => ?_⟩
  · exact ⟨rfl, id, id, fun h => ⟨fun _ _ => rfl, h⟩, id⟩
  rw [resetCore_life, resetCore_lifeWord]
  exact ⟨h, rfl⟩

/-! ### The stages until READY -/

/-- One stage before READY follows another: the rest of what changes bears on nothing here. -/
theorem stage_keeps {s : State} {d : Device} {v : Nvm} {b : SideBand} (hs : s.dev.stage ≠ .running) (hr : d.ready = s.dev.ready)
    (hq : d.fuseSeq = s.dev.fuseSeq) (hv : v.fuses = s.nvm.fuses) : s.Keeps { s with dev := d, nvm := v, sb := b } := by
  refine keeps_of_dark rfl (fun h => h) (fun h => ⟨fun i _ => congrArg (·[i.val]) hv, ?_⟩) (fun h => h) fun hen => ?_
  · unfold State.FusesFresh
    rw [hv]
    exact hq ▸ h
  · obtain ⟨hdark, hready⟩ := hen.dark hs
    exact ⟨hdark, fun h => nomatch hready.symm.trans (hr.symm.trans h)⟩

theorem stage_lawful {s : State} {d : Device} {v : Nvm} {b : SideBand} (hs : s.dev.stage ≠ .running) (hr : d.ready = s.dev.ready)
    (hq : d.fuseSeq = s.dev.fuseSeq) (hn : s.nvm.Calm v) : s.Lawful { s with dev := d, nvm := v, sb := b } :=
  (stage_keeps hs hr hq hn.fuses).lawful hn.lc hn.lcWord

theorem stageEnd_lawful {s : State} {st : Stage} {f : State → State} (h : s.dev.stage = st → s.Lawful (f s)) : s.Lawful (s.stageEnd st f) :=
  .ite h fun _ => (State.Calm.refl s).lawful

theorem Nvm.finishErasure_calm (v : Nvm) : v.Calm v.finishErasure := by
  unfold Nvm.finishErasure
  split <;> exact ⟨rfl, rfl, rfl⟩

theorem lifeOf_lifeWord (l : LifeCycle) : lifeOf (lifeWord l) = l := by cases l <;> decide

theorem lifeOf_none {w : BitVec 64} (h : ∀ l, w ≠ lifeWord l) : lifeOf w = .retired := by
  simp only [lifeOf, h, if_false]

/-- The options load takes the life-cycle state from its word (R401). -/
theorem optionsLoaded_lc (s : State) (b : Bool) : (s.optionsLoaded b).nvm.lc = lifeOf s.nvm.lcWord :=
  (Nvm.finishErasure_calm { s.nvm with lc := lifeOf s.nvm.lcWord }).lc

theorem optionsLoaded_lawful (s : State) (b : Bool) (h : s.dev.stage = .optionsLoad) : s.Lawful (s.optionsLoaded b) := by
  have hrun : s.dev.stage ≠ .running := by rw [h]; decide
  refine ⟨?_, fun hw => ?_⟩
  · unfold State.optionsLoaded
    generalize s.nvm.loadRecord = x
    obtain ⟨r, aBad⟩ := x
    refine State.Keeps.trans ?_ (State.Calm.refl _).loadTrims.toKeeps
    exact stage_keeps hrun rfl rfl (Nvm.finishErasure_calm { s.nvm with lc := lifeOf s.nvm.lcWord }).fuses
  · have hlc : lifeOf s.nvm.lcWord = s.nvm.lc := by rw [hw, lifeOf_lifeWord]
    have hword : (s.optionsLoaded b).nvm.lcWord = s.nvm.lcWord := (Nvm.finishErasure_calm { s.nvm with lc := lifeOf s.nvm.lcWord }).lcWord
    rw [hword, optionsLoaded_lc, hlc, hw]
    exact ⟨lifeMove_self _, rfl⟩

/-- READY rises only where the module runs. -/
theorem raiseReady_calm {s : State} (hrun : s.dev.stage = .running) : s.Calm s.raiseReady := by
  unfold State.raiseReady
  extract_lets d m s1 s2 s3 b
  have h1 : s.Calm s1 := by
    refine ⟨⟨rfl, id, fun hs => ⟨hs.1, fun _ => hrun⟩, fun h => ⟨fun _ _ => rfl, h⟩, id⟩, rfl, rfl, rfl, rfl⟩
  have h2 : s.Calm s2 := h1.shale
  have h3 : s.Calm s3 := .ite (fun _ => h2.shale) fun _ => h2
  clear_value s3
  exact .ite (fun _ => State.Calm.alert (State.Calm.sbResult (h3.upd (by rfl)))) fun _ => h3

/-- The end of the RAM wipe: the module runs, its EN lines low. -/
theorem boot_lawful (s : State) (a b : Option Sfdp) (h : s.dev.stage = .ramWipe) : s.Lawful (s.boot a b) := by
  have hrun : s.dev.stage ≠ .running := by rw [h]; decide
  have h0 : s.Lawful { s with mp := { s.mp with chip0 := a, chip1 := b }, dev := { s.dev with stage := .running } } := by
    refine State.Keeps.lawful (keeps_of_dark rfl (fun h => h) (fun h => ⟨fun _ _ => rfl, h⟩) (fun h => h) fun hen => ?_) rfl rfl
    exact ⟨(hen.dark hrun).1, fun _ => rfl⟩
  unfold State.boot
  extract_lets d m s1
  have h1 : s.Lawful s1 := h0.trans_calm (State.Calm.refl _).discover
  refine .ite (fun _ => ?_) fun _ => .ite (fun _ => h1) fun _ => h1.trans_calm (raiseReady_calm rfl)
  refine State.Keeps.lawful (keeps_of_dark rfl (fun h => h) (fun h => ⟨fun _ _ => rfl, h⟩) (fun h => h) fun hen => ?_) rfl rfl
  exact ⟨(hen.dark hrun).1, fun _ => rfl⟩

/-! ### The opcodes of resets, of the life cycle and of fuses -/

theorem runPacket_lawful {s : State} {c : CoreId} {m : Packet → Bool} {f : State → Packet → State} (hf : ∀ t p, s.Calm t → s.Lawful (f t p)) :
    s.Lawful (s.runPacket c m f) := by
  refine .ite (fun _ => ?_) fun _ => (State.Calm.refl s).lawful
  split
  · exact (State.Calm.refl s).lawful
  · unfold State.act
    split
    · exact (State.Calm.refl s).dropPacket.refuse.lawful
    · exact hf _ _ (State.Calm.refl s).dropPacket

theorem guarded_lawful {s t : State} {p : Packet} {l : List Check} {f : State → State} (h : s.Calm t)
    (hf : firstFailure l = none → s.Lawful (f t)) : s.Lawful (t.guarded p l f) := by
  unfold State.guarded
  split
  · exact h.refuse.lawful
  · exact hf ‹_›

/-- Checks that all pass: each of them. -/
theorem firstFailure_none {l : List Check} (h : firstFailure l = none) {c : Check} (hc : c ∈ l) : c.1 = false := by
  have h1 : l.find? (fun c => c.1) = none := by simpa [firstFailure] using h
  simpa using List.find?_eq_none.1 h1 c hc

theorem lifecycleBody_lawful {s t : State} {p : Packet} (h : s.Calm t) : s.Lawful (lifecycleBody t p) := by
  unfold Machine.lifecycleBody
  extract_lets op
  refine guarded_lawful h fun hok => .ite (fun _ => h.done.lawful) fun hop => h.trans_lawful (transition_lawful _ _ ?_)
  have hallowed : lifeAllowed op t.nvm.lc = true := by
    simpa [badState] using firstFailure_none hok (c := badState (!lifeAllowed op t.nvm.lc)) List.mem_cons_self
  have hrange : ¬3 < op := by
    simpa [badField] using firstFailure_none hok (c := badField 0 (3 < op)) (by simp [State.lifeChecks, op])
  clear_value op
  have h123 : op = 1 ∨ op = 2 ∨ op = 3 := by omega
  rcases h123 with rfl | rfl | rfl <;> revert hallowed <;> cases t.nvm.lc <;> decide

theorem deviceResetBody_lawful {s t : State} {p : Packet} (h : s.Calm t) : s.Lawful (deviceResetBody t p) :=
  guarded_lawful h fun _ => h.trans_lawful (startReset_lawful t 5)

/-- What the checks of FUSE_PROGRAM say of record `i`: its pin is a fuse pin, and no earlier record names it (R337). -/
theorem fuseRecord_ok {s : State} {par : List Byte} (h : firstFailure (s.fuseChecks par) = none) {i : Nat} (hi : i < uAt par 2 1) :
    fusePin ((fuseRecords par).getD i (0, 0)).1 = true
      ∧ ∀ x ∈ (fuseRecords par).take i, x.1 ≠ ((fuseRecords par).getD i (0, 0)).1 := by
  have hc := firstFailure_none h (c := badField (4 + 2 * i) (!fusePin ((fuseRecords par).getD i (0, 0)).1 ||
    ((fuseRecords par).take i).any fun x => x.1 = ((fuseRecords par).getD i (0, 0)).1))
    (List.mem_append_left _ (List.mem_append_right _ (List.mem_flatMap.2 ⟨i, List.mem_range.2 hi, List.mem_cons_self⟩)))
  simpa [badField] using hc

theorem fusePin_lt {i : Nat} (h : fusePin i = true) : i < 144 := by
  simp only [fusePin, Bool.or_eq_true, Bool.and_eq_true, decide_eq_true_eq] at h
  omega

@[simp] theorem length_fuseRecords (par : List Byte) : (fuseRecords par).length = uAt par 2 1 := by simp [fuseRecords]

theorem fuseRecord_lt {s : State} {par : List Byte} (h : firstFailure (s.fuseChecks par) = none) {r : Nat × Nat} (hr : r ∈ fuseRecords par) :
    r.1 < 144 := by
  obtain ⟨i, hi, rfl⟩ := List.getElem_of_mem hr
  have hok := (fuseRecord_ok h (by simpa using hi)).1
  rw [List.getD_eq_getElem _ _ hi] at hok
  exact fusePin_lt hok

/-- The records of a FUSE_PROGRAM that passes its checks name different pins. -/
theorem fuseRecords_distinct {s : State} {par : List Byte} (h : firstFailure (s.fuseChecks par) = none) :
    (fuseRecords par).Pairwise fun a b => a.1 ≠ b.1 := by
  refine List.pairwise_iff_getElem.2 fun i j hi hj hij => ?_
  have hok := (fuseRecord_ok h (by simpa using hj)).2
  rw [List.getD_eq_getElem _ _ hj] at hok
  exact hok _ (List.mem_take_iff_getElem.2 ⟨i, by omega, rfl⟩)

/-- The pins that a FUSE_PROGRAM has to program. -/
def State.fuseTodo (s : State) (par : List Byte) : List (Fin 144 × BitVec 2) :=
  ((fuseRecords par).filter fun r => !s.blown r.1).map fun r => (Fin.ofNat 144 r.1, BitVec.ofNat 2 r.2)

/-- They differ, and none is programmed (R395). -/
theorem fuseTodo_fresh {s : State} {par : List Byte} (h : firstFailure (s.fuseChecks par) = none) :
    ((s.fuseTodo par).map (·.1)).Nodup ∧ ∀ r ∈ s.fuseTodo par, s.nvm.fuses[r.1.val] = 0 := by
  refine ⟨?_, fun r hr => ?_⟩
  · unfold State.fuseTodo
    rw [List.map_map]
    refine List.pairwise_map.2 (((fuseRecords_distinct h).filter _).imp_of_mem fun {a b} ha hb hab e => hab ?_)
    have ha' := fuseRecord_lt h (List.mem_filter.1 ha).1
    have hb' := fuseRecord_lt h (List.mem_filter.1 hb).1
    have e' : a.1 % 144 = b.1 % 144 := congrArg Fin.val e
    omega
  · obtain ⟨x, hx, rfl⟩ := List.mem_map.1 hr
    obtain ⟨hmem, hblown⟩ := List.mem_filter.1 hx
    have hlt := fuseRecord_lt h hmem
    simpa [State.blown, hlt, Fin.ofNat, Nat.mod_eq_of_lt hlt] using hblown

theorem State.Calm.wonceViols {s0 s : State} {l : List (Nat × Nat)} (h : s0.Calm s) : s0.Calm (s.forAll l fun s _ => s.wonceViol .host) :=
  h.forAll fun _ _ h => h.wonceViol

/-- A fuse sequence starts on fresh records. -/
theorem fuseProgramBody_calm {s0 s : State} {p : Packet} (h : s0.Calm s) : s0.Calm (fuseProgramBody s p) := by
  unfold Machine.fuseProgramBody State.guarded
  split
  · exact h.refuse
  next hok =>
    have h1 : s.Calm (s.forAll ((fuseRecords p.params).filter fun r => s.blown r.1) fun s _ => s.wonceViol .host) := (State.Calm.refl s).wonceViols
    refine .ite (fun _ => (h.trans h1).done) fun _ => (h.trans h1).trans ?_
    generalize (s.forAll ((fuseRecords p.params).filter fun r => s.blown r.1) fun s _ => s.wonceViol .host) = s1 at h1
    refine ⟨⟨rfl, id, id, fun _ => ⟨fun _ _ => rfl, fun ref l done skipped e => ?_⟩, id⟩, rfl, rfl, rfl, rfl⟩
    obtain ⟨-, rfl, -, -⟩ := (Prod.mk.injEq .. ▸ Prod.mk.injEq .. ▸ Prod.mk.injEq .. ▸ Option.some.inj e :
      p.ref = ref ∧ s.fuseTodo p.params = l ∧ (s.fuseTodo p.params).length = done ∧ _ = skipped)
    obtain ⟨hnodup, hzero⟩ := fuseTodo_fresh hok
    exact ⟨hnodup, fun r hr => (congrArg (·[r.1.val]) h1.sameFuses).trans (hzero r hr)⟩

end Sys2Proof.Machine
end

section
/-! SUPPORT. Every command answers a next state, which keeps what no step breaks (11_queues_packets.md R297, R304; 15_reset_lifecycle.md R395,
R400). -/
namespace Sys2Proof.Machine
open Sys2Proof

section
variable {s0 s : State}

/-! ### Safe-off and the clock -/

theorem State.Calm.safeActClear (h : s0.Calm s) : s0.Calm { s with dev :=
    if s.dev.safeDisc && !s.dev.bothLow then { s.dev with safeA := true, safeB := true, discNow := false }
    else { s.dev with safeA := true, safeB := true, discNow := false, safeAct := s.dev.step3.any (fun e => e.2.isSafe), safeDisc := false
                      bothLow := false } } := by
  refine h.trans ?_
  split <;> refine calm_of_permitted rfl ⟨rfl, rfl, rfl⟩ rfl id rfl id id fun m hm => ⟨hm, fun ⟨_, _, hp⟩ => ⟨rfl, rfl, hp⟩⟩

/-- A discrepancy is seen only where an input is low already, and so no EN line is high. -/
theorem State.Calm.safeDisc {b : Bool} (h : s0.Calm s) (hlow : ¬(s.dev.safeA && s.dev.safeB) = true) :
    s0.Calm { s with dev := { s.dev with safeA := !b, safeB := b, safeDisc := true, discNow := true, bothLow := false, safeAct := true } } := by
  refine h.trans (calm_of_permitted rfl ⟨rfl, rfl, rfl⟩ rfl id rfl id id fun m hm => ⟨hm, fun ⟨ha, hb, _⟩ => absurd ?_ hlow⟩)
  rw [ha, hb]
  rfl

/-- A flag of GFAULT touches nothing but device registers and alerts. -/
theorem gfaultSet_frame (s : State) (i : Nat) : ∃ d b, s.gfaultSet i = { s with dev := d, sb := b } ∧ d.stage = s.dev.stage ∧ d.fuseSeq = s.dev.fuseSeq := by
  unfold State.gfaultSet State.shale
  split_ifs <;> exact ⟨_, _, rfl, rfl, rfl⟩

/-- A lost clock forbids EN everywhere, and every EN line goes low with it (R28). -/
theorem State.Calm.clkLost (h : s0.Calm s) : s0.Calm (s.gfaultSet 0).enterSafeHold := by
  obtain ⟨d, b, e, hstage, hseq⟩ := gfaultSet_frame s 0
  have h1 : (s.gfaultSet 0).Calm (s.gfaultSet 0).enterSafeHold := (State.Calm.refl _).enterSafeHold
  have hdark := enterSafeHold_dark (s.gfaultSet 0)
  have hready : (s.gfaultSet 0).enterSafeHold.dev.ready = false := rfl
  rw [e] at h1 hdark hready ⊢
  generalize State.enterSafeHold { s with dev := d, sb := b } = t at h1 hdark hready
  refine h.trans ⟨⟨h1.pending, h1.actions, fun _ => ⟨fun m hm => (nomatch (hdark m).symm.trans hm), fun hr => nomatch hready.symm.trans hr⟩,
    fun hf => ⟨fun i _ => congrArg (·[i.val]) h1.sameFuses, (h1.fuses ?_).2⟩, h1.flash⟩, h1.life, h1.lifeWord, h1.sameFuses, h1.stage.trans hstage⟩
  unfold State.FusesFresh
  exact hseq ▸ hf

/-! ### Write commands of the side-band port -/

theorem State.Calm.sbWrite {c d p g b} (h : s0.Calm s) (hb : ∀ t, s0.Calm t → s0.Calm (b t)) : s0.Calm (s.sbWrite c d p g b) := by
  unfold State.sbWrite
  extract_lets s1 sb s2
  have h1 : s0.Calm s1 := h.sbWoken
  have h2 : s0.Calm s2 := by
    clear_value s1
    exact h1.upd (by rfl)
  refine .ite (fun _ => h1.sbDiscard) fun _ => ?_
  split
  · exact h2.sbResult
  · exact hb _ h2

theorem State.Calm.sbCommand {c d p i f} (h : s0.Calm s) (hf : ∀ t, s0.Calm t → s0.Calm (f t)) : s0.Calm (s.sbCommand c d p i f) :=
  h.sbWrite fun _ h => h.sbDispatch hf

theorem sbWrite_lawful {c d p g b} (hb : ∀ t, s.Calm t → s.Lawful (b t)) : s.Lawful (s.sbWrite c d p g b) := by
  unfold State.sbWrite
  extract_lets s1 sb s2
  have h1 : s.Calm s1 := (State.Calm.refl s).sbWoken
  have h2 : s.Calm s2 := by
    clear_value s1
    exact h1.upd (by rfl)
  refine .ite (fun _ => h1.sbDiscard.lawful) fun _ => ?_
  split
  · exact h2.sbResult.lawful
  · exact hb _ h2

theorem State.Calm.passcodeSet {c n : BitVec 64} {b : Bool} (h : s0.Calm s) :
    s0.Calm (s.passcodeGuard b c fun s => State.sbResult { s with nvm := { s.nvm with passcode := n } } Status.ok.code) :=
  .ite (fun _ => h.sbResult) fun _ => .ite (fun _ => h.sbResult) fun _ => .ite (fun _ => State.Calm.sbResult (h.upd (by rfl))) fun _ => h.wrongPasscode

/-- SERVICE is entered from FIELD alone (R360). -/
theorem serviceEnter_lawful {c : BitVec 64} (h : s0.Calm s) :
    s0.Lawful (s.passcodeGuard (s.nvm.lc ≠ .field || s.anyEnabled) c fun s => s.awaitReset.transition .service) := by
  refine .ite (fun _ => h.sbResult.lawful) fun _ => .ite (fun _ => h.sbResult.lawful) fun hbad =>
    .ite (fun _ => h.awaitReset.trans_lawful (transition_lawful _ _ ?_)) fun _ => h.wrongPasscode.lawful
  simp only [ne_eq, decide_not, Bool.or_eq_true, Bool.not_eq_true', decide_eq_false_iff_not, not_or, not_not] at hbad
  exact (congrArg (lifeMove · .service) hbad.1).trans rfl

theorem State.Calm.status (h : s0.Calm s) : s0.Calm { s with sb := { s.sb with regErr := 0, causes := 0, announced := 0 } } := h.upd (by rfl)

theorem State.Calm.writeBootBank_pending {b} (h : s0.Calm s) :
    s0.Calm (State.writeBootBank { s with sb := { s.sb with result := 0x80, pendBank := true } } b) := State.Calm.writeBootBank (h.upd (by rfl))

theorem State.Calm.settlePulse_upd {b} (h : s0.Calm s) : s0.Calm (State.settlePulse { s with sb := b }) := State.Calm.settlePulse (h.upd (by rfl))

/-! ### The end of an NVM operation -/

theorem State.Calm.bankResult {b} (h : s0.Calm s) : s0.Calm (s.bankResult b) := .ite (fun _ => h.sbResult.alert) fun _ => h

theorem State.Calm.optionsEnd {b} (h : s0.Calm s) : s0.Calm (s.optionsEnd b) := by
  unfold State.optionsEnd
  split
  · exact h
  next r _ =>
    extract_lets d s1
    have h1 : s0.Calm s1 := h.upd (by rfl)
    clear_value s1
    refine .ite (fun _ => State.Calm.bankResult (State.Calm.settlePulse (State.Calm.shale ?_))) fun _ =>
      State.Calm.bankResult (State.Calm.settlePulse (h1.upd (by rfl)))
    have h2 : s0.Calm s1.freeVal.2 := h1.freeVal
    refine h2.updParts ⟨rfl, rfl, rfl, rfl, rfl, rfl, rfl⟩ ?_ (.refl _) (.refl _) id id
    split <;> exact ⟨rfl, rfl, rfl⟩

theorem State.Calm.shaleEnd (h : s0.Calm s) : s0.Calm s.shaleEnd := by
  unfold State.shaleEnd
  split
  · exact h
  next e l _ =>
    extract_lets d s1 n
    have h1 : s0.Calm s1 := State.Calm.writeShale (h.upd (by rfl))
    exact .ite (fun _ => h1) fun _ => State.Calm.shale (h1.upd (by rfl))

theorem nvmEnd_lawful {j : NvmJob} {b : Bool} : s.Lawful (s.nvmEnd j b) := by
  cases j with
  | options => exact (State.Calm.refl s).optionsEnd.lawful
  | fuse => exact fuseEnd_lawful s
  | shale => exact (State.Calm.refl s).shaleEnd.lawful

theorem State.Calm.blockResetBody {p} (h : s0.Calm s) : s0.Calm (blockResetBody s p) := by
  unfold Machine.blockResetBody
  extract_lets b
  refine h.guarded fun t ht => ?_
  split
  · exact ht.requestBlock.answer
  · have h1 : s0.Calm (t.requestBlock b false) := ht.requestBlock
    generalize t.requestBlock b false = t1 at h1
    exact h1.upd (by rfl)

end

/-! ### Every command -/

/-- A frame passes only where the module runs. -/
theorem framing_running {s : State} (h : s.framing = true) : s.dev.stage = .running := by
  simp only [State.framing, Bool.and_eq_true, decide_eq_true_eq] at h
  exact h.1

theorem nvmPulseEnd_lawful (s : State) : s.Lawful (if s.dev.stage = .running then s
    else State.stageEnd { s with nvm := { s.nvm with pulse := false } } .nvmDeferral State.toLoad) := by
  refine .ite (fun _ => (State.Calm.refl s).lawful) fun hs => .ite (fun _ => ?_) fun _ => ?_
  · exact stage_lawful hs rfl rfl ⟨rfl, rfl, rfl⟩
  · exact (State.Calm.upd (.refl s) (by rfl)).lawful

/-! ### Rows of the side-band port -/

theorem execSbTransactionError_lawful (e : SbError) (s : State) : ∃ t, execSbTransactionError e s = .next t ∧ s.Lawful t := by
  refine ⟨_, rfl, State.Calm.lawful ?_⟩
  have h : s.Calm s.sbWoken := (State.Calm.refl s).sbWoken
  split
  · exact h.sbDiscard
  · exact h

theorem execWake_lawful (v : Byte) (p : Option Byte) (s : State) : ∃ t, execWake v s p = .next t ∧ s.Lawful t := by
  refine ⟨_, rfl, State.Calm.lawful (State.Calm.sbWrite (.refl s) fun t ht => .ite (fun _ => ht.sbResult) fun _ => ?_)⟩
  have h1 : s.Calm (t.sbResult Status.ok.code) := ht.sbResult
  exact .ite (fun _ => h1.upd (by rfl)) fun _ => h1

theorem execRegRead_lawful (p w : Byte) (s : State) : ∃ t, execRegRead p w s = .next t ∧ s.Lawful t := by
  refine ⟨_, rfl, State.Calm.lawful (State.Calm.sbRead (.refl s) fun t ht => ?_)⟩
  split
  · exact ht.regRead
  · exact State.Calm.regError (p := .sideband) (c := 1) ht

theorem execEnvRead_lawful (a : Byte) (s : State) : ∃ t, execEnvRead a s = .next t ∧ s.Lawful t := by
  refine ⟨_, rfl, State.Calm.lawful (State.Calm.sbRead (.refl s) fun t ht => ?_)⟩
  split
  · exact ht
  · split
    · exact ht.upd (by rfl)
    · exact ht

theorem execAxisRead_lawful (a : Byte) (s : State) : ∃ t, execAxisRead a s = .next t ∧ s.Lawful t := by
  refine ⟨_, rfl, State.Calm.lawful (State.Calm.sbRead (.refl s) fun t ht => ?_)⟩
  split <;> exact ht

theorem execAlertResponse_lawful (b : Bool) (s : State) : ∃ t, execAlertResponse b s = .next t ∧ s.Lawful t := by
  refine ⟨_, rfl, State.Calm.lawful ?_⟩
  have h1 : s.Calm s.sbSettings := State.Calm.upd (.refl s) (by rfl)
  exact .ite (fun _ => h1.upd (by rfl)) fun _ => h1

/-- Every command answers a next state, and nothing that no step breaks is broken in it. -/
theorem exec_lawful (c : Instr) (s : State) : ∃ t, exec c s = .next t ∧ s.Lawful t := by
  have h : s.Calm s := .refl s
  cases c with
  | registerReadFrame f => exact ⟨_, rfl, h.readFrame.lawful⟩
  | registerWrite f => exact ⟨_, rfl, h.writeFrame.lawful⟩
  | loReadLatch p g w => exact ⟨_, rfl, h.regRead.lawful⟩
  | hiWriteCommit p g w v => exact ⟨_, rfl, h.regWrite.lawful⟩
  | packetPush f => exact ⟨_, rfl, h.pushFrame.lawful⟩
  | completionPull f => exact ⟨_, rfl, h.pullFrame.lawful⟩
  | arbiterDispatch k => exact ⟨_, rfl, h.sbDrain.dispatch.lawful⟩
  | echo k => exact ⟨_, rfl, (h.runOpcode fun _ _ h => h.echoBody).lawful⟩
  | identify k => exact ⟨_, rfl, (h.runOpcode fun _ _ h => h.identifyBody).lawful⟩
  | configAxis k => exact ⟨_, rfl, (h.runOpcode fun _ _ h => h.configAxisBody).lawful⟩
  | configGroup k => exact ⟨_, rfl, (h.runOpcode fun _ _ h => h.configGroupBody).lawful⟩
  | bindMaster k => exact ⟨_, rfl, (h.runOpcode fun _ _ h => h.bindBody).lawful⟩
  | routeAxio k => exact ⟨_, rfl, (h.runOpcode fun _ _ h => h.routeBody).lawful⟩
  | setPosition k => exact ⟨_, rfl, (h.runOpcode fun _ _ h => h.setPositionBody).lawful⟩
  | moveAbs k => exact ⟨_, rfl, (h.runOpcode fun _ _ h => h.segmentBody).lawful⟩
  | moveRel k => exact ⟨_, rfl, (h.runOpcode fun _ _ h => h.segmentBody).lawful⟩
  | velocity k => exact ⟨_, rfl, (h.runOpcode fun _ _ h => h.segmentBody).lawful⟩
  | gear k => exact ⟨_, rfl, (h.runOpcode fun _ _ h => h.segmentBody).lawful⟩
  | dose k => exact ⟨_, rfl, (h.runOpcode fun _ _ h => h.segmentBody).lawful⟩
  | hold k => exact ⟨_, rfl, (h.runOpcode fun _ _ h => h.segmentBody).lawful⟩
  | home k => exact ⟨_, rfl, (h.runOpcode fun _ _ h => h.segmentBody).lawful⟩
  | setSpeed k => exact ⟨_, rfl, (h.runOpcode fun _ _ h => h.setSpeedBody).lawful⟩
  | setAccel k => exact ⟨_, rfl, (h.runOpcode fun _ _ h => h.setAccelBody).lawful⟩
  | stop k => exact ⟨_, rfl, (h.runOpcode fun _ _ h => h.stopBody).lawful⟩
  | quickstop k => exact ⟨_, rfl, (h.runOpcode fun _ _ h => h.stopBody).lawful⟩
  | disable k => exact ⟨_, rfl, (h.runOpcode fun _ _ h => h.disableBody).lawful⟩
  | enable k => exact ⟨_, rfl, (h.runOpcode fun _ _ h => h.enableBody).lawful⟩
  | flush k => exact ⟨_, rfl, (h.runOpcode fun _ _ h => h.flushBody).lawful⟩
  | batchDefine k => exact ⟨_, rfl, (h.runPacket fun _ _ h => h.batchDefineBody).lawful⟩
  | batchClose k => exact ⟨_, rfl, (h.runPacket fun _ _ h => h.batchCloseBody).lawful⟩
  | diagnose k => exact ⟨_, rfl, (h.runOpcode fun _ _ h => h.diagnoseBody).lawful⟩
  | identifyMotor k => exact ⟨_, rfl, (h.runOpcode fun _ _ h => h.identifyMotorBody).lawful⟩
  | readAxis k => exact ⟨_, rfl, (h.runOpcode fun _ _ h => h.readAxisBody).lawful⟩
  | readGroup k => exact ⟨_, rfl, (h.runOpcode fun _ _ h => h.readGroupBody).lawful⟩
  | loadTable k => exact ⟨_, rfl, (h.runOpcode fun _ _ h => h.loadTableBody).lawful⟩
  | loadLibrary k => exact ⟨_, rfl, (h.runOpcode fun _ _ h => h.loadLibraryBody).lawful⟩
  | libraryStreamResume => exact ⟨_, rfl, h.streamStep.lawful⟩
  | clearFault k => exact ⟨_, rfl, (h.runOpcode fun _ _ h => h.clearFaultBody).lawful⟩
  | ownership k => exact ⟨_, rfl, (h.runOpcode fun _ _ h => h.ownershipBody).lawful⟩
  | fwStage k => exact ⟨_, rfl, (h.runOpcode fun _ _ h => h.fwStageBody).lawful⟩
  | fwSwitch k => exact ⟨_, rfl, (h.runOpcode fun _ _ h => h.fwSwitchBody).lawful⟩
  | fwCodeLoadEnd => exact ⟨_, rfl, h.codeLoadEnd.sbDrain.lawful⟩
  | lifecycle k => exact ⟨_, rfl, runPacket_lawful fun _ _ h => lifecycleBody_lawful h⟩
  | fuseProgram k => exact ⟨_, rfl, (h.runOpcode fun _ _ h => fuseProgramBody_calm h).lawful⟩
  | deviceReset k => exact ⟨_, rfl, runPacket_lawful fun _ _ h => deviceResetBody_lawful h⟩
  | blockReset k => exact ⟨_, rfl, (h.runOpcode fun _ _ h => h.blockResetBody).lawful⟩
  | syncEpoch k => exact ⟨_, rfl, (h.runOpcode fun _ _ h => h.syncEpochBody).lawful⟩
  | epochLoad => exact ⟨_, rfl, h.epochLoad.lawful⟩
  | stopAll k => exact ⟨_, rfl, (h.runOpcode fun _ _ h => h.startStopAll).lawful⟩
  | frameBoundary i => exact ⟨_, rfl, (State.Calm.ite (fun hf => (h.frame fun _ => framing_running hf).switchFrame.sbDrain) fun _ => h).lawful⟩
  | missedCommit g => exact ⟨_, rfl, h.missedCommit.lawful⟩
  | segmentStart n => exact ⟨_, rfl, h.tryStart.refresh.lawful⟩
  | segmentEnd n => exact ⟨_, rfl, h.endDone.refresh.lawful⟩
  | velocityReanchor n => exact ⟨_, rfl, h.reanchor.refresh.lawful⟩
  | deadline n => exact ⟨_, rfl, h.deadlines.refresh.lawful⟩
  | homeTimeout n => exact ⟨_, rfl, h.homeTimeout.refresh.lawful⟩
  | m0EncoderEdge a b t => exact ⟨_, rfl, h.m0Edge.lawful⟩
  | stpEdge i d t => exact ⟨_, rfl, h.masterEdge.lawful⟩
  | mszIndexEdge r t => exact ⟨_, rfl, h.mszEdge.lawful⟩
  | masterStandstill m t => exact ⟨_, rfl, (State.Calm.ite (fun _ => h.upd (by rfl)) fun _ => h).lawful⟩
  | rateEpochApply v => exact ⟨_, rfl, (State.Calm.ite (fun _ => h.upd (by rfl)) fun _ => h).lawful⟩
  | flenApply => exact ⟨_, rfl, (State.Calm.ite (fun _ => h) fun _ => h.newLength).lawful⟩
  | tsyncPulse => exact ⟨_, rfl, (State.Calm.ite (fun _ => h.upd (by rfl)) fun _ => h).lawful⟩
  | tsyncEdge t => exact ⟨_, rfl, h.tsyncEdge.lawful⟩
  | syncLost => exact ⟨_, rfl, (State.Calm.ite (fun _ => State.Calm.gfaultSet (h.upd (by rfl)) rfl) fun _ => h).lawful⟩
  | syncConflict => exact ⟨_, rfl, (State.Calm.ite (fun _ => h.gfaultSet rfl) fun _ => h).lawful⟩
  | axioTransition p l t => exact ⟨_, rfl, h.axioTransition.lawful⟩
  | axioQualify p t => exact ⟨_, rfl, h.axioQualify.lawful⟩
  | chatterEnd p t => exact ⟨_, rfl, h.chatterEnd.lawful⟩
  | localReturn n => exact ⟨_, rfl, h.localReturn.lawful⟩
  | axioOutputOverload p => exact ⟨_, rfl, (State.Calm.upd h.modPin (by rfl)).lawful⟩
  | axioOutputRetry p => exact ⟨_, rfl, h.modPin.lawful⟩
  | brakeDelay n => exact ⟨_, rfl, h.brakeElapsed.lawful⟩
  | plugProbe n a b => exact ⟨_, rfl, h.plugProbe.lawful⟩
  | boostExpiry n => exact ⟨_, rfl, h.boostExpired.lawful⟩
  | standstillTimeout n => exact ⟨_, rfl, h.selectAmp.setCoils.lawful⟩
  | sampleLost k => exact ⟨_, rfl, h.sampleIsLost.lawful⟩
  | shareErr n => exact ⟨_, rfl, h.shareError.lawful⟩
  | encoderSettle n b => exact ⟨_, rfl, (State.Calm.ite (fun _ => h.failedTry) fun _ => h.encoderSettle).lawful⟩
  | encErr n => exact ⟨_, rfl, h.encError.lawful⟩
  | delayLineMeasure g k => exact ⟨_, rfl, h.delayLine.lawful⟩
  | forcedSlot a => exact ⟨_, rfl, h.forceSlot.lawful⟩
  | rcoilWindowEnd n => exact ⟨_, rfl, h.rcoilWindowEnd.lawful⟩
  | injectionReferenceEnd n => exact ⟨_, rfl, h.referenceEnd.lawful⟩
  | keLearned n => exact ⟨_, rfl, h.keLearned.lawful⟩
  | stall n => exact ⟨_, rfl, h.declareStall.lawful⟩
  | unplugDetect n => exact ⟨_, rfl, h.unplugDetect.lawful⟩
  | legTrip m a b t => exact ⟨_, rfl, h.legTrip.lawful⟩
  | retryWaitEnd n => exact ⟨_, rfl, h.waitEnd.lawful⟩
  | retryCheckEnd n a b t => exact ⟨_, rfl, h.retryCheckEnd.lawful⟩
  | retryRunResume n => exact ⟨_, rfl, h.retryResume.lawful⟩
  | retryCounterClear n => exact ⟨_, rfl, h.modProt.lawful⟩
  | gateSupplyLockout g b t => exact ⟨_, rfl, h.lockOut.lawful⟩
  | vmLockout g b t => exact ⟨_, rfl, h.lockOut.lawful⟩
  | lockoutRelease g => exact ⟨_, rfl, h.lockoutRelease.lawful⟩
  | groupLinkFailure g w => exact ⟨_, rfl, h.linkFailure.lawful⟩
  | safeOff a b t => exact ⟨_, rfl, (State.Calm.ite (fun _ => h.safeOff) fun _ => h).lawful⟩
  | safeActClear => exact ⟨_, rfl, h.safeActClear.lawful⟩
  | safeDisc b => exact ⟨_, rfl, (State.Calm.ite (fun _ => h) fun hl => State.Calm.gfaultSet (h.safeDisc hl) rfl).lawful⟩
  | clkLost => exact ⟨_, rfl, h.clkLost.lawful⟩
  | thermalShutdown g t => exact ⟨_, rfl, h.thermalShutdown.lawful⟩
  | thermalShutdownClear g => exact ⟨_, rfl, (h.modGroup fun x => by split <;> exact ⟨rfl, rfl, rfl⟩).lawful⟩
  | baseplateReading v => exact ⟨_, rfl, (h.upd (by rfl)).lawful⟩
  | keyUnlock p v => exact ⟨_, rfl, h.regWrite.lawful⟩
  | unlockLapse p => exact ⟨_, rfl, h.setUnlock.lawful⟩
  | groupBlockReset p g => exact ⟨_, rfl, h.regWrite.lawful⟩
  | mportBlockReset p => exact ⟨_, rfl, h.regWrite.lawful⟩
  | quartzBlockReset p => exact ⟨_, rfl, h.regWrite.lawful⟩
  | syncBlockReset p => exact ⟨_, rfl, h.regWrite.lawful⟩
  | sbandBlockReset p => exact ⟨_, rfl, h.regWrite.lawful⟩
  | optionsWrite p => exact ⟨_, rfl, h.regWrite.lawful⟩
  | deviceKeyLoad p => exact ⟨_, rfl, h.regWrite.lawful⟩
  | firmwareKeyLoad p => exact ⟨_, rfl, h.regWrite.lawful⟩
  | shaleIdx p v => exact ⟨_, rfl, h.regWrite.lawful⟩
  | edgeWordWrite p g m b v => exact ⟨_, rfl, h.regWrite.lawful⟩
  | commit p g v t => exact ⟨_, rfl, h.regWrite.lawful⟩
  | hostedge p g v => exact ⟨_, rfl, h.regWrite.lawful⟩
  | hbDirect p g v => exact ⟨_, rfl, h.regWrite.lawful⟩
  | frameCfg p v => exact ⟨_, rfl, h.regWrite.lawful⟩
  | mposPreset p m v => exact ⟨_, rfl, h.regWrite.lawful⟩
  | vmRate p k v => exact ⟨_, rfl, h.regWrite.lawful⟩
  | syncCfg p v => exact ⟨_, rfl, h.regWrite.lawful⟩
  | powerOnReset => exact ⟨_, rfl, startReset_lawful s 0⟩
  | brownOutReset => exact ⟨_, rfl, startReset_lawful s 1⟩
  | nrstReset => exact ⟨_, rfl, .ite (fun _ => h.lawful) fun _ => startReset_lawful s 6⟩
  | fuseSensingEnd => exact ⟨_, rfl, stageEnd_lawful fun hs => stage_lawful (by rw [hs]; decide) rfl rfl ⟨rfl, rfl, rfl⟩⟩
  | nvmPulseEnd => exact ⟨_, rfl, nvmPulseEnd_lawful s⟩
  | optionsLoadEnd b => exact ⟨_, rfl, stageEnd_lawful fun hs => optionsLoaded_lawful s b hs⟩
  | nrstRelease => exact ⟨_, rfl, stageEnd_lawful fun hs => stage_lawful (by rw [hs]; decide) rfl rfl ⟨rfl, rfl, rfl⟩⟩
  | ramWipeEnd a b => exact ⟨_, rfl, stageEnd_lawful fun hs => boot_lawful s a b hs⟩
  | bootBankTry => exact ⟨_, rfl, h.tryBank.lawful⟩
  | watchdogFirstStage => exact ⟨_, rfl, (State.Calm.ite (fun _ => h.restart) fun _ => h).lawful⟩
  | watchdogSecondStage => exact ⟨_, rfl, .ite (fun _ => startReset_lawful s 3) fun _ => h.lawful⟩
  | dispatchResume => exact ⟨_, rfl, (State.Calm.ite (fun _ => h.resume.sbDrain) fun _ => h).lawful⟩
  | sramScrub r w => exact ⟨_, rfl, (State.Calm.ite (fun _ => h.scrub) fun _ => h).lawful⟩
  | tableReloadEnd t => exact ⟨_, rfl, h.tableReload.lawful⟩
  | parityScrub p w b => exact ⟨_, rfl, (State.Calm.ite (fun _ => h.parityScrub) fun _ => h).lawful⟩
  | pohSave => exact ⟨_, rfl, (h.upd (by rfl)).lawful⟩
  | hirqAgeTimeout => exact ⟨_, rfl, (State.Calm.ite (fun _ => h.upd (by rfl)) fun _ => h).lawful⟩
  | sbWake => exact ⟨_, rfl, h.sbWoken.lawful⟩
  | sbAwakeTimeout => exact ⟨_, rfl, (State.Calm.ite (fun _ => h.upd (by rfl)) fun _ => h).lawful⟩
  | sbVddValid => exact ⟨_, rfl, (State.Calm.ite (fun _ => h.settlePulse_upd) fun _ => h.upd (by rfl)).lawful⟩
  | sbVddLost => exact ⟨_, rfl, (State.Calm.alert (h.upd (by rfl))).lawful⟩
  | sbBusTimeout => exact ⟨_, rfl, (h.upd (by rfl)).lawful⟩
  | sbTransactionError e => exact execSbTransactionError_lawful e s
  | identity => exact ⟨_, rfl, h.sbWoken.sbReturn.lawful⟩
  | lcQuery => exact ⟨_, rfl, h.sbWoken.sbReturn.lawful⟩
  | wake v p => exact execWake_lawful v p s
  | status => exact ⟨_, rfl, (h.sbRead fun _ h => h.status).lawful⟩
  | shaleRead i => exact ⟨_, rfl, (h.sbRead fun _ h => h).lawful⟩
  | regRead p w => exact execRegRead_lawful p w s
  | regWrite p w v pec => exact ⟨_, rfl, (h.sbWrite fun _ h => .ite (fun _ => h.regWrite.sbResult) fun _ => h.regError.sbResult).lawful⟩
  | envRead a => exact execEnvRead_lawful a s
  | axisRead a => exact execAxisRead_lawful a s
  | sbStopAll k p => exact ⟨_, rfl, (h.sbWrite fun _ h => .ite (fun _ => h.sbResult) fun _ => .ite (fun _ => h.sbDispatch fun _ h => h.sbStop) fun _ => h.sbStop).lawful⟩
  | axisStop a m p => exact ⟨_, rfl, (h.sbCommand fun _ h => h.axisStopAct).lawful⟩
  | axisEnable a p => exact ⟨_, rfl, (h.sbCommand fun _ h => h.axisEnableAct).lawful⟩
  | sbJog a d p => exact ⟨_, rfl, (h.sbCommand fun _ h => h.sbJogAct).lawful⟩
  | sbJogExpiry n => exact ⟨_, rfl, (State.Calm.ite (fun _ => h.sbJogStop.alert) fun _ => h).lawful⟩
  | take a p => exact ⟨_, rfl, (h.sbCommand fun _ h => h.takeAct).lawful⟩
  | handBack a p => exact ⟨_, rfl, (h.sbCommand fun _ h => h.handBackAct).lawful⟩
  | serviceEnter k p => exact ⟨_, rfl, sbWrite_lawful fun _ h => serviceEnter_lawful h⟩
  | passcodeSet a b p => exact ⟨_, rfl, (h.sbWrite fun _ h => h.passcodeSet).lawful⟩
  | passcodeLockoutEnd => exact ⟨_, rfl, (h.upd (by rfl)).lawful⟩
  | bankSelect k b p => exact ⟨_, rfl, (h.sbWrite fun _ h => .ite (fun _ => h.sbResult) fun _ => .ite (fun _ => h.sbResult) fun _ => .ite (fun _ => h.sbResult) fun _ => h.writeBootBank_pending).lawful⟩
  | moduleReset k p => exact ⟨_, rfl, sbWrite_lawful fun _ h => .ite (fun _ => h.awaitReset.trans_lawful (startReset_lawful _ 4)) fun _ => h.sbResult.lawful⟩
  | alertResponse b => exact execAlertResponse_lawful b s
  | hostSilent => exact ⟨_, rfl, (State.Calm.ite (fun _ => h.alert) fun _ => h).lawful⟩
  | diagnoseEnd n r => exact ⟨_, rfl, h.diagnoseEnd.lawful⟩
  | flashOperationEnd b => exact ⟨_, rfl, h.flashEnd.lawful⟩
  | nvmProgramEnd j b => exact ⟨_, rfl, .ite (fun _ => nvmEnd_lawful) fun _ => h.lawful⟩
  | blockResetEnd b => exact ⟨_, rfl, (State.Calm.blockEnd (.ite (fun _ => h.discover) fun _ => h)).lawful⟩
  | vsbPowerOn => exact ⟨_, rfl, (h.upd (by rfl)).lawful⟩

end Sys2Proof.Machine
end

section
/-! The step and the invariants that every step keeps (O1 to O8). -/
namespace Sys2Proof.Machine
open Sys2Proof

theorem step_cons (s : State) (c : Instr) (l : List Instr) (h : s.pending = c :: l) : step s = exec c { s with pending := l } := by
  unfold step
  rw [h]

theorem step_nil (s : State) (h : s.pending = []) : step s = .next s := by
  unfold step
  rw [h]

/-- What a step leaves, but for the commands that wait: the front one has run on the state as it was. -/
theorem step_lawful {s t : State} (h : step s = .next t) :
    (s.ActionsFresh → t.ActionsFresh) ∧ (s.EnSafe → t.EnSafe) ∧ (s.FusesFresh → fusesKept s t ∧ t.FusesFresh)
      ∧ (Memory.wf s.mp.flash = true → Memory.wf t.mp.flash = true)
      ∧ (s.nvm.lcWord = lifeWord s.nvm.lc → lifeMove s.nvm.lc t.nvm.lc = true ∧ t.nvm.lcWord = lifeWord t.nvm.lc) := by
  cases hp : s.pending with
  | nil =>
    rw [step_nil s hp] at h
    cases h
    exact ⟨id, id, fun hf => ⟨fun _ _ => rfl, hf⟩, id, fun hl => ⟨lifeMove_self _, hl⟩⟩
  | cons c l =>
    rw [step_cons s c l hp] at h
    obtain ⟨u, hu, hlaw⟩ := exec_lawful c { s with pending := l }
    rw [hu] at h
    cases h
    exact ⟨hlaw.actions, hlaw.en, hlaw.fuses, hlaw.flash, hlaw.life⟩

/-- Settles O1: both sides are the same step, by cases on the commands that wait. -/
theorem stepRunsTheFrontCommand : Obligations.StepRunsTheFrontCommand :=
  ⟨fun _ _ _ => step_cons _ _ _ rfl, step_nil⟩

/-- Settles O2: every command answers a next state with the same commands waiting, by cases on the command. -/
theorem stepTakesOneCommand : Obligations.StepTakesOneCommand := by
  refine ⟨fun s c => ?_, fun s c l h => ?_⟩
  · obtain ⟨t, ht, hlaw⟩ := exec_lawful c s
    exact ⟨t, ht, hlaw.pending⟩
  · obtain ⟨t, ht, hlaw⟩ := exec_lawful c { s with pending := l }
    exact ⟨t, (step_cons s c l h).trans ht, hlaw.pending⟩

/-- Settles O3: a life-cycle change, a reset and an options load are the only commands that touch the state word. -/
theorem lifeCycleFollowsItsDiagram : Obligations.LifeCycleFollowsItsDiagram := by
  refine ⟨fun s t hw h => ?_, fun s b hs hw => ⟨_, rfl, ?_⟩⟩
  · obtain ⟨-, -, -, -, hlife⟩ := step_lawful h
    exact hlife hw
  · rw [State.stageEnd, if_pos hs, optionsLoaded_lc, lifeOf_none hw]

/-- Settles O4: every command keeps EN low where it is forbidden. -/
theorem stepKeepsEnSafe : Obligations.StepKeepsEnSafe := by
  intro s t hs h
  obtain ⟨-, hen, -⟩ := step_lawful h
  exact hen hs

/-- Settles O5: a fuse sequence programs fresh pins only. -/
theorem stepKeepsProgrammedFuses : Obligations.StepKeepsProgrammedFuses := by
  intro s t hs h
  obtain ⟨-, -, hf, -⟩ := step_lawful h
  exact hf hs

/-- Settles O6: erases and programs keep the canonical form of the flash, and nothing else writes it. -/
theorem stepKeepsFlashForm : Obligations.StepKeepsFlashForm := by
  intro s t hs h
  obtain ⟨-, -, -, hm, -⟩ := step_lawful h
  exact hm hs

/-- Settles O7: a new action takes the next number, and no other is renumbered. -/
theorem actionNumbersStayFresh : Obligations.ActionNumbersStayFresh := by
  refine ⟨fun _ ha => (nomatch ha), fun s t hs h => ?_⟩
  obtain ⟨ha, -⟩ := step_lawful h
  exact ha hs

theorem reset_leg (m : LegId) : State.reset.leg m = {} := Vector.getElem_replicate _

theorem reset_ax (n : AxisId) : State.reset.ax n = {} := Vector.getElem_replicate _

/-- Settles O8. -/
theorem invariantsHoldAtReset : Obligations.InvariantsHoldAtReset := by
  have hlegs : ∀ m : LegId, (State.reset.leg m).en = false := fun m => by rw [reset_leg]
  refine ⟨⟨⟨fun m hm => (nomatch (hlegs m).symm.trans hm), fun _ => rfl⟩, FusesFresh.of_none rfl, reset_flash_wf, rfl, rfl⟩, rfl, rfl, rfl, fun n => ?_, hlegs,
    rfl, rfl, fun t => ?_⟩
  · rw [reset_ax]
    exact ⟨rfl, rfl, rfl, rfl, rfl⟩
  · show (Vector.replicate 4 ({} : MicroTable))[t.val].custom = none
    rw [Vector.getElem_replicate]

end Sys2Proof.Machine
end

section
/-! SUPPORT. Reading the flash contents after a write and after an erase (14_memory_port.md R365, R368; notes/assumptions/16.md). -/
namespace Sys2Proof.Machine
open Sys2Proof

/-- An address not above those listed reads as erased. -/
theorem cellGet_of_above (m : List Host.Cell) (a b : Nat) (h : above a m = true) (hb : b ≤ a) : cellGet m b = erasedByte := by
  cases m with
  | nil => rfl
  | cons c m =>
    have hc : a < c.1 := (above_iff a _).1 h c List.mem_cons_self
    rw [cellGet, if_pos (by omega)]

/-- The first cell of contents in the canonical form decides its own address, and no other. -/
theorem cellGet_cons (a b : Nat) (v : Byte) (m : List Host.Cell) (h : above a m = true) :
    cellGet ((a, v) :: m) b = if b = a then v else cellGet m b := by
  rw [cellGet]
  rcases Nat.lt_trichotomy b a with hlt | heq | hgt
  · rw [if_pos hlt, if_neg (by omega), cellGet_of_above m a b h (by omega)]
  · rw [if_neg (by omega), if_pos heq]
  · rw [if_neg (by omega), if_neg (by omega)]

theorem cellGet_cellSet (m : List Host.Cell) (a b : Nat) (v : Byte) (h : Memory.wf m = true) :
    cellGet (cellSet m a v) b = if b = a then v else cellGet m b := by
  induction m with
  | nil =>
    unfold cellSet
    split
    next hv => simp [cellGet, hv]
    next => exact cellGet_cons a b v [] rfl
  | cons c m ih =>
    obtain ⟨d, w⟩ := c
    obtain ⟨hd, -, hm⟩ := (wf_cons d w m).1 h
    have habove : a < d → above a ((d, w) :: m) = true := fun had =>
      (above_iff _ _).2 (List.forall_mem_cons.2 ⟨had, fun c hc => had.trans ((above_iff _ _).1 hd c hc)⟩)
    unfold cellSet
    split
    next had =>
      split
      next hv =>
        split
        next hb => rw [hv, cellGet_of_above _ a b (habove had) hb.le]
        next => rfl
      next => exact cellGet_cons a b v _ (habove had)
    next =>
      split
      next heq =>
        subst heq
        rw [cellGet_cons a b w m hd]
        split
        next hv =>
          split
          next hb => rw [hv, cellGet_of_above m a b hd hb.le]
          next => rfl
        next =>
          rw [cellGet_cons a b v m hd]
          split <;> rfl
      next hle hne =>
        rw [cellGet_cons d b w _ (above_cellSet m d a v hd (by omega)), cellGet_cons d b w m hd, ih hm]
        by_cases hb : b = d
        · rw [if_pos hb, if_neg (by omega), if_pos hb]
        · rw [if_neg hb, if_neg hb]

theorem above_filter (a : Nat) (m : List Host.Cell) (f : Host.Cell → Bool) (h : above a m = true) : above a (m.filter f) = true :=
  (above_iff _ _).2 fun c hc => (above_iff _ _).1 h c (List.mem_filter.1 hc).1

theorem cellGet_cellErase (m : List Host.Cell) (a k b : Nat) (h : Memory.wf m = true) :
    cellGet (cellErase m a k) b = if a ≤ b ∧ b < a + k then erasedByte else cellGet m b := by
  induction m with
  | nil => simp [cellErase, cellGet]
  | cons c m ih =>
    obtain ⟨d, w⟩ := c
    obtain ⟨hd, -, hm⟩ := (wf_cons d w m).1 h
    have ih := ih hm
    unfold cellErase at ih ⊢
    rw [List.filter_cons]
    split
    next hkept =>
      simp only [Bool.or_eq_true, decide_eq_true_eq] at hkept
      rw [cellGet_cons d b w _ (above_filter d m _ hd), cellGet_cons d b w m hd, ih]
      by_cases hb : b = d
      · rw [if_pos hb, if_pos hb, if_neg (by omega)]
      · rw [if_neg hb, if_neg hb]
    next hgone =>
      simp only [Bool.or_eq_true, decide_eq_true_eq] at hgone
      rw [cellGet_cons d b w m hd, ih]
      by_cases hb : b = d
      · rw [if_pos (by omega), if_pos (by omega)]
      · rw [if_neg hb]

/-- Settles O9: the model's reading of R365 and R368 in notes/assumptions/16.md, an unlisted byte being erased and a write storing its byte
whatever stood there. -/
theorem flashReadsWhatWasWritten : Obligations.FlashReadsWhatWasWritten := fun m h =>
  ⟨fun a b v => cellGet_cellSet m a b v h, fun a k b => cellGet_cellErase m a k b h⟩

end Sys2Proof.Machine
end

section
/-! SUPPORT. What the rows of opcodes share: when a row does nothing, when it refuses, and what the queries and the commands of many axes do
(12_opcodes.md R309 to R315, R316, R329; notes/assumptions/54.md, 19.md, 20.md). -/
namespace Sys2Proof.Machine
open Sys2Proof

/-! ### The rows of opcodes -/

/-- Every row of an opcode lets its core start a packet of that opcode, each by a rule of its own. -/
theorem exec_opcodeRow {c : Instr} {k : CoreId} {opc : Nat} (h : opcodeRow c = some (k, opc)) :
    ∃ body, ∀ s, exec c s = .next (s.runOpcode k opc body) := by
  unfold opcodeRow at h
  split at h <;> cases h <;> exact ⟨_, fun _ => rfl⟩

/-- A core that may start nothing, or holds no packet of the opcode, does nothing (R297, R390, R418). -/
theorem runOpcode_idle {s : State} {k : CoreId} {opc : Nat} (body : State → Packet → State)
    (h : s.dev.stage ≠ .running ∨ s.dev.suspended = true ∨ s.dev.safeHold = true ∨ s.heldPacket k (isOpc opc) = none) :
    s.runOpcode k opc body = s := by
  unfold State.runOpcode State.runPacket
  split
  next hd =>
    simp only [State.dispatching, Bool.and_eq_true, decide_eq_true_eq, Bool.not_eq_true'] at hd
    rcases h with h | h | h | h
    · exact absurd hd.1.1 h
    · simp [h] at hd
    · simp [h] at hd
    · rw [h]
  next => rfl

/-- A packet that ownership, a group in reset or its header refuses is answered with the refusal (R312, R313, R314, R399). -/
theorem runOpcode_refuses {s : State} {k : CoreId} {opc : Nat} {p : Packet} {r : Status × Word} {n : Option AxisId} (h : s.Holds k opc p)
    (ho : s.opening p = some (r, n)) (body : State → Packet → State) :
    s.runOpcode k opc body = s.answered p r.1 ((n.map axByte).getD p.axis) r.2 := by
  have hs : (s.started p).opening p = some (r, n) := ho
  rw [runOpcode_holds h, State.act, hs]
  obtain ⟨-, hsusp, hhold, -⟩ := h
  exact refuse_started hsusp hhold p r n

/-- Settles O10: by `exec_opcodeRow` every row is `runOpcode`; that a row without its packet does nothing and what refuses a packet that names a
group in reset are the model's choices of notes/assumptions/19.md, 20.md and 54.md. -/
theorem opcodeRowsNeedTheirPacket : Obligations.OpcodeRowsNeedTheirPacket := by
  refine ⟨fun s c k opc hc h => ?_, fun s c k opc p st w n hc hh ho => ?_⟩
  · obtain ⟨body, hb⟩ := exec_opcodeRow hc
    rw [hb, runOpcode_idle body h]
  · obtain ⟨body, hb⟩ := exec_opcodeRow hc
    rw [hb, runOpcode_refuses hh ho]

/-! ### ECHO and the read-outs -/

theorem exec_echo {s : State} {core : CoreId} {p : Packet} (h : s.Admits core 0x01 p) :
    exec (.echo core) s = .next (s.answered p .ok p.axis (wordAt (p.params.take p.plen) 0)) :=
  congrArg _ ((runOpcode_admits h echoBody).trans (done_started h _))

/-- A read whose ITEM is listed, with SNAP 0 or 1, an ARG within its bound and no reserved byte, passes its checks (R329). -/
theorem readChecks_pass {par : List Byte} {bound : Nat} (h1 : (byteAt par 1).toNat ≤ 1) (h2 : (byteAt par 2).toNat < bound)
    (h3 : byteAt par 3 = 0) : passes (readChecks par (some bound)) := by
  simp [passes, readChecks, badField, reserved, firstFailure_cons, firstFailure_nil, uAt_one, h3, Nat.not_lt.2 h1, Nat.not_le.2 h2]

section
variable {s : State} {core : CoreId} {p : Packet}

theorem exec_readAxis {n : AxisId} {i : Fin 28} (h : s.Admits core 0x2A p) (hn : axisOfByte p.axis = some n)
    (hi : (byteAt p.params 0).toNat = i.val) (h1 : (byteAt p.params 1).toNat ≤ 1) (h2 : byteAt p.params 2 = 0) (h3 : byteAt p.params 3 = 0) :
    exec (.readAxis core) s = .next (if (byteAt p.params 1).getLsbD 0 then s.answered p .ok p.axis (s.ax n).prot.latchSet[i.val]
      else (s.started p).addSnap (.readAxis n i p.ref)) := by
  have hrow : exec (.readAxis core) s = .next (readAxisBody (s.started p) p) := congrArg _ (runOpcode_admits h readAxisBody)
  have hitem : uAt p.params 0 1 = i.val := (uAt_one _ _).trans hi
  have hfin : Fin.ofNat 28 (uAt p.params 0 1) = i := Fin.ext (by rw [hitem]; exact Nat.mod_eq_of_lt i.isLt)
  rw [hrow, readAxisBody, hn]
  simp only [hfin]
  rw [if_pos (hitem ▸ i.isLt), guarded_passes (readChecks_pass h1 (by simp [h2]) h3)]
  congr 1
  split
  · exact done_started h _
  · rfl

theorem exec_readGroup {g : GroupId} {o k : Nat} (h : s.Admits core 0x2B p) (hg : p.groupId = some g)
    (hi : groupItem (byteAt p.params 0).toNat = some (o, k)) (h1 : (byteAt p.params 1).toNat ≤ 1)
    (h2 : (byteAt p.params 2).toNat < max 1 k) (h3 : byteAt p.params 3 = 0) :
    exec (.readGroup core) s = .next (
      if (byteAt p.params 1).getLsbD 0 then s.answered p .ok p.axis ((s.grp g).latchSet.getD (o + (byteAt p.params 2).toNat) 0)
      else (s.started p).addSnap (.readGroup g (o + (byteAt p.params 2).toNat) p.ref)) := by
  have hrow : exec (.readGroup core) s = .next (readGroupBody (s.started p) p) := congrArg _ (runOpcode_admits h readGroupBody)
  rw [hrow, readGroupBody, hg]
  simp only [uAt_one, hi, Option.map_some]
  rw [guarded_passes (readChecks_pass h1 h2 h3)]
  congr 1
  split
  · exact done_started h _
  · rfl

end

/-- Settles O12: with SNAP 1 the answer is the latched value, with SNAP 0 the read-out waits, by `exec_readAxis` and `exec_readGroup`. -/
theorem queriesAnswerAndChangeNothing : Obligations.QueriesAnswerAndChangeNothing := by
  refine ⟨fun s core p h => exec_echo h, fun s core p => ⟨fun n h hn i hi h2 h3 => ?_, fun g h hg o k hi h2 h3 => ?_⟩⟩
  · exact ⟨fun h1 => by rw [exec_readAxis h hn hi (by simp [h1]) h2 h3, h1]; rfl,
      fun h1 => by rw [exec_readAxis h hn hi (by simp [h1]) h2 h3, h1]; rfl⟩
  · exact ⟨fun h1 => by rw [exec_readGroup h hg hi (by simp [h1]) h2 h3, h1]; rfl,
      fun h1 => by rw [exec_readGroup h hg hi (by simp [h1]) h2 h3, h1]; rfl⟩

/-! ### Commands of many axes (R315) -/

section
variable {s : State} {p : Packet} {checks : List Check} {each : AxisId → List Check}

theorem guardedEach_passes (h : passes checks) (he : ∀ n ∈ s.addressed p, passes (each n)) (f : State → State) :
    s.guardedEach p checks each f = f s := by
  have hnone : (s.addressed p).find? (fun n => (firstFailure (each n)).isSome) = none :=
    List.find?_eq_none.2 fun n hn => by simp [he n hn]
  unfold passes at h
  simp only [State.guardedEach, h, hnone]

/-- Where the packet as a whole passes, the lowest axis that fails is named with its own failure (R315). -/
theorem guardedEach_fails {n : AxisId} {r : Status × Word} (h : passes checks)
    (hn : (s.addressed p).find? (fun k => (firstFailure (each k)).isSome) = some n) (hr : firstFailure (each n) = some r) (f : State → State) :
    s.guardedEach p checks each f = s.refuse p r (some n) := by
  unfold passes at h
  simp only [State.guardedEach, h, hn, hr, Option.getD_some]

end

/-- Settles O14: the first axis that fails is found before any is changed, by `guardedEach_fails`. -/
theorem configuringIsAllOrNothing : Obligations.ConfiguringIsAllOrNothing := by
  intro s core p n st w
  refine ⟨fun h hc hn hr => ?_, fun h hm hres hn => ?_⟩
  · have hrow : exec (.configAxis core) s = .next (configAxisBody (s.started p) p) := congrArg _ (runOpcode_admits h configAxisBody)
    rw [hrow, configAxisBody, guardedEach_fails (s := s.started p) (each := (s.started p).configAxisChecks p.params) hc hn hr]
    exact congrArg _ (refuse_started (Admits.susp h) (Admits.hold h) p (st, w) (some n))
  · have hrow : exec (.bindMaster core) s = .next (bindBody (s.started p) p) := congrArg _ (runOpcode_admits h bindBody)
    have hfails (k : AxisId) : firstFailure [badState (s.ax k).mot.hasSegments] =
        if (s.ax k).mot.hasSegments then some (.rejectState, 0xFFFFFFFF) else none := by
      rw [badState, firstFailure_cons, firstFailure_nil]; rfl
    have hpass : passes [badField 0 (7 < (byteAt p.params 0).toNat), reserved p.params 1 3] := by
      simp [passes, firstFailure_cons, firstFailure_nil, badField, reserved, hres, Nat.not_lt.2 hm]
    have hbad : (s.ax n).mot.hasSegments = true := List.find?_some (p := fun k => (s.ax k).mot.hasSegments) hn
    have hfind : (s.addressed p).find? (fun k => (firstFailure [badState (s.ax k).mot.hasSegments]).isSome) = some n := by
      rw [← hn]
      congr 1
      funext k
      rw [hfails]
      cases (s.ax k).mot.hasSegments <;> rfl
    rw [hrow, bindBody]
    rw [guardedEach_fails (s := s.started p) (each := fun n => [badState ((s.started p).ax n).mot.hasSegments]) hpass hfind ((hfails n).trans (if_pos hbad))]
    exact congrArg _ (refuse_started (Admits.susp h) (Admits.hold h) p _ (some n))

end Sys2Proof.Machine
end

section
/-! SUPPORT. CONFIG_AXIS, CONFIG_GROUP and ROUTE_AXIO: the settings they write and what they leave (12_opcodes.md R317, R318, R320). -/
namespace Sys2Proof.Machine
open Sys2Proof

/-! ### Fields of two bytes -/

theorem uAt_two (par : List Byte) (o : Nat) : uAt par o 2 = (byteAt par (o + 1) ++ byteAt par o).toNat := by
  rw [toNat_append_eq_add]
  simp [uAt, leNat, List.range_succ]
  omega

theorem ofNat_uAt_two (par : List Byte) (o : Nat) : BitVec.ofNat 16 (uAt par o 2) = byteAt par (o + 1) ++ byteAt par o := by
  rw [uAt_two, BitVec.ofNat_toNat]
  exact BitVec.setWidth_eq _

theorem ofNat_uAt_one (k : Nat) (par : List Byte) (o : Nat) : BitVec.ofNat k (uAt par o 1) = (byteAt par o).setWidth k := by
  rw [uAt_one]
  exact (BitVec.ofNat_toNat ..)

theorem decide_bit_eq (b : Byte) (i : Nat) : decide (b.toNat / 2 ^ i % 2 = 1) = b.getLsbD i := by
  rw [BitVec.getLsbD, Nat.testBit_eq_decide_div_mod_eq]

/-! ### A packet answered after its effect -/

/-- The answer of a packet stands at the end of the ring (R300, R305). -/
theorem answer_eq {t : State} (hs : t.dev.suspended = false) (hh : t.dev.safeHold = false) (p : Packet) (st : Status) (w : Word) :
    t.answer p st w = { t with q := ({ t.q with ring := t.q.ring ++ [t.reply p st p.axis w] } : Queues).request } := by
  simp only [State.answer, State.complete, Packet.ref, State.pushEntry, hs, hh]
  rfl

theorem reply_congr {s t : State} (hax : ∀ n, (t.ax n).mot.mProg = (s.ax n).mot.mProg) (htb : t.tb = s.tb) (p : Packet) (st : Status)
    (ax : Byte) (w : Word) : t.reply p st ax w = s.reply p st ax w := by
  have hmp : t.packetMpos p = s.packetMpos p := by
    unfold State.packetMpos
    split
    · simp only [State.axMpos, hax]
    · simp only [State.m7pos, State.m7, htb]
  simp only [State.reply, hmp]

/-! ### Effects on the addressed axes -/

theorem groupAxes_nodup (g : GroupId) : (groupAxes g).Nodup :=
  List.Nodup.map (fun a b h => by simpa [axisAt, Fin.ext_iff] using h) (List.nodup_finRange 4)

theorem addressed_nodup (s : State) (p : Packet) : (s.addressed p).Nodup := by
  unfold State.addressed
  split
  · exact List.nodup_singleton _
  · split
    · split
      · exact (groupAxes_nodup _).filter _
      · exact List.nodup_nil
    · exact List.nodup_nil

/-- Effects each of which changes one axis of a list without repetition. -/
theorem forAll_ax {l : List AxisId} (hl : l.Nodup) {f : State → AxisId → State} {F : AxisId → Axis → Axis}
    (hf : ∀ s n, (f s n).axes = upd s.axes n (F n)) (s : State) (n : AxisId) :
    (s.forAll l f).ax n = if n ∈ l then F n (s.ax n) else s.ax n := by
  rw [← forAll_modAxis l hl F]
  have haxes : ∀ s t : State, s.axes = t.axes → (s.forAll l f).axes = (t.forAll l fun s k => s.modAxis k (F k)).axes := by
    clear hl
    induction l with
    | nil => exact fun _ _ h => h
    | cons a l ih =>
      intro s t h
      exact ih _ _ (by rw [hf, h]; rfl)
  simp only [State.ax, haxes s s rfl]

/-! ### CONFIG_AXIS (R317) -/

/-- An axis after a CONFIG_AXIS section. -/
def Axis.configured (par : List Byte) (a : Axis) : Axis := { a with cfg := a.cfg.config par, obs := a.obs.config par }

/-- Words that hold their parity again change nothing else (R414). -/
theorem healWords_frame {α : Type} (l : List α) (page word : α → Nat) (s : State) :
    s.forAll l (fun s a => s.healWord (page a) (word a)) =
      { s with dev := { s.dev with parityBad := (s.forAll l fun s a => s.healWord (page a) (word a)).dev.parityBad } } := by
  refine forAll_keeps (fun t => t = { s with dev := { s.dev with parityBad := t.dev.parityBad } }) l _ ?_ s rfl
  intro t a _ h
  rw [h]
  rfl

theorem configAxis_eq (s : State) (par : List Byte) (n : AxisId) : s.configAxis par n =
    { s with axes := upd s.axes n (Axis.configured par), dev := { s.dev with parityBad := (s.configAxis par n).dev.parityBad } } := by
  have h : (s.modCfg n fun c => c.config par).modObs n (fun o => o.config par) = s.modAxis n (Axis.configured par) := by
    simp only [State.modObs, State.modCfg, State.modAxis, upd_upd]
    rfl
  unfold State.configAxis
  rw [h, State.healAxis, healWords_frame]
  rfl

/-- Every addressed axis takes the settings, and nothing else changes but the parity of the words written. -/
theorem forAll_configAxis (s : State) (par : List Byte) (l : List AxisId) : s.forAll l (State.configAxis · par) =
    { s with axes := (s.forAll l (State.configAxis · par)).axes
             dev := { s.dev with parityBad := (s.forAll l (State.configAxis · par)).dev.parityBad } } := by
  refine forAll_keeps (fun t => t = { s with axes := t.axes, dev := { s.dev with parityBad := t.dev.parityBad } }) l _ ?_ s rfl
  intro t n _ h
  rw [configAxis_eq t par n, h]

theorem forAll_configAxis_ax {l : List AxisId} (hl : l.Nodup) (s : State) (par : List Byte) (n : AxisId) :
    (s.forAll l (State.configAxis · par)).ax n = if n ∈ l then (s.ax n).configured par else s.ax n :=
  forAll_ax hl (F := fun _ => Axis.configured par) (fun s n => by rw [configAxis_eq]) s n

theorem config_section0 (c : AxisCfg) (par : List Byte) (h : byteAt par 0 = 0) : c.config par = { c with
    tsel := Fin.ofNat 4 (byteAt par 1).toNat, laEn := (byteAt par 1).getLsbD 4, islew := (byteAt par 2).toNat, laDown := (byteAt par 3).toNat
    irun := byteAt par 5 ++ byteAt par 4, ihold := byteAt par 7 ++ byteAt par 6, iboost := byteAt par 9 ++ byteAt par 8
    imin := byteAt par 11 ++ byteAt par 10, tboost := (byteAt par 13 ++ byteAt par 12).toNat
    tstand := (byteAt par 15 ++ byteAt par 14).toNat } := by
  have h0 : uAt par 0 1 = 0 := (uAt_one_eq_zero _ _).2 h
  have h4 := decide_bit_eq (byteAt par 1) 4
  unfold AxisCfg.config
  simp only [h0, uAt_two, uAt_one, BitVec.ofNat_toNat]
  rw [BitVec.setWidth_eq, BitVec.setWidth_eq, BitVec.setWidth_eq, BitVec.setWidth_eq]
  rw [← h4]
  rfl

/-- Settles O13: by `forAll_configAxis` and `forAll_configAxis_ax`; section 0 reads its fields at the offsets of R317. -/
theorem configAxisSetsTheAddressedAxes : Obligations.ConfigAxisSetsTheAddressedAxes := by
  refine ⟨fun s core p h hc hn => ?_, fun c par h => config_section0 c par h⟩
  have hrow : exec (.configAxis core) s = .next (((s.started p).forAll (s.addressed p) (State.configAxis · p.params)).done p 0) :=
    congrArg _ ((runOpcode_admits h configAxisBody).trans
      (guardedEach_passes (s := s.started p) (each := (s.started p).configAxisChecks p.params) hc hn _))
  have hax := forAll_configAxis_ax (addressed_nodup s p) (s.started p) p.params
  have hframe := forAll_configAxis (s.started p) p.params (s.addressed p)
  generalize (s.started p).forAll (s.addressed p) (State.configAxis · p.params) = t at hrow hax hframe
  refine ⟨_, hrow, ?_⟩
  have hmp (n) : (t.ax n).mot.mProg = (s.ax n).mot.mProg := by
    rw [hax]
    split <;> rfl
  have htb : t.tb = s.tb := by rw [hframe]; rfl
  have hans : t.done p 0 = { t with q := ({ t.q with ring := t.q.ring ++ [s.reply p .ok p.axis 0] } : Queues).request } := by
    have hsusp : s.dev.suspended = false := Admits.susp h
    have hhold : s.dev.safeHold = false := Admits.hold h
    rw [State.done, answer_eq (by rw [hframe]; exact hsusp) (by rw [hframe]; exact hhold), reply_congr hmp htb]
  have hax' (n) : (t.done p 0).ax n = t.ax n := by rw [hans]; rfl
  refine ⟨fun n hn => ?_, fun n hn => ?_, ?_⟩
  · rw [hax', hax, if_pos hn]; rfl
  · rw [hax', hax, if_neg hn]; rfl
  · rw [hans, hframe]; rfl

/-! ### CONFIG_GROUP (R318) -/

theorem groupConfig_eq (x : Group) (par : List Byte) : x.config par = { x with
    gang01 := if (byteAt par 1).getLsbD 0 then (byteAt par 0).getLsbD 0 else x.gang01
    gang23 := if (byteAt par 1).getLsbD 0 then (byteAt par 0).getLsbD 1 else x.gang23
    dt := if (byteAt par 1).getLsbD 1 then (byteAt par 2).setWidth 6 else x.dt
    oct := if (byteAt par 1).getLsbD 2 then (byteAt par 3).setWidth 6 else x.oct
    tbl := if (byteAt par 1).getLsbD 3 then (byteAt par 4).setWidth 5 else x.tbl
    trw := if (byteAt par 1).getLsbD 4 then byteAt par 5 else x.trw
    trn := if (byteAt par 1).getLsbD 4 then (byteAt par 6).setWidth 4 else x.trn } := by
  simp only [Group.config, ofNat_uAt_one]

/-- CONFIG_GROUP writes its group, marks leads that await their DIAGNOSE, and changes nothing else but parity (R33, R318, R414). -/
theorem configGroup_frame (s : State) (par : List Byte) (g : GroupId) : ∃ t, s.configGroup par g = t
    ∧ t = { s with axes := t.axes, groups := upd s.groups g (Group.config · par), dev := { s.dev with parityBad := t.dev.parityBad } }
    ∧ ∀ n, (t.ax n).cfg = (s.ax n).cfg ∧ (t.ax n).mot = (s.ax n).mot ∧ (t.ax n).drv = (s.ax n).drv := by
  refine ⟨_, rfl, ?_⟩
  unfold State.configGroup
  extract_lets changed s1 s2
  have h2 : s2 = { s with axes := s2.axes, groups := upd s.groups g (Group.config · par) } := forAll_axes changed _ (fun _ _ _ => rfl) s1
  have hax (n) : (s2.ax n).cfg = (s.ax n).cfg ∧ (s2.ax n).mot = (s.ax n).mot ∧ (s2.ax n).drv = (s.ax n).drv := by
    refine forAll_keeps (fun t => (t.ax n).cfg = (s.ax n).cfg ∧ (t.ax n).mot = (s.ax n).mot ∧ (t.ax n).drv = (s.ax n).drv) changed _ ?_ s1 ⟨rfl, rfl, rfl⟩
    intro t k _ ht
    by_cases hk : n = k
    · subst hk; simpa using ht
    · simpa [hk] using ht
  clear_value s2
  have hheal := healWords_frame (applyWords (byteAt par 1)) (fun _ => 4 + g.val) (fun w => w) s2
  rw [hheal]
  exact ⟨by rw [h2], hax⟩

/-! ### ROUTE_AXIO (R320) -/

/-- Every check passes just when none of them fails. -/
theorem passes_iff {l : List Check} : passes l ↔ ∀ c ∈ l, c.1 = false := by
  simp [passes, firstFailure]

/-- An axis whose encoder levels and plug state alone may differ (R114, R137). -/
abbrev Axis.Rerouted (x y : Axis) : Prop := y = { x with
  enc := { x.enc with a := y.enc.a, b := y.enc.b }, prot := { x.prot with plug := y.prot.plug, plugChg := y.prot.plugChg } }

/-- What routing may change besides the entries of pins (R114, R122, R137). -/
structure State.Rerouted (s t : State) : Prop where
  frame : t = { s with axes := t.axes, pins := t.pins, dev := { s.dev with shalePend := t.dev.shalePend, shaleDropped := t.dev.shaleDropped } }
  ax (n : AxisId) : (s.ax n).Rerouted (t.ax n)

theorem State.Rerouted.refl (s : State) : s.Rerouted s := ⟨rfl, fun _ => rfl⟩

theorem State.Rerouted.trans {s t u : State} (h : s.Rerouted t) (k : t.Rerouted u) : s.Rerouted u :=
  ⟨k.frame.trans (by rw [h.frame]), fun n => (k.ax n).trans (by rw [h.ax n])⟩

theorem modPin_rerouted (s : State) (p : PinId) (f : Pin → Pin) : s.Rerouted (s.modPin p f) := ⟨rfl, fun _ => rfl⟩

theorem modAxis_rerouted (s : State) (n : AxisId) (f : Axis → Axis) (hf : (s.ax n).Rerouted (f (s.ax n))) : s.Rerouted (s.modAxis n f) := by
  refine ⟨rfl, fun k => ?_⟩
  by_cases hk : k = n
  · rw [hk, modAxis_ax_self]
    exact hf
  · rw [modAxis_ax_other _ _ _ _ hk]

theorem shale_rerouted (s : State) (cls code src : Nat) (data : BitVec 24) : s.Rerouted (s.shale cls code src data) :=
  ⟨by rw [shale_frame], fun n => by rw [shale_ax]⟩

theorem setPlug_rerouted (s : State) (n : AxisId) (p : PlugState) : s.Rerouted (s.setPlug n p) := by
  unfold State.setPlug
  split
  · exact .refl s
  · exact (modAxis_rerouted s n _ rfl).trans (shale_rerouted ..)

theorem setPlug_pins (s : State) (n : AxisId) (p : PlugState) : (s.setPlug n p).pins = s.pins := by
  unfold State.setPlug
  split
  · rfl
  · simp [State.shaleAxis]

theorem pinRoute_entry (p : Pin) (e : Word) : (p.route e).entry = e := by
  unfold Pin.route
  extract_lets out q
  split
  · rfl
  · split <;> rfl

/-- A pin that is routed has its entry; every other pin stands. -/
theorem routePin_effects (s : State) (p : PinId) (e : Word) : ∃ t, s.routePin p e = t ∧ s.Rerouted t ∧ (t.pin p).entry = e
    ∧ ∀ k, k ≠ p → t.pin k = s.pin k := by
  refine ⟨_, rfl, ?_⟩
  unfold State.routePin
  extract_lets s1 q
  have h1 : s.Rerouted s1 := modPin_rerouted ..
  have hp : (s1.pin p).entry = e := by rw [modPin_pin_self, pinRoute_entry]
  have ho (k) (hk : k ≠ p) : s1.pin k = s.pin k := modPin_pin_other _ _ _ _ hk
  clear_value s1
  split
  · exact ⟨h1, hp, ho⟩
  next n _ =>
    split
    · exact ⟨h1.trans (modAxis_rerouted s1 n _ rfl), hp, ho⟩
    · split
      · exact ⟨h1.trans (modAxis_rerouted s1 n _ rfl), hp, ho⟩
      · split
        · refine ⟨h1.trans (modPin_rerouted ..), by rw [modPin_pin_self]; exact hp, fun k hk => ?_⟩
          rw [modPin_pin_other _ _ _ _ hk, ho k hk]
        · split
          · have hpin (k) : (s1.setPlug n .unplugged).pin k = s1.pin k := by simp only [State.pin, setPlug_pins]
            exact ⟨h1.trans (setPlug_rerouted ..), by rw [hpin, hp], fun k hk => by rw [hpin, ho k hk]⟩
          · exact ⟨h1, hp, ho⟩

/-- One record of ROUTE_AXIO. -/
def State.routeRecord (s : State) (r : RouteRecord) : State := if h : r.pin < 96 then s.routePin ⟨r.pin, h⟩ r.entry else s

/-- Records of different pins give each of their pins its entry, and leave the others. -/
theorem forAll_routeRecord {l : List RouteRecord} (hl : (l.map (·.pin)).Nodup) (s : State) : ∃ t, s.forAll l State.routeRecord = t ∧ s.Rerouted t
    ∧ (∀ (q : PinId) (r : RouteRecord), r ∈ l → r.pin = q.val → (t.pin q).entry = r.entry)
    ∧ ∀ q : PinId, (∀ r ∈ l, r.pin ≠ q.val) → t.pin q = s.pin q := by
  induction l generalizing s with
  | nil => exact ⟨s, rfl, .refl s, fun _ _ h => absurd h (List.not_mem_nil), fun _ _ => rfl⟩
  | cons r l ih =>
    obtain ⟨hr, hl⟩ := List.nodup_cons.1 hl
    have hstep : ∃ t, s.routeRecord r = t ∧ s.Rerouted t ∧ (∀ q : PinId, r.pin = q.val → (t.pin q).entry = r.entry)
        ∧ ∀ q : PinId, r.pin ≠ q.val → t.pin q = s.pin q := by
      unfold State.routeRecord
      split
      next h =>
        obtain ⟨t, ht, hre, he, ho⟩ := routePin_effects s ⟨r.pin, h⟩ r.entry
        refine ⟨t, ht, hre, fun q hq => ?_, fun q hq => ho q fun hk => hq (by rw [hk])⟩
        rw [← he]
        congr 2
        exact Fin.ext hq.symm
      next h => exact ⟨s, rfl, .refl s, fun q hq => absurd (hq ▸ q.isLt) h, fun _ _ => rfl⟩
    obtain ⟨u, hu, hsu, hue, huo⟩ := hstep
    obtain ⟨t, ht, hut, hte, hto⟩ := ih hl u
    refine ⟨t, by rw [forAll_cons, hu, ht], hsu.trans hut, fun q r' hr' hq => ?_, fun q hq => ?_⟩
    · rcases List.mem_cons.1 hr' with rfl | hr'
      · rw [hto q fun k hk hkq => hr (List.mem_map.2 ⟨k, hk, hkq.trans hq.symm⟩), hue q hq]
      · exact hte q r' hr' hq
    · rw [hto q fun k hk => hq k (List.mem_cons_of_mem r hk), huo q (hq r List.mem_cons_self)]

/-- No two records of a ROUTE_AXIO that passes name the same pin (R320). -/
theorem routeRecords_nodup {s : State} {par : List Byte} (h : passes (s.routeChecks par)) : ((routeRecords par).map (·.pin)).Nodup := by
  have hrec : ∀ r ∈ routeRecords par, ((routeRecords par).take r.index).any (fun q => q.pin = r.pin) = false := by
    intro r hr
    have hc := passes_iff.1 h (badField (4 + 6 * r.index) (95 < r.pin || ((routeRecords par).take r.index).any fun q => q.pin = r.pin)) (by
      unfold State.routeChecks State.recordChecks
      simp only [List.mem_append, List.mem_flatMap]
      exact .inl (.inr ⟨r, hr, List.mem_cons_self⟩))
    simp only [badField, Bool.or_eq_false_iff] at hc
    exact hc.2
  rw [List.Nodup, List.pairwise_map, List.pairwise_iff_getElem]
  intro i j hi hj hij
  have hidx : (routeRecords par)[j].index = j := by simp [routeRecords]
  have hj' := hrec _ (List.getElem_mem hj)
  rw [hidx, List.any_eq_false] at hj'
  have hmem : (routeRecords par)[i] ∈ (routeRecords par).take j := List.mem_take_iff_getElem.2 ⟨i, by omega, rfl⟩
  simpa using hj' _ hmem

theorem routeBanks_getLsbD (old : BitVec 6) (mask hv : Byte) (b : Fin 6) :
    (routeBanks old mask hv).getLsbD b.val = if mask.getLsbD b.val then hv.getLsbD b.val else old.getLsbD b.val := by
  simp only [routeBanks, BitVec.getLsbD_or, BitVec.getLsbD_and, BitVec.getLsbD_not, BitVec.getLsbD_setWidth, b.isLt]
  cases mask.getLsbD b.val <;> simp

/-- Settles O15: CONFIG_GROUP by `configGroup_frame`, ROUTE_AXIO by `forAll_routeRecord`. -/
theorem groupsAndPinsAreConfigured : Obligations.GroupsAndPinsAreConfigured := by
  refine ⟨fun s core p g h hg hc => ?_, fun s core p h hc => ?_⟩
  · have hrow : exec (.configGroup core) s = .next (((s.started p).configGroup p.params g).done p 0) := by
      refine congrArg _ ((runOpcode_admits h configGroupBody).trans ?_)
      rw [configGroupBody, hg]
      exact guarded_passes (s := s.started p) hc _
    have hsusp : s.dev.suspended = false := Admits.susp h
    have hhold : s.dev.safeHold = false := Admits.hold h
    obtain ⟨t, ht, hframe, hax⟩ := configGroup_frame (s.started p) p.params g
    rw [ht] at hrow
    have hans : t.done p 0 = { t with q := ({ t.q with ring := t.q.ring ++ [s.reply p .ok p.axis 0] } : Queues).request } := by
      rw [State.done, answer_eq (by rw [hframe]; exact hsusp) (by rw [hframe]; exact hhold),
        reply_congr (s := s) (fun n => by rw [(hax n).2.1]; rfl) (by rw [hframe]; rfl)]
    refine ⟨_, hrow, ?_, fun k hk => ?_, fun n => ?_, ?_⟩
    · have hgrp : (t.done p 0).grp g = (s.grp g).config p.params := by
        rw [hans, hframe]
        exact upd_self ..
      rw [hgrp, groupConfig_eq]
    · rw [hans, hframe]
      exact upd_other _ _ _ _ hk
    · rw [hans]
      exact hax n
    · rw [hans, hframe]
      rfl
  · have hrow : exec (.routeAxio core) s = .next (((s.started p).route p.params).done p 0) :=
      congrArg _ ((runOpcode_admits h routeBody).trans (guarded_passes (s := s.started p) hc _))
    have hsusp : s.dev.suspended = false := Admits.susp h
    have hhold : s.dev.safeHold = false := Admits.hold h
    obtain ⟨u, hu, hre, he, ho⟩ := forAll_routeRecord (routeRecords_nodup hc) (s.started p)
    have hroute : (s.started p).route p.params =
        { u with dev := { u.dev with bankHv := routeBanks u.dev.bankHv (byteAt p.params 0) (byteAt p.params 1) } } := by
      rw [← hu]; rfl
    rw [hroute] at hrow
    obtain ⟨hframe, hax⟩ := hre
    generalize ht : ({ u with dev := { u.dev with bankHv := routeBanks u.dev.bankHv (byteAt p.params 0) (byteAt p.params 1) } } : State) = t at hrow
    have hans : t.done p 0 = { t with q := ({ t.q with ring := t.q.ring ++ [s.reply p .ok p.axis 0] } : Queues).request } := by
      rw [State.done, answer_eq (by rw [← ht, hframe]; exact hsusp) (by rw [← ht, hframe]; exact hhold),
        reply_congr (s := s) (fun n => by rw [← ht]; exact congrArg (·.mot.mProg) (hax n)) (by rw [← ht, hframe]; rfl)]
    refine ⟨_, hrow, fun q r hr hq => ?_, fun q hq => ?_, fun b => ?_, ?_, fun n => ?_⟩
    · rw [hans, ← ht]
      exact he q r hr hq
    · rw [hans, ← ht]
      exact ho q hq
    · rw [hans, ← ht]
      have hbank : u.dev.bankHv = s.dev.bankHv := by rw [hframe]; rfl
      rw [← hbank]
      exact routeBanks_getLsbD ..
    · rw [hans, ← ht, hframe]
      rfl
    · rw [hans, ← ht]
      exact hax n

end Sys2Proof.Machine
end

section
/-! SUPPORT. The commands that wait for a snapshot, segments and batches (12_opcodes.md R319, R321 to R324; 11_queues_packets.md R299;
notes/assumptions/47.md, 60.md). -/
namespace Sys2Proof.Machine
open Sys2Proof

/-! ### Starting a command that waits (R304) -/

/-- The state in which a command that waits for its axes at the next snapshot leaves `s`. -/
def State.waits (s : State) (p : Packet) (kind : ActKind) (op : AxisId → SnapOp) : State :=
  { s.started p with q := { (s.started p).q with
      actions := s.q.actions ++ [⟨s.q.nextAct, p.ref, p.axis, kind, s.addressed p, [], 0, 0⟩]
      nextAct := s.q.nextAct + 1, snapOps := s.q.snapOps ++ (s.addressed p).map op } }

section
variable {s : State} {core : CoreId} {p : Packet}

theorem exec_bindMaster (h : s.Admits core 0x0A p) (hm : (byteAt p.params 0).toNat ≤ 7) (hres : uAt p.params 1 3 = 0)
    (hn : ∀ n ∈ s.addressed p, (s.ax n).mot.hasSegments = false) : exec (.bindMaster core) s =
      .next (s.waits p .bind fun n => .bind n (Fin.ofNat 8 (byteAt p.params 0).toNat) s.q.nextAct) := by
  have hpass : passes [badField 0 (7 < (byteAt p.params 0).toNat), reserved p.params 1 3] :=
    passes_iff.2 (by simp [badField, reserved, hres, hm])
  have hrow : exec (.bindMaster core) s = .next (bindBody (s.started p) p) := congrArg _ (runOpcode_admits h bindBody)
  rw [hrow, bindBody]
  rw [guardedEach_passes (s := s.started p) (each := fun n => [badState ((s.started p).ax n).mot.hasSegments]) hpass
    (fun n hk => passes_iff.2 (List.forall_mem_singleton.2 (hn n hk)))]
  rfl

theorem exec_setPosition (h : s.Admits core 0x0C p)
    (hn : ∀ n ∈ s.addressed p, (s.ax n).mot.hasSegments = false ∧ (s.ax n).mot.jog = none) : exec (.setPosition core) s =
      .next (s.waits p .setPosition fun n => .setPosition n (sAt p.params 0 8) s.q.nextAct) := by
  refine congrArg _ ((runOpcode_admits h setPositionBody).trans
    (guardedEach_passes (s := s.started p) (each := fun n => [badState ((s.ax n).mot.hasSegments || (s.ax n).mot.jog.isSome)]) rfl
      (fun n hk => passes_iff.2 ?_) _))
  obtain ⟨h1, h2⟩ := hn n hk
  simpa [badState, h2] using h1

theorem exec_setSpeed (h : s.Admits core 0x18 p) (hv : 0 < sAt p.params 0 8) : exec (.setSpeed core) s =
    .next (s.waits p .setSpeed fun n => .setSpeed n (sAt p.params 0 8) s.q.nextAct) :=
  congrArg _ ((runOpcode_admits h setSpeedBody).trans
    (guarded_passes (passes_iff.2 (by simpa [notPositive, badField] using hv)) _))

theorem exec_setAccel (h : s.Admits core 0x19 p) (ha : 0 ≤ sAt p.params 0 8) (hd : 0 ≤ sAt p.params 8 8)
    (had : 0 < sAt p.params 0 8 + sAt p.params 8 8) : exec (.setAccel core) s =
      .next (s.waits p .setAccel fun n => .setAccel n (sAt p.params 0 8) (sAt p.params 8 8) s.q.nextAct) := by
  have hpass : passes [badField 0 (sAt p.params 0 8 < 0), badField 8 (sAt p.params 8 8 < 0),
      (sAt p.params 0 8 = 0 && sAt p.params 8 8 = 0, .rejectParam, noField)] := by
    simp only [passes_iff, badField, List.forall_mem_cons, Bool.and_eq_false_iff, decide_eq_false_iff_not]
    have h0 : ∀ c ∈ ([] : List Check), c.1 = false := List.forall_mem_nil _
    exact ⟨by omega, by omega, by omega, h0⟩
  have hrow : exec (.setAccel core) s = .next (setAccelBody (s.started p) p) := by
    rw [← runOpcode_admits h setAccelBody]
    rfl
  rw [hrow, setAccelBody]
  rw [guarded_passes hpass]
  rfl

theorem exec_stop (quick : Bool) (h : s.Admits core (if quick then 0x1B else 0x1A) p) :
    exec (if quick then .quickstop core else .stop core) s = .next (stopBody quick (s.started p) p) := by
  cases quick with
  | false => exact congrArg _ (runOpcode_admits h (stopBody false))
  | true => exact congrArg _ (runOpcode_admits h (stopBody true))

theorem stopBody_noFlush (quick : Bool) (hf : p.flush = false) : stopBody quick (s.started p) p =
    s.waits p (if quick then .quickstop else .stop) fun n => .stop n quick false s.q.nextAct := by
  unfold stopBody
  rw [hf]
  rfl

end

/-! ### Packets flushed (R299, R300) -/

/-- Packets answered one after another: their entries stand at the end of the ring, in order (R300, R305). -/
theorem forAll_answer (s : State) (hs : s.dev.suspended = false) (hh : s.dev.safeHold = false) (l : List Packet) (st : Status) (w : Word) :
    ∃ b, s.forAll l (fun s p => s.answer p st w) =
      { s with q := { s.q with ring := s.q.ring ++ l.map (fun p => s.reply p st p.axis w), cplReq := b } } := by
  induction l generalizing s with
  | nil => exact ⟨s.q.cplReq, by simp⟩
  | cons p l ih =>
    obtain ⟨b, hb⟩ := ih (s.answer p st w) (by rw [answer_eq hs hh]; exact hs) (by rw [answer_eq hs hh]; exact hh)
    refine ⟨b, ?_⟩
    rw [forAll_cons, hb, answer_eq hs hh]
    simp only [Queues.request, List.map_cons, List.append_assoc, List.singleton_append]
    rfl

/-- The packets that `hit` takes in leave their rings and complete FLUSHED in acceptance order (R299). -/
theorem flushPackets_started (s : State) (hs : s.dev.suspended = false) (hh : s.dev.safeHold = false) (p : Packet) (covers : Packet → Bool) :
    let hit := fun (o : Packet) => o.seq < p.seq && flushable o.opc && covers o
    ∃ b, (s.started p).flushPackets p.seq covers = { s with q := { s.q with
      packets := s.q.packets.filter fun o => o.seq ≠ p.seq && !hit o
      ring := s.q.ring ++ ((s.q.packets.filter fun o => o.seq ≠ p.seq).filter hit).map fun o => s.reply o .flushed o.axis 0
      cplReq := b } } := by
  intro hit
  unfold State.flushPackets
  obtain ⟨b, hb⟩ := forAll_answer { s.started p with q := { (s.started p).q with packets := (s.started p).q.packets.filter fun o => !hit o } }
    hs hh ((s.started p).q.packets.filter hit) .flushed 0
  refine ⟨b, hb.trans ?_⟩
  simp only [State.started, List.filter_filter, Bool.and_comm]
  rfl

theorem endStreamOn_none {s : State} (h : s.mp.stream = none) (l : List AxisId) : s.endStreamOn l = s := by
  unfold State.endStreamOn
  rw [h]

theorem endStream_none {s : State} (h : s.mp.stream = none) : s.endStream = s := by
  unfold State.endStream
  rw [h]

/-! ### Their effects at the snapshot -/

/-- An action of a number that none has changes nothing. -/
theorem actionAxis_absent {s : State} {act : Nat} (h : (s.q.actions.all fun a => a.id ≠ act) = true) (o : AxisOutcome) (k : Nat) (b : Bool) :
    s.actionAxis act o k b = s := by
  unfold State.actionAxis
  have hnone : s.q.actions.find? (fun a => a.id = act) = none := by
    simpa [List.find?_eq_none, List.all_eq_true] using h
  rw [hnone]

theorem modMot_sameButAxis (s : State) (n : AxisId) (f : AxisMotion → AxisMotion) : sameButAxis n s (s.modMot n f) :=
  ⟨rfl, fun _ => modMot_ax_other _ _ _ _⟩

theorem snapOp_bind {s : State} {act : Nat} (h : (s.q.actions.all fun a => a.id ≠ act) = true) (n : AxisId) (m : MasterId) :
    s.snapOp (.bind n m act) = s.bindNow n m :=
  actionAxis_absent (s := s.bindNow n m) h ..

theorem snapOp_setPosition {s : State} {act : Nat} (h : (s.q.actions.all fun a => a.id ≠ act) = true) (n : AxisId) (x : Int) :
    s.snapOp (.setPosition n x act) = s.modMot n fun a => a.redefine x :=
  actionAxis_absent (s := s.modMot n fun a => a.redefine x) h ..

/-- Settles O16. That BIND_MASTER and SET_POSITION act at the snapshot whatever the axis does then is the choice of notes/assumptions/47.md, WORD 0
of a flushed packet that of notes/assumptions/60.md. -/
theorem snapshotCommandsWaitForTheSnapshot : Obligations.SnapshotCommandsWaitForTheSnapshot := by
  refine ⟨fun s core p => ⟨exec_bindMaster, exec_setPosition, exec_setSpeed, exec_setAccel, fun h hf => ?_, fun h hf => ?_,
    fun quick h hf hstream => ?_⟩, fun s n act h => ⟨fun m => ?_, fun x => ?_⟩⟩
  · exact (exec_stop false h).trans (congrArg _ (stopBody_noFlush false hf))
  · exact (exec_stop true h).trans (congrArg _ (stopBody_noFlush true hf))
  · obtain ⟨b, hb⟩ := flushPackets_started s (Admits.susp h) (Admits.hold h) p p.covers
    refine ⟨_, exec_stop quick h, ?_⟩
    have hbody : stopBody quick (s.started p) p = (((s.started p).flushPackets p.seq p.covers).endStreamOn (s.addressed p)).atSnapshot p
        (if quick then .quickstop else .stop) fun n act => .stop n quick true act := by
      unfold stopBody
      rw [hf]
      rfl
    rw [hbody, hb]
    rw [endStreamOn_none (by exact hstream)]
    rfl
  · rw [snapOp_bind h]
    have hax : (s.bindNow n m).ax n = _ := modMot_ax_self ..
    exact ⟨by unfold State.bindNow; exact modMot_sameButAxis .., by rw [hax], by rw [hax], by rw [hax]⟩
  · rw [snapOp_setPosition h]
    have hax : ((s.modMot n fun a => a.redefine x)).ax n = _ := modMot_ax_self ..
    refine ⟨modMot_sameButAxis .., by rw [hax]; rfl, ?_, by rw [hax]; rfl⟩
    rw [hax]
    simp only [AxisMotion.redefine]
    omega

end Sys2Proof.Machine
end

section
/-! SUPPORT. The seven segment opcodes and the two operations of BATCH_DEFINE (12_opcodes.md R321, R322; 03_motion_segments.md R71, R103). -/
namespace Sys2Proof.Machine
open Sys2Proof

/-- A row runs the rule of its opcode on an admitted packet (R297). -/
theorem exec_row {s : State} {c : Instr} {k : CoreId} {opc : Nat} {p : Packet} (body : State → Packet → State)
    (hc : exec c s = .next (s.runOpcode k opc body)) (h : s.Admits k opc p) : exec c s = .next (body (s.started p) p) := by
  rw [hc, runOpcode_admits h]

/-! ### Segments -/

/-- The state in which the segment of a packet stands last in its axis's queue, its axis among the members of the batch it names. -/
def State.queued (s : State) (p : Packet) (n : AxisId) : State :=
  { s.started p with
    axes := upd s.axes n (fun a => { a with mot := { a.mot with queue := a.mot.queue ++ [p.segment] } })
    q := { (s.started p).q with
      batches := if p.batch = 0 then s.q.batches else s.q.batches.map fun b =>
        if b.id = p.batch then { b with contributed := b.contributed ||| BitVec.ofNat 48 (2 ^ n.val) } else b } }

theorem enqueue_started (s : State) (p : Packet) (n : AxisId) : (s.started p).enqueue n p.segment = s.queued p n := by
  unfold State.enqueue State.contribute State.queued
  by_cases hb : p.batch = 0
  · have hs : p.segment.batch = 0 := hb
    rw [if_pos hs, if_pos hb]
    rfl
  · have hs : p.segment.batch ≠ 0 := hb
    rw [if_neg hs, if_neg hb]
    rfl

section
variable {s : State} {c : Instr} {core : CoreId} {opc : Nat} {p : Packet} {n : AxisId} (hc : exec c s = .next (s.runOpcode core opc segmentBody))
  (hn : axisOfByte p.axis = some n)
include hc hn

theorem exec_segment_passes (hp : passes (s.segmentChecks p n)) (h : s.Admits core opc p) : exec c s = .next (s.queued p n) := by
  rw [exec_row segmentBody hc h, segmentBody, hn]
  exact congrArg _ ((guarded_passes (s := s.started p) hp _).trans (enqueue_started s p n))

theorem exec_segment_fails {st : Status} {w : Word} (hp : firstFailure (s.segmentChecks p n) = some (st, w)) (h : s.Admits core opc p) :
    exec c s = .next (s.answered p st p.axis w) := by
  rw [exec_row segmentBody hc h, segmentBody, hn]
  exact congrArg _ (guarded_started_fails h hp _)

end

/-- What the checks of a segment opcode exclude (R71, R322). -/
theorem segmentChecks_excluded {s : State} {p : Packet} {n : AxisId} (h : passes (s.segmentChecks p n)) :
    (s.grp (groupOf n)).supplyHold = false ∧ (s.grp (groupOf n)).thermSd = false ∧ (s.ax n).drv.enabled = true
      ∧ (s.ax n).mot.queue.length + (s.ax n).mot.runs.length < 16 := by
  have hall := passes_iff.1 h
  simp only [State.segmentChecks, List.mem_append] at hall
  have hsupply := hall (s.supplyCheck n) (.inl (.inl (.inr (by simp))))
  have htherm := hall (s.thermalCheck n) (.inl (.inl (.inr (by simp))))
  have hon := hall (badState (!(s.ax n).drv.enabled || s.disablingNow n)) (.inl (.inl (.inr (by simp))))
  have hroom := hall (decide (16 ≤ (s.ax n).mot.occupied), .busy, outWord (s.ax n).mot.out) (.inr (by simp))
  refine ⟨hsupply, htherm, ?_, ?_⟩
  · simp only [badState, Bool.or_eq_false_iff, Bool.not_eq_false'] at hon
    exact hon.1
  · exact Nat.not_le.1 (of_decide_eq_false hroom)

/-- Settles O17: the seven rows share `segmentBody`. -/
theorem segmentsEnterTheirQueueOrAreRefused : Obligations.SegmentsEnterTheirQueueOrAreRefused := by
  refine ⟨fun s core p n hn hp => ?_, fun s core p n st w hn hf => ?_, fun s p n h => segmentChecks_excluded h⟩
  · exact ⟨exec_segment_passes rfl hn hp, exec_segment_passes rfl hn hp, exec_segment_passes rfl hn hp, exec_segment_passes rfl hn hp,
      exec_segment_passes rfl hn hp, exec_segment_passes rfl hn hp, exec_segment_passes rfl hn hp⟩
  · exact ⟨exec_segment_fails rfl hn hf, exec_segment_fails rfl hn hf, exec_segment_fails rfl hn hf, exec_segment_fails rfl hn hf,
      exec_segment_fails rfl hn hf, exec_segment_fails rfl hn hf, exec_segment_fails rfl hn hf⟩

/-! ### Batches -/

/-- A core that holds a packet of its row, which nothing common refuses, runs the row's rule on it (R297). -/
theorem runPacket_admits {s : State} {core : CoreId} {mine : Packet → Bool} {p : Packet} (hd : s.dispatching = true)
    (hp : s.heldPacket core mine = some p) (ho : s.opening p = none) (body : State → Packet → State) :
    s.runPacket core mine body = body (s.started p) p := by
  have hs : (s.dropPacket p.seq).opening p = none := ho
  unfold State.runPacket
  rw [if_pos hd, hp]
  show (s.dropPacket p.seq).act p body = _
  rw [State.act, hs]
  rfl

/-- Settles O18: a declaration joins the table, a close the effects of the next snapshot. -/
theorem batchesAreDeclaredAndClosed : Obligations.BatchesAreDeclaredAndClosed := by
  intro s core p hstage hsusp hhold ho
  have hd : s.dispatching = true := by simp [State.dispatching, hstage, hsusp, hhold]
  refine ⟨fun hp hc => ?_, fun hp hc => ?_⟩
  · have hrow : exec (.batchDefine core) s = .next (batchDefineBody (s.started p) p) := by
      rw [← runPacket_admits hd hp ho batchDefineBody]
      rfl
    rw [hrow, batchDefineBody, guarded_passes (by exact hc), State.done, answer_eq (by exact hsusp) (by exact hhold)]
    rfl
  · have hrow : exec (.batchClose core) s = .next (batchCloseBody (s.started p) p) := by
      rw [← runPacket_admits hd hp ho batchCloseBody]
      rfl
    rw [hrow, batchCloseBody, guarded_passes (by exact hc), State.done, answer_eq (by exact hsusp) (by exact hhold), ofNat_uAt_two]
    rfl

end Sys2Proof.Machine
end

section
/-! SUPPORT. Entries that enter the ring one after another, and with them FLUSH and STOP_ALL: what they discard completes in its order
(03_motion_segments.md R98; 11_queues_packets.md R299 to R306; notes/assumptions/42.md, 60.md, 100.md). -/
namespace Sys2Proof.Machine
open Sys2Proof

/-! ### Entries of commands that complete (R28, R303, R305, R420) -/

theorem pushEntry_entered (s : State) (c : Completion) : s.pushEntry c = { s with q := s.entered [c] } := by
  unfold State.pushEntry State.entered
  split
  · rfl
  · split <;> rfl

theorem complete_entered (s : State) (tag : BitVec 16) (q : BitVec 4) (st : Status) (fl ax : Byte) (mp w : Word) :
    s.complete (.host tag q) st fl ax mp w = { s with q := s.entered [⟨tag, st, fl, ax, q, mp, w, false⟩] } := pushEntry_entered ..

theorem entered_nil (s : State) : s.entered [] = s.q := by
  unfold State.entered
  split
  · rfl
  · split <;> simp

/-- The completion request comes after two rounds of entries just as after both at once (R305). -/
theorem request_append (q : Queues) (l l' : List Completion) (h : l ≠ []) :
    ({ ({ q with ring := q.ring ++ l } : Queues).request with ring := (q.ring ++ l) ++ l' } : Queues).request
      = ({ q with ring := q.ring ++ (l ++ l') } : Queues).request := by
  have hreq : (!(q.ring ++ l).isEmpty && (q.cplReq || decide (q.thr.toNat ≤ (q.ring ++ l).length))
      || decide (q.thr.toNat ≤ ((q.ring ++ l) ++ l').length)) = (q.cplReq || decide (q.thr.toNat ≤ ((q.ring ++ l) ++ l').length)) := by
    have hmono : q.thr.toNat ≤ (q.ring ++ l).length → q.thr.toNat ≤ ((q.ring ++ l) ++ l').length := fun hle => hle.trans (by simp)
    rw [Bool.eq_iff_iff]
    simp only [Bool.or_eq_true, Bool.and_eq_true, decide_eq_true_eq]
    constructor
    · rintro (⟨-, hq | hle⟩ | hle)
      · exact .inl hq
      · exact .inr (hmono hle)
      · exact .inr hle
    · rintro (hq | hle)
      · exact .inl ⟨by simp [h], .inl hq⟩
      · exact .inr hle
  simp only [Queues.request, ← List.append_assoc]
  congr 2

theorem entered_append (s : State) (l l' : List Completion) : ({ s with q := s.entered l } : State).entered l' = s.entered (l ++ l') := by
  unfold State.entered
  by_cases hh : s.dev.safeHold = true
  · simp [hh]
  · by_cases hs : s.dev.suspended = true
    · simp [hh, hs]
    · by_cases hl : l = []
      · simp [hh, hs, hl]
      · by_cases hl' : l' = []
        · simp [hh, hs, hl, hl']
        · simp only [hh, hs, hl, hl', List.append_eq_nil_iff, and_self, if_false]
          exact request_append s.q l l' hl

/-- In a module that completes commands on the host port entries enter the ring (R303, R305). -/
theorem entered_ring {s : State} (hs : s.dev.suspended = false) (hh : s.dev.safeHold = false) {l : List Completion} (hl : l ≠ []) :
    s.entered l = ({ s.q with ring := s.q.ring ++ l } : Queues).request := by
  simp [State.entered, hs, hh, hl]

/-- Entries and the batch table do not touch each other. -/
theorem entered_batches (s : State) (bs : List Batch) (l : List Completion) :
    ({ s with q := { s.q with batches := bs } } : State).entered l = { s.entered l with batches := bs } := by
  unfold State.entered
  split
  · rfl
  · split
    · rfl
    · split <;> rfl

/-! ### Ends of segments (R300 to R302, R323) -/

/-- The entry of a segment of your host, with the MPOS and WORD it ends with. -/
def State.segEntryOf (s : State) (n : AxisId) (g : Segment) (tag : BitVec 16) (q : BitVec 4) (st : Status) (mp : Word) (w : Option Word)
    (d : Nat) : Completion :=
  ⟨tag, st, segFlagByte g.flags (s.ax n).mot.unsure, axByte n, q, mp,
    if g.flags.headDelayed then BitVec.ofNat 32 d else w.getD (outWord (s.ax n).mot.out), false⟩

/-- A segment of your host that ends: its entry, its batch, and nothing else. -/
theorem completeSeg_entered (s : State) (n : AxisId) {g : Segment} {tag : BitVec 16} {q : BitVec 4} (hg : g.ref = .host tag q) (st : Status)
    (mp : Word) (w : Option Word) (d : Nat) (t e : Int) :
    ∃ bs, s.completeSeg n g st mp w d t e = { s with q := { s.entered [s.segEntryOf n g tag q st mp w d] with batches := bs } } := by
  have h1 : s.completeSeg n g st mp w d t e = ((s.memberEnds n g.batch t e).complete g.ref st (segFlagByte g.flags (s.ax n).mot.unsure) (axByte n) mp
    (if g.flags.headDelayed then BitVec.ofNat 32 d else w.getD (outWord (s.ax n).mot.out))).reap := rfl
  have hm : s.memberEnds n g.batch t e = { s with q := { s.q with batches := (s.memberEnds n g.batch t e).q.batches } } := by
    unfold State.memberEnds
    split <;> rfl
  rw [h1, hg, hm, complete_entered, entered_batches]
  exact ⟨_, rfl⟩

/-- Segments of your host that complete with one status, one after another. -/
theorem completeSegs_entered (s : State) (n : AxisId) (refs : Segment → BitVec 16 × BitVec 4) (l : List Segment)
    (hl : ∀ g ∈ l, g.ref = .host (refs g).1 (refs g).2 ∧ g.lost = false) (st : Status) (mp : Word) (d : Nat) (m : Int) :
    ∃ bs, (l.foldl (fun s g =>
        let (st', w) := if g.lost then (Status.integrityLost, some (0x13 : Word)) else (st, none)
        s.completeSeg n g st' mp w d m m) s) =
      { s with q := { s.entered (l.map fun g => s.segEntryOf n g (refs g).1 (refs g).2 st mp none d) with batches := bs } } := by
  induction l generalizing s with
  | nil => exact ⟨s.q.batches, by simp [entered_nil]⟩
  | cons g l ih =>
    obtain ⟨hg, hl⟩ := List.forall_mem_cons.1 hl
    obtain ⟨hg, hlost⟩ := hg
    obtain ⟨bs, hbs⟩ := completeSeg_entered s n hg st mp none d m m
    obtain ⟨bs', hbs'⟩ := ih (s.completeSeg n g st mp none d m m) hl
    refine ⟨bs', ?_⟩
    rw [List.foldl_cons]
    simp only [hlost, Bool.false_eq_true, if_false] at hbs' ⊢
    rw [hbs', hbs]
    have hsplit : s.entered ((g :: l).map fun g => s.segEntryOf n g (refs g).1 (refs g).2 st mp none d) = _ :=
      (entered_append s [s.segEntryOf n g (refs g).1 (refs g).2 st mp none d] _).symm
    rw [hsplit]
    have hb := entered_batches { s with q := s.entered [s.segEntryOf n g (refs g).1 (refs g).2 st mp none d] } bs
      (l.map fun g => s.segEntryOf n g (refs g).1 (refs g).2 st mp none d)
    have hq := congrArg (fun q : Queues => ({ s with q := { q with batches := bs' } } : State)) hb
    exact hq

/-- The queue of an axis is emptied, its segments completing in their order (R98). -/
theorem flushQueue_entered (s : State) (n : AxisId) (refs : Segment → BitVec 16 × BitVec 4)
    (hl : ∀ g ∈ (s.ax n).mot.queue, g.ref = .host (refs g).1 (refs g).2 ∧ g.lost = false) (st : Status) :
    ∃ bs, s.flushQueue n st = { s with
      axes := upd s.axes n fun a => { a with mot := { a.mot with queue := [] } }
      q := { s.entered ((s.ax n).mot.queue.map fun g => s.segEntry n g (refs g).1 (refs g).2 st) with batches := bs } } := by
  have hax : (s.modMot n fun a => { a with queue := [] }).ax n = { s.ax n with mot := { (s.ax n).mot with queue := [] } } := modMot_ax_self ..
  obtain ⟨bs, hbs⟩ := completeSegs_entered (s.modMot n fun a => { a with queue := [] }) n refs (s.ax n).mot.queue hl st
    (mpos32 (s.ax n).mot.mProg) (Config.heldDelay (s.ax n).mot.mProg) ((s.ax n).mot.mProg / 65536)
  have hentries : ((s.ax n).mot.queue.map fun g => (s.modMot n fun a => { a with queue := [] }).segEntryOf n g (refs g).1 (refs g).2 st
      (mpos32 (s.ax n).mot.mProg) none (Config.heldDelay (s.ax n).mot.mProg)) =
        (s.ax n).mot.queue.map fun g => s.segEntry n g (refs g).1 (refs g).2 st := by
    simp only [State.segEntryOf, hax]
    rfl
  rw [hentries] at hbs
  exact ⟨bs, hbs⟩

theorem exec_flush {s : State} {core : CoreId} {p : Packet} {n : AxisId} (refs : Segment → BitVec 16 × BitVec 4) (h : s.Admits core 0x1E p)
    (hn : axisOfByte p.axis = some n) (hstream : s.mp.stream = none)
    (hl : ∀ g ∈ (s.ax n).mot.queue, g.ref = .host (refs g).1 (refs g).2 ∧ g.lost = false) :
    ∃ bs, exec (.flush core) s = .next { s with
      axes := upd s.axes n fun a => { a with mot := { a.mot with queue := [] } }
      q := ({ (s.started p).q with
        ring := s.q.ring ++ ((s.ax n).mot.queue.map fun g => s.segEntry n g (refs g).1 (refs g).2 .flushed) ++ [s.reply p .ok p.axis 0]
        batches := bs } : Queues).request } := by
  have hsusp : s.dev.suspended = false := Admits.susp h
  have hhold : s.dev.safeHold = false := Admits.hold h
  have haddr : (s.started p).addressed p = [n] := by
    unfold State.addressed
    rw [hn]
  have hbody : flushBody (s.started p) p = (((s.started p).endStreamOn [n]).flushQueue n .flushed).done p 0 := by
    unfold flushBody
    rw [haddr]
    rfl
  obtain ⟨bs, hbs⟩ := flushQueue_entered (s.started p) n refs hl .flushed
  generalize hlist : ((s.started p).ax n).mot.queue.map (fun g => (s.started p).segEntry n g (refs g).1 (refs g).2 .flushed) = l at hbs
  have hmp (k) : ((((s.started p).flushQueue n .flushed)).ax k).mot.mProg = (s.ax k).mot.mProg := by
    by_cases hk : k = n
    · rw [hk, endsOn_ax (flushQueue_endsOn ..)]
      rfl
    · rw [endsOn_ax_other (flushQueue_endsOn ..) hk]
      rfl
  refine ⟨bs, ?_⟩
  rw [exec_row flushBody rfl h, hbody, endStreamOn_none (by exact hstream), State.done, State.answer, Packet.ref, complete_entered]
  have hreply : (⟨p.tag, .ok, 0, p.axis, BitVec.ofNat 4 p.queue.val, ((s.started p).flushQueue n .flushed).packetMpos p, 0, false⟩ : Completion)
      = s.reply p .ok p.axis 0 := reply_congr hmp (by rw [hbs]; rfl) p .ok p.axis 0
  rw [hreply, hbs]
  have hq : ({ s.started p with q := { (s.started p).entered l with batches := bs } } : State).entered [s.reply p .ok p.axis 0] =
      { (s.started p).entered (l ++ [s.reply p .ok p.axis 0]) with batches := bs } := by
    rw [← entered_append]
    exact entered_batches { s.started p with q := (s.started p).entered l } bs _
  have hring := entered_ring (s := s.started p) hsusp hhold (l := l ++ [s.reply p .ok p.axis 0]) (by simp)
  rw [hring] at hq
  have hlist' : l = (s.ax n).mot.queue.map fun g => s.segEntry n g (refs g).1 (refs g).2 .flushed := hlist.symm
  rw [← hlist', List.append_assoc]
  exact congrArg (fun q : Queues => Host.Outcome.next ({ s with
    axes := upd s.axes n fun a => { a with mot := { a.mot with queue := [] } }, q := q } : State)) hq

/-! ### STOP_ALL (R98, R299, R304, R306) -/

/-- A STOP_ALL of no axis completes OK at once (R304). -/
theorem finishAction_none {s : State} {id : Nat} (hid : ∀ a ∈ s.q.actions, a.id ≠ id) (tag : BitVec 16) (q : BitVec 4) :
    (s.addAction (.host tag q) 0xFF .stopAll []).finishAction ⟨id, .host tag q, 0xFF, .stopAll, [], [], 0, 0⟩ =
      { s with q := ({ s with q := { s.q with
          actions := s.q.actions ++ ([⟨s.q.nextAct, .host tag q, 0xFF, .stopAll, [], [], 0, 0⟩] : List Action).filter fun b => b.id ≠ id
          nextAct := s.q.nextAct + 1 } } : State).entered [⟨tag, .ok, 0, 0xFF, q, s.m7pos, 0, false⟩] } := by
  have hkeep : s.q.actions.filter (fun b => b.id ≠ id) = s.q.actions :=
    List.filter_eq_self.2 fun a ha => decide_eq_true (hid a ha)
  unfold State.finishAction
  simp only [State.addAction, List.filter_append, hkeep, List.filter_nil, List.foldl_nil, State.complete]
  rw [pushEntry_entered]
  rfl

/-- STOP_ALL of the host: what it flushes completes, and its action waits for the enabled axes or completes at once. -/
theorem startStopAll_started {s : State} {core : CoreId} {p : Packet} (hfresh : s.ActionsFresh) (h : s.Admits core 0x7F p)
    (hstream : s.mp.stream = none) :
    let hit := fun (o : Packet) => o.seq < p.seq && flushable o.opc
    let gone := ((s.q.packets.filter fun o => o.seq ≠ p.seq).filter hit).map fun o => s.reply o .flushed o.axis 0
    let on := allAxes.filter fun n => (s.ax n).drv.enabled
    ∃ c, (s.started p).startStopAll p.ref p.seq = { s with q := { s.q with
      packets := s.q.packets.filter fun o => o.seq ≠ p.seq && !hit o
      ring := s.q.ring ++ gone ++ (if on = [] then [⟨p.tag, .ok, 0, 0xFF, BitVec.ofNat 4 p.queue.val, s.m7pos, 0, false⟩] else [])
      actions := s.q.actions ++ (if on = [] then [] else [⟨s.q.nextAct, p.ref, 0xFF, .stopAll, on, [], 0, 0⟩])
      nextAct := s.q.nextAct + 1, snapOps := s.q.snapOps ++ [.stopAll s.q.nextAct], cplReq := c } } := by
  intro hit gone on
  obtain ⟨b, hb⟩ := flushPackets_started s (Admits.susp h) (Admits.hold h) p fun _ => true
  have hsusp : s.dev.suspended = false := Admits.susp h
  have hhold : s.dev.safeHold = false := Admits.hold h
  simp only [Bool.and_true] at hb
  unfold State.startStopAll
  extract_lets s1 wait act s2 s3
  change ∃ c, ({ s3 with q := { s3.q with snapOps := s3.q.snapOps ++ [.stopAll act] } } : State) = _
  have hs1 : s1 = _ := (congrArg State.endStream hb).trans (endStream_none (by exact hstream))
  have hwait : wait = on := by
    show allAxes.filter (fun n => (s1.ax n).drv.enabled) = _
    rw [hs1]
    rfl
  by_cases hon : on = []
  · have hs2 : s2 = s1.addAction p.ref 0xFF .stopAll [] := by
      show s1.addAction p.ref 0xFF .stopAll wait = _
      rw [hwait, hon]
    have hs3 : s3 = s2.finishAction ⟨act, p.ref, 0xFF, .stopAll, [], [], 0, 0⟩ := if_pos (by rw [hwait, hon]; rfl)
    have hact : act = s.q.nextAct := by
      show s1.q.nextAct = _
      rw [hs1]
    have hid : ∀ a ∈ s1.q.actions, a.id ≠ act := by
      rw [hs1, hact]
      exact fun a ha => Nat.ne_of_lt (hfresh a ha)
    have hnone : ([⟨s1.q.nextAct, p.ref, 0xFF, .stopAll, [], [], 0, 0⟩] : List Action).filter (fun b => b.id ≠ act) = [] := by
      simp [act]
    rw [hs3, hs2, Packet.ref, finishAction_none hid, ← Packet.ref, hnone, hact, entered_ring (by rw [hs1]; exact hsusp) (by rw [hs1]; exact hhold)
      (by simp), if_pos hon, if_pos hon, hs1]
    exact ⟨_, rfl⟩
  · have hs3 : s3 = s2 := if_neg (by rw [hwait]; simpa using hon)
    have hs2 : s2 = s1.addAction p.ref 0xFF .stopAll on := by rw [← hwait]
    have hact : act = s.q.nextAct := by
      show s1.q.nextAct = _
      rw [hs1]
    rw [hs3, hs2, hact, if_neg hon, if_neg hon, List.append_nil, hs1]
    exact ⟨_, rfl⟩

/-- Settles O20; WORD 0 of flushed packets is the choice of notes/assumptions/60.md, the WORD of a flushed segment that of notes/assumptions/42.md
and 100.md. -/
theorem flushAndStopAllDiscardWhatWaits : Obligations.FlushAndStopAllDiscardWhatWaits := by
  refine ⟨fun s core p n refs h hn hstream hl => ?_, fun s core p hfresh h hstream => ?_⟩
  · obtain ⟨bs, hbs⟩ := exec_flush refs h hn hstream hl
    exact ⟨_, hbs, rfl, rfl⟩
  · obtain ⟨c, hc⟩ := startStopAll_started hfresh h hstream
    exact ⟨_, (exec_row (fun s p => s.startStopAll p.ref p.seq) rfl h).trans (congrArg _ hc), rfl⟩

end Sys2Proof.Machine
end

section
/-! SUPPORT. FW_STAGE and its operations; FUSE_PROGRAM and the end of its sequence (12_opcodes.md R334, R337; 14_memory_port.md R368;
15_reset_lifecycle.md R395; notes/assumptions/96.md). -/
namespace Sys2Proof.Machine
open Sys2Proof

/-! ### The memory port -/

/-- Starting the port changes what its devices do, and their modes (R367, R368). -/
theorem portStart_onlyPort (s : State) : s.onlyPort s.portStart ∧ s.portStart.mp.jobs = s.mp.jobs := by
  have hcont : ∀ (m : MemPort) (d on : Bool), m.setCont d on = { m with cont0 := (m.setCont d on).cont0, cont1 := (m.setCont d on).cont1 } := by
    intro m d on
    cases d <;> rfl
  unfold State.onlyPort State.portStart
  extract_lets run run' d m
  clear_value run'
  cases run' with
  | none => exact ⟨rfl, rfl⟩
  | some j =>
    simp only []
    rw [hcont m (s.jobDevice j) false]
    exact ⟨rfl, rfl⟩

theorem setMark_mark (s : State) (b : Bool) (m : Option (List Byte × BitVec 32)) : (s.setMark b m).mark b = m := by cases b <;> rfl

theorem setMark_mark_other (s : State) (b : Bool) (m : Option (List Byte × BitVec 32)) : (s.setMark b m).mark (!b) = s.mark (!b) := by
  cases b <;> rfl

theorem setMark_frame (s : State) (b : Bool) (m : Option (List Byte × BitVec 32)) : s.setMark b m =
    { s with nvm := { s.nvm with markA := (s.setMark b m).nvm.markA, markB := (s.setMark b m).nvm.markB } } := by cases b <;> rfl

/-! ### Pages of data (R364, R368) -/

/-- The bytes that an operation of the port programs. -/
def FlashJob.data : FlashJob → List Byte
  | .program _ _ d => d
  | _ => []

/-- The pages hold the data in order, as far as they reach. -/
theorem pageJobs_data (ref : CmdRef) (k o : Nat) (l : List Byte) (h : l.length ≤ 256 * k - o % 256) : (pageJobs ref k o l).flatMap FlashJob.data = l := by
  induction k generalizing o l with
  | zero =>
    have hnil : l = [] := List.eq_nil_of_length_eq_zero (by omega)
    rw [hnil]
    rfl
  | succ k ih =>
    rw [pageJobs]
    split
    next hl => simpa using (List.isEmpty_iff.1 hl).symm
    next hl =>
      have hdrop : (l.drop (256 - o % 256)).length ≤ 256 * k - (o + (256 - o % 256)) % 256 := by
        rw [List.length_drop]
        omega
      rw [List.flatMap_cons, ih _ _ hdrop]
      exact List.take_append_drop _ l

/-- Each of them lies within one page (R364). -/
theorem pageJobs_within {ref : CmdRef} {k o : Nat} {l : List Byte} {j : FlashJob} (hj : j ∈ pageJobs ref k o l) :
    ∃ o' d, j = .program ref o' d ∧ d ≠ [] ∧ o' / 256 = (o' + d.length - 1) / 256 := by
  induction k generalizing o l with
  | zero => exact absurd hj List.not_mem_nil
  | succ k ih =>
    rw [pageJobs] at hj
    split at hj
    · exact absurd hj List.not_mem_nil
    next hl =>
      rcases List.mem_cons.1 hj with rfl | hj
      · have hpos : 0 < l.length := List.length_pos_iff.2 (by simpa using hl)
        have hlen : (l.take (256 - o % 256)).length = min (256 - o % 256) l.length := List.length_take
        refine ⟨o, _, rfl, List.length_pos_iff.1 (by omega), by omega⟩
      · exact ih hj

/-- Settles O28: the pages by `pageJobs_data` and `pageJobs_within`. -/
theorem firmwareStagingQueuesItsOperations : Obligations.FirmwareStagingQueuesItsOperations := by
  refine ⟨fun s core p h hc => ?_, fun ref par plen => ⟨fun hop => by rw [stageJobs, hop]; rfl, fun hop => by rw [stageJobs, hop]; rfl⟩,
    fun ref par plen hop hlen => ?_⟩
  · have hrow : exec (.fwStage core) s = .next (fwStageBody (s.started p) p) := exec_row fwStageBody rfl h
    rw [hrow, fwStageBody, guarded_passes (by exact hc)]
    extract_lets s1
    refine ⟨_, rfl, ?_⟩
    have hs1 : s1 = { s.started p with nvm := { s.nvm with markA := s1.nvm.markA, markB := s1.nvm.markB } }
        ∧ s1.mark (!s.inactiveBank) = s.mark (!s.inactiveBank)
        ∧ s1.mark s.inactiveBank = if uAt p.params 0 1 = 2 then s.mark s.inactiveBank else none := by
      by_cases hop : uAt p.params 0 1 = 2
      · have he : s1 = s.started p := if_pos hop
        rw [he, if_pos hop]
        exact ⟨rfl, rfl, rfl⟩
      · have he : s1 = (s.started p).setMark s.inactiveBank none := if_neg hop
        rw [he, if_neg hop]
        exact ⟨setMark_frame .., setMark_mark_other .., setMark_mark ..⟩
    obtain ⟨hframe, hother, hmark⟩ := hs1
    clear_value s1
    obtain ⟨hport, hjobs⟩ := portStart_onlyPort
      { s1 with mp := { s1.mp with staging := true, jobs := s1.mp.jobs ++ stageJobs p.ref p.params p.plen } }
    generalize State.portStart { s1 with mp := { s1.mp with staging := true, jobs := s1.mp.jobs ++ stageJobs p.ref p.params p.plen } } = t at hport hjobs
    have hnvm : t.nvm = s1.nvm := by rw [hport]
    refine ⟨?_, hjobs.trans (by rw [hframe]; rfl), ?_, ?_⟩
    · unfold State.onlyPort at hport ⊢
      rw [hnvm]
      refine hport.trans ?_
      generalize t.mp = m
      rw [hframe]
      rfl
    · rw [← hother]
      simp only [State.mark, hnvm]
    · rw [← hmark]
      simp only [State.mark, hnvm]
  · have hjobs : stageJobs ref par plen = pageJobs ref 2 (uAt par 4 4) ((par.drop 8).take (plen - 8)) := by rw [stageJobs, hop]; rfl
    have hflat (f : FlashJob → List Byte) (hf : ∀ j, f j = j.data) (l : List FlashJob) : l.flatMap f = l.flatMap FlashJob.data := by
      rw [funext hf]
    rw [hjobs]
    refine ⟨(hflat _ (fun j => by cases j <;> rfl) _).trans (pageJobs_data ref 2 _ _ ?_), fun j hj => pageJobs_within hj⟩
    rw [List.length_take]
    omega

/-! ### FUSE_PROGRAM (R337, R395) -/

/-- A GFAULT bit that is set again is as it was. -/
theorem flagged_flagged {s t u : State} {i : Nat} (h : t = s.flagged t i) (k : u = t.flagged u i) : u = s.flagged u i := by
  have hor : (s.dev.gfault ||| BitVec.ofNat 8 (2 ^ i)) ||| BitVec.ofNat 8 (2 ^ i) = s.dev.gfault ||| BitVec.ofNat 8 (2 ^ i) := by
    rw [BitVec.or_assoc, BitVec.or_self]
  rw [k, h]
  simp only [State.flagged, hor]

theorem wonceViol_flagged (s : State) (p : Port) : s.wonceViol p = s.flagged (s.wonceViol p) 7 := by
  unfold State.wonceViol
  rw [shale_frame]
  rfl

/-- Programmed pins are skipped, each with WONCE_VIOL (R395). -/
theorem wonceViols_flagged {α : Type} (s : State) (l : List α) (hl : l ≠ []) :
    s.forAll l (fun s _ => s.wonceViol .host) = s.flagged (s.forAll l fun s _ => s.wonceViol .host) 7 := by
  cases l with
  | nil => exact absurd rfl hl
  | cons a l =>
    rw [forAll_cons]
    exact forAll_keeps (fun t => t = s.flagged t 7) l _ (fun t _ _ ht => flagged_flagged ht (wonceViol_flagged t .host)) _ (wonceViol_flagged s .host)

theorem fuseRecords_ne_nil {s : State} {par : List Byte} (h : passes (s.fuseChecks par)) : fuseRecords par ≠ [] := by
  have hc := passes_iff.1 h (badField 2 (uAt par 2 1 = 0 || 118 < uAt par 2 1)) (by simp [State.fuseChecks])
  simp only [badField, Bool.or_eq_false_iff, decide_eq_false_iff_not] at hc
  rw [ne_eq, ← List.length_eq_zero_iff, length_fuseRecords]
  exact hc.1

/-- Codes written into different pins stand there. -/
theorem foldl_set_mem {l : List (Fin 144 × BitVec 2)} (hl : (l.map (·.1)).Nodup) (f : Vector (BitVec 2) 144) {r : Fin 144 × BitVec 2} (hr : r ∈ l) :
    (l.foldl (fun (f : Vector (BitVec 2) 144) r => f.set r.1.val r.2) f)[r.1.val] = r.2 := by
  induction l generalizing f with
  | nil => exact absurd hr List.not_mem_nil
  | cons x l ih =>
    obtain ⟨hx, hl⟩ := List.nodup_cons.1 hl
    rw [List.foldl_cons]
    rcases List.mem_cons.1 hr with rfl | hr
    · rw [foldl_set_other l _ r.1 fun q hq e => hx (List.mem_map.2 ⟨q, hq, e⟩), Vector.getElem_set_self]
    · exact ih hl _ hr

section
variable {s : State} {core : CoreId} {p : Packet} (h : s.Admits core 0x49 p) (hc : passes (s.fuseChecks p.params))
include h hc

theorem exec_fuseProgram_fresh (hl : ∀ r ∈ fuseRecords p.params, s.blown r.1 = false) : exec (.fuseProgram core) s = .next { s.started p with
    dev := { s.dev with
      fuseSeq := some (p.ref, (fuseRecords p.params).map (fun r => (Fin.ofNat 144 r.1, BitVec.ofNat 2 r.2)), (fuseRecords p.params).length, 0) }
    nvm := { s.nvm with pulse := s.nvm.pulse || s.sb.vdd } } := by
  have hold : (fuseRecords p.params).filter (fun r => (s.started p).blown r.1) = [] :=
    List.filter_eq_nil_iff.2 fun r hr => by rw [Bool.not_eq_true]; exact hl r hr
  have htodo : (fuseRecords p.params).filter (fun r => !(s.started p).blown r.1) = fuseRecords p.params :=
    List.filter_eq_self.2 fun r hr => by rw [Bool.not_eq_true']; exact hl r hr
  have hempty : ((fuseRecords p.params).map fun r => ((Fin.ofNat 144 r.1 : Fin 144), BitVec.ofNat 2 r.2)).isEmpty = false := by
    simpa using fuseRecords_ne_nil hc
  rw [exec_row fuseProgramBody rfl h, fuseProgramBody, guarded_passes (by exact hc)]
  simp only [hold, htodo, hempty, List.length_map]
  rfl

theorem exec_fuseProgram_skipped (hl : ∀ r ∈ fuseRecords p.params, s.blown r.1 = true) : ∃ t, exec (.fuseProgram core) s = .next t
    ∧ t = { s.answered p .ok p.axis (BitVec.ofNat 32 ((fuseRecords p.params).length * 2 ^ 16)) with
        dev := { s.dev with gfault := s.dev.gfault ||| 0x80, shalePend := t.dev.shalePend, shaleDropped := t.dev.shaleDropped }
        sb := { s.sb with faultSeen := t.sb.faultSeen, causes := t.sb.causes, announced := t.sb.announced } } := by
  have hold : (fuseRecords p.params).filter (fun r => (s.started p).blown r.1) = fuseRecords p.params :=
    List.filter_eq_self.2 fun r hr => hl r hr
  have htodo : (fuseRecords p.params).filter (fun r => !(s.started p).blown r.1) = [] :=
    List.filter_eq_nil_iff.2 fun r hr => by rw [Bool.not_eq_true, Bool.not_eq_false']; exact hl r hr
  have hsusp : s.dev.suspended = false := Admits.susp h
  have hhold : s.dev.safeHold = false := Admits.hold h
  have hflag := wonceViols_flagged (s.started p) (fuseRecords p.params) (fuseRecords_ne_nil hc)
  rw [exec_row fuseProgramBody rfl h, fuseProgramBody, guarded_passes (by exact hc)]
  simp only [hold, htodo, List.map_nil, List.isEmpty_nil, if_true]
  generalize (s.started p).forAll (fuseRecords p.params) (fun s _ => s.wonceViol .host) = t at hflag
  have hword : fuseWord 0 (fuseRecords p.params).length = BitVec.ofNat 32 ((fuseRecords p.params).length * 2 ^ 16) := by
    simp [fuseWord, fields]
  have hans : t.done p (fuseWord 0 (fuseRecords p.params).length) = { t with q := ({ t.q with
      ring := t.q.ring ++ [s.reply p .ok p.axis (BitVec.ofNat 32 ((fuseRecords p.params).length * 2 ^ 16))] } : Queues).request } := by
    rw [State.done, answer_eq (by rw [hflag]; exact hsusp) (by rw [hflag]; exact hhold), hword,
      reply_congr (s := s) (fun n => by rw [hflag]; rfl) (by rw [hflag]; rfl)]
  refine ⟨_, rfl, ?_⟩
  rw [hans]
  exact congrArg (fun u : State => ({ u with q := ({ u.q with
    ring := u.q.ring ++ [s.reply p .ok p.axis (BitVec.ofNat 32 ((fuseRecords p.params).length * 2 ^ 16))] } : Queues).request } : State)) hflag

end

/-- Settles O31; that the pulse starts and the sequence ends while VDD is valid is the choice of notes/assumptions/96.md for R384. -/
theorem fusesAreProgrammedOnce : Obligations.FusesAreProgrammedOnce := by
  refine ⟨fun s core p h hc => ⟨exec_fuseProgram_fresh h hc, exec_fuseProgram_skipped h hc⟩, fun s f tag q l done skipped hseq hl hpulse => ?_⟩
  have hrow : exec (.nvmProgramEnd .fuse f) s = .next s.fuseEnd := by
    have hgo : (s.marginOk || s.nvm.pulse) = true := by simpa [State.marginOk] using hpulse
    exact congrArg Host.Outcome.next (if_pos hgo)
  have hend : s.fuseEnd = { s with
      dev := { s.dev with fuseSeq := none }
      nvm := { s.nvm.blow l with pulse := s.sb.vdd && s.dev.optWrite.isSome }
      q := s.entered [⟨tag, .ok, 0, 0xFF, q, s.m7pos, BitVec.ofNat 32 (done + skipped * 2 ^ 16), false⟩] } := by
    unfold State.fuseEnd
    rw [hseq]
    simp [complete_entered, State.settlePulse, State.marginOk, fuseWord, fields, State.entered]
  refine ⟨_, hrow.trans (congrArg _ hend), rfl, fun r hr => foldl_set_mem hl _ hr, fun i hi => foldl_set_other l _ i hi⟩

end Sys2Proof.Machine
end

section
/-! SUPPORT. The evaluation of an axis at a snapshot, and what only moves one axis (03_motion_segments.md R85; 05_current_control.md R143, R147). -/
namespace Sys2Proof.Machine
open Sys2Proof

/-! ### What only moves one axis -/

/-- An axis whose settings, protection and binding stand, and of its drive whether it is enabled. -/
structure Axis.Moved (x y : Axis) : Prop where
  cfg : y.cfg = x.cfg
  prot : y.prot = x.prot
  enabled : y.drv.enabled = x.drv.enabled
  master : y.mot.master = x.mot.master
  mProg : y.mot.mProg = x.mot.mProg

theorem Axis.Moved.refl (x : Axis) : x.Moved x := ⟨rfl, rfl, rfl, rfl, rfl⟩

section
variable {s t u : State} {n : AxisId}

theorem onlyMoved_refl (s : State) (n : AxisId) : s.onlyMoved s n := ⟨rfl, fun _ _ => rfl, rfl, rfl, rfl, rfl, rfl⟩

theorem onlyMoved_trans (h : s.onlyMoved t n) (k : t.onlyMoved u n) : s.onlyMoved u n := by
  obtain ⟨h1, h2, h3, h4, h5, h6, h7⟩ := h
  obtain ⟨k1, k2, k3, k4, k5, k6, k7⟩ := k
  refine ⟨k1.trans ?_, fun j hj => (k2 j hj).trans (h2 j hj), k3.trans h3, k4.trans h4, k5.trans h5, k6.trans h6, k7.trans h7⟩
  rw [h1]

theorem modAxis_onlyMoved (s : State) (n : AxisId) (f : Axis → Axis) (hf : (s.ax n).Moved (f (s.ax n))) : s.onlyMoved (s.modAxis n f) n := by
  obtain ⟨h1, h2, h3, h4, h5⟩ := hf
  refine ⟨rfl, fun k hk => modAxis_ax_other _ _ _ _ hk, ?_, ?_, ?_, ?_, ?_⟩ <;> rw [modAxis_ax_self] <;> assumption

theorem modMot_onlyMoved (s : State) (n : AxisId) (f : AxisMotion → AxisMotion) (hm : (f (s.ax n).mot).master = (s.ax n).mot.master)
    (hp : (f (s.ax n).mot).mProg = (s.ax n).mot.mProg) : s.onlyMoved (s.modMot n f) n := modAxis_onlyMoved s n _ ⟨rfl, rfl, rfl, hm, hp⟩

theorem modDrv_onlyMoved (s : State) (n : AxisId) (f : AxisDrive → AxisDrive) (he : (f (s.ax n).drv).enabled = (s.ax n).drv.enabled) :
    s.onlyMoved (s.modDrv n f) n := modAxis_onlyMoved s n _ ⟨rfl, rfl, he, rfl, rfl⟩

theorem modEnc_onlyMoved (s : State) (n : AxisId) (f : AxisEnc → AxisEnc) : s.onlyMoved (s.modEnc n f) n :=
  modAxis_onlyMoved s n _ ⟨rfl, rfl, rfl, rfl, rfl⟩

theorem onlyMoved_of_queues (h : t = { s with q := t.q, sb := t.sb }) (n : AxisId) : s.onlyMoved t n := by
  have hax (k) : t.ax k = s.ax k := by rw [h]; rfl
  refine ⟨by rw [h], fun k _ => hax k, ?_, ?_, ?_, ?_, ?_⟩ <;> rw [hax]

end

/-! ### Evaluating an axis (R59 step 5, R85) -/

/-- What an evaluation leaves of the motion: all but the position, the velocity and what follows from them. -/
def AxisMotion.evaluated (a b : AxisMotion) : Prop :=
  b = { a with pos := b.pos, vel := b.vel, out := b.out, overspeed := b.overspeed, moving := b.moving }

/-- The evaluation of an axis changes that axis alone, and of its motion what R85 and R107 say. -/
structure State.Evaluates (s t : State) (n : AxisId) : Prop where
  moved : s.onlyMoved t n
  q : t.q = s.q
  sb : t.sb = s.sb
  mot : (s.ax n).mot.evaluated (t.ax n).mot
  enabling : (t.ax n).drv.enabling = (s.ax n).drv.enabling

theorem State.Evaluates.refl (s : State) (n : AxisId) : s.Evaluates s n := ⟨onlyMoved_refl s n, rfl, rfl, rfl, rfl⟩

theorem State.Evaluates.trans {s t u : State} {n : AxisId} (h : s.Evaluates t n) (k : t.Evaluates u n) : s.Evaluates u n where
  moved := onlyMoved_trans h.moved k.moved
  q := k.q.trans h.q
  sb := k.sb.trans h.sb
  mot := by
    have hm := h.mot
    have km := k.mot
    unfold AxisMotion.evaluated at hm km ⊢
    rw [km, hm]
  enabling := k.enabling.trans h.enabling

theorem modMot_evaluates (s : State) (n : AxisId) (f : AxisMotion → AxisMotion) (hf : (s.ax n).mot.evaluated (f (s.ax n).mot)) :
    s.Evaluates (s.modMot n f) n where
  moved := modMot_onlyMoved s n f (by rw [hf]) (by rw [hf])
  q := rfl
  sb := rfl
  mot := by rw [modMot_ax_self]; exact hf
  enabling := by rw [modMot_ax_self]

theorem modDrv_evaluates (s : State) (n : AxisId) (f : AxisDrive → AxisDrive) (he : (f (s.ax n).drv).enabled = (s.ax n).drv.enabled)
    (hg : (f (s.ax n).drv).enabling = (s.ax n).drv.enabling) : s.Evaluates (s.modDrv n f) n where
  moved := modDrv_onlyMoved s n f he
  q := rfl
  sb := rfl
  mot := by rw [modDrv_ax_self]; rfl
  enabling := by rw [modDrv_ax_self]; exact hg

theorem modEnc_evaluates (s : State) (n : AxisId) (f : AxisEnc → AxisEnc) : s.Evaluates (s.modEnc n f) n where
  moved := modEnc_onlyMoved s n f
  q := rfl
  sb := rfl
  mot := by rw [modEnc_ax_self]; rfl
  enabling := by rw [modEnc_ax_self]

theorem reeval_evaluates (s : State) (n : AxisId) : s.Evaluates (s.reeval n) n := by
  unfold State.reeval
  extract_lets a
  split
  · exact .refl s n
  · exact modMot_evaluates s n _ rfl

theorem selectAmp_evaluates (s : State) (n : AxisId) : s.Evaluates (s.selectAmp n) n := by
  unfold State.selectAmp
  extract_lets x mv hd m la sel amp s1
  split
  · exact (modDrv_evaluates s n _ rfl rfl).trans (modMot_evaluates _ n _ rfl)
  · exact (modDrv_evaluates s n _ rfl rfl).trans (modMot_evaluates _ n _ rfl)

theorem angle_evaluates (s : State) (n : AxisId) (th amp : Nat) : s.Evaluates (s.angle n th amp) n := by
  unfold State.angle
  exact modDrv_evaluates s n _ rfl rfl

theorem setCoils_evaluates (s : State) (n : AxisId) : s.Evaluates (s.setCoils n) n := by
  unfold State.setCoils
  extract_lets x l sg th
  split
  · exact modDrv_evaluates s n _ rfl rfl
  · split
    · exact (modEnc_evaluates s n _).trans (angle_evaluates ..)
    · exact angle_evaluates ..

theorem refresh_evaluates (s : State) (n : AxisId) : s.Evaluates (s.refresh n) n :=
  ((reeval_evaluates s n).trans (selectAmp_evaluates ..)).trans (setCoils_evaluates ..)

/-- Selecting the amplitude and the set-points leaves position and velocity. -/
theorem modDrv_pos (s : State) (n : AxisId) (f : AxisDrive → AxisDrive) : ((s.modDrv n f).ax n).mot = (s.ax n).mot := by rw [modDrv_ax_self]

theorem selectAmp_pos (s : State) (n : AxisId) : ((s.selectAmp n).ax n).mot.pos = (s.ax n).mot.pos ∧ ((s.selectAmp n).ax n).mot.vel = (s.ax n).mot.vel := by
  unfold State.selectAmp
  extract_lets x mv hd m la sel amp s1
  split <;> rw [modMot_ax_self, modDrv_ax_self] <;> exact ⟨rfl, rfl⟩

theorem setCoils_mot (s : State) (n : AxisId) : ((s.setCoils n).ax n).mot = (s.ax n).mot := by
  unfold State.setCoils
  extract_lets x l sg th
  split
  · exact modDrv_pos ..
  · split
    · exact (modDrv_pos ..).trans (by rw [modEnc_ax_self])
    · exact modDrv_pos ..

/-- An axis that no retry holds stands, after its evaluation, where its plans put it (R85). -/
theorem refresh_pos {s : State} {n : AxisId} (h : (s.ax n).mot.held = none) :
    (((s.refresh n).ax n).mot.pos, ((s.refresh n).ax n).mot.vel) = (s.ax n).mot.eval (s.ax n).mot.mProg s.m7 := by
  have hre : s.reeval n = s.modMot n fun a => ({ a with pos := ((s.ax n).mot.eval (s.ax n).mot.mProg s.m7).1
                                                        vel := ((s.ax n).mot.eval (s.ax n).mot.mProg s.m7).2 }).follow (s.outLimit n) := by
    unfold State.reeval
    exact if_neg (by rw [h]; exact Bool.false_ne_true)
  unfold State.refresh
  rw [setCoils_mot, (selectAmp_pos _ n).1, (selectAmp_pos _ n).2, hre, modMot_ax_self]
  rfl

/-- What an evaluation leaves: runs, queue, stop, jog and what a retry holds. -/
theorem AxisMotion.evaluated.keeps {a b : AxisMotion} (h : a.evaluated b) :
    b.runs = a.runs ∧ b.queue = a.queue ∧ b.stop = a.stop ∧ b.jog = a.jog ∧ b.held = a.held := by
  unfold AxisMotion.evaluated at h
  rw [h]
  exact ⟨rfl, rfl, rfl, rfl, rfl⟩

/-- The end of every snapshot row of one axis (R59 step 5): what was changed there stands, and the axis is where its plans put it. -/
structure State.MovedTo (s u t : State) (n : AxisId) : Prop where
  moved : s.onlyMoved t n
  q : t.q = u.q
  sb : t.sb = u.sb
  runs : (t.ax n).mot.runs = (u.ax n).mot.runs
  queue : (t.ax n).mot.queue = (u.ax n).mot.queue
  stop : (t.ax n).mot.stop = (u.ax n).mot.stop
  place : (u.ax n).mot.held = none →
    (t.ax n).mot.pos = ((u.ax n).mot.eval (s.ax n).mot.mProg s.m7).1 ∧ (t.ax n).mot.vel = ((u.ax n).mot.eval (s.ax n).mot.mProg s.m7).2

theorem refresh_movedTo {s u : State} {n : AxisId} (h : s.onlyMoved u n) : s.MovedTo u (u.refresh n) n := by
  have hev := refresh_evaluates u n
  obtain ⟨hruns, hqueue, hstop, -, -⟩ := hev.mot.keeps
  have hm7 : u.m7 = s.m7 := by rw [h.1]; rfl
  have hprog : (u.ax n).mot.mProg = (s.ax n).mot.mProg := h.2.2.2.2.2.2
  refine ⟨onlyMoved_trans h hev.moved, hev.q, hev.sb, hruns, hqueue, hstop, fun hheld => ?_⟩
  have hpos := refresh_pos (s := u) hheld
  rw [hm7, hprog] at hpos
  exact ⟨congrArg Prod.fst hpos, congrArg Prod.snd hpos⟩

/-! ### Phases that are used up (R77, R85) -/

theorem findPhase_eq_none {l : List Phase} {x : Int} (h : (totalLen l : Int) * 65536 ≤ x) : findPhase l x = none := by
  induction l generalizing x with
  | nil => rfl
  | cons ph rest ih =>
    have hlen : (totalLen (ph :: rest) : Int) = ph.len + totalLen rest := by simp [totalLen]
    rw [hlen] at h
    have hfull : ph.full = (ph.len : Int) * 65536 := rfl
    unfold findPhase
    rw [if_neg (by omega)]
    exact ih (by omega)

theorem evalPhases_over {ps x : Int} {l : List Phase} {tgt : Option Int} (h : (totalLen l : Int) * 65536 ≤ x) :
    evalPhases ps l tgt false x = (tgt.getD (endPos ps l), 0) := by
  unfold evalPhases
  rw [findPhase_eq_none (h.trans (le_max_left ..))]
  unfold endPos
  cases l.getLast? <;> rfl

end Sys2Proof.Machine
end

section
/-! PROOF. Starts, ends, re-anchoring, deadlines and timeouts of segments (03_motion_segments.md R74 to R99; 04_axio_homing.md R126, R131). -/
namespace Sys2Proof.Machine
open Sys2Proof

/-! ### A segment that ends with no batch in the table -/

theorem reapBatches_nil (k : Nat) : reapBatches k [] = [] := by
  induction k with
  | zero => rfl
  | succ k ih => exact ih

theorem batches_entered (s : State) (l : List Completion) : (s.entered l).batches = s.q.batches := by
  unfold State.entered
  split
  · rfl
  · split
    · rfl
    · split <;> rfl

theorem actions_entered (s : State) (l : List Completion) : (s.entered l).actions = s.q.actions := by
  unfold State.entered
  split
  · rfl
  · split
    · rfl
    · split <;> rfl

theorem reap_noBatch {s : State} (h : s.q.batches = []) : s.reap = s := by
  unfold State.reap
  rw [h, reapBatches_nil, ← h]

/-- With no batch in the table the end of a segment of your host is its entry. -/
theorem completeSeg_noBatch (s : State) (n : AxisId) {g : Segment} {tag : BitVec 16} {q : BitVec 4} (hg : g.ref = .host tag q)
    (hb : s.q.batches = []) (st : Status) (mp : Word) (w : Option Word) (d : Nat) (t e : Int) :
    s.completeSeg n g st mp w d t e = { s with q := s.entered [s.segEntryOf n g tag q st mp w d] } := by
  have hm : s.memberEnds n g.batch t e = s := by
    unfold State.memberEnds
    split
    · rfl
    · rw [hb]
      conv_rhs => rw [show s = { s with q := { s.q with batches := s.q.batches } } from rfl, hb]
      rfl
  have hbs := (batches_entered s [s.segEntryOf n g tag q st mp w d]).trans hb
  have h1 : s.completeSeg n g st mp w d t e = ((s.memberEnds n g.batch t e).complete g.ref st (segFlagByte g.flags (s.ax n).mot.unsure) (axByte n) mp
    (if g.flags.headDelayed then BitVec.ofNat 32 d else w.getD (outWord (s.ax n).mot.out))).reap := rfl
  rw [h1, hm, hg, complete_entered]
  exact reap_noBatch hbs

/-- The entry of a segment whose start the governor did not delay. -/
theorem segEntryOf_undelayed (s : State) (n : AxisId) {g : Segment} (h : g.flags.headDelayed = false) (tag : BitVec 16) (q : BitVec 4)
    (st : Status) (mp : Word) (w : Option Word) (d : Nat) : s.segEntryOf n g tag q st mp w d =
      ⟨tag, st, segFlagByte g.flags (s.ax n).mot.unsure, axByte n, q, mp, w.getD (outWord (s.ax n).mot.out), false⟩ := by
  unfold State.segEntryOf
  rw [h]
  rfl

/-! ### The end of a run and of a stop (R77, R96) -/

theorem Run.over_spent {r : Run} {m m7 : Int} (h : r.over m m7 = true) :
    r.unbounded = false ∧ (totalLen r.phases : Int) * 65536 ≤ r.at m m7 - r.ms := by
  unfold Run.over at h
  split at h
  · cases h
  · simpa using h

theorem Run.eval_over {r : Run} {m m7 : Int} (h : r.over m m7 = true) : r.eval m m7 = (r.target.getD (endPos r.ps r.phases), 0) := by
  obtain ⟨hu, hl⟩ := Run.over_spent h
  unfold Run.eval
  rw [hu]
  exact evalPhases_over hl

/-- What the end of a stop or of a run makes of the motion of its axis: at rest at `p`. -/
structure AxisMotion.RestsAt (a b : AxisMotion) (p : Int) : Prop where
  runs : b.runs = []
  stop : b.stop = none
  jog : b.jog = none
  held : b.held = none
  queue : b.queue = a.queue
  pos : b.pos = p

theorem AxisMotion.RestsAt.eval {a b : AxisMotion} {p : Int} (h : a.RestsAt b p) (m m7 : Int) : b.eval m m7 = (p, 0) := by
  unfold AxisMotion.eval
  rw [h.stop, h.jog, h.runs, h.pos]

section
variable {s : State} {n : AxisId} {r : Run} {tag : BitVec 16} {q : BitVec 4}

theorem endDone_over (hs : (s.ax n).mot.stop = none) (hh : (s.ax n).mot.held = none) (hr : (s.ax n).mot.runs = [r])
    (ho : r.over (s.ax n).mot.mProg s.m7 = true) : s.endDone n = s.endFirst n r [] := by
  unfold State.endDone
  extract_lets a
  rw [if_neg (by rw [hh]; exact Bool.false_ne_true), hs, hr]
  exact if_pos ho

theorem dropsBlend_noOverlap (a : AxisMotion) (h : r.seg.overlap = false) : a.dropsBlend r = false := by
  unfold AxisMotion.dropsBlend
  rw [h]
  rfl

/-- The only run of an axis, of your host and in no blend, ends with nothing decided. -/
theorem endFirst_entered (hs : (s.ax n).mot.stop = none) (hj : (s.ax n).mot.jog = none) (hh : (s.ax n).mot.held = none) (hm : r.onM7 = false)
    (href : r.seg.ref = .host tag q) (ho : r.seg.overlap = false) (hd : r.seg.flags.headDelayed = false) (hb : s.q.batches = [])
    (hdec : r.decided = none) (hover : r.over (s.ax n).mot.mProg s.m7 = true) :
    ∃ u : State, s.endFirst n r [] = { u with q := s.entered [⟨tag, .ok, segFlagByte r.seg.flags (s.ax n).mot.unsure, axByte n, q,
        r.seg.kind.endMpos (r.ms / 65536 + totalLen r.phases) (s.ax n).mot.mProg, outWord (s.ax n).mot.out, false⟩] }
      ∧ s.onlyMoved u n ∧ u.sb = s.sb ∧ (s.ax n).mot.RestsAt (u.ax n).mot (r.target.getD (endPos r.ps r.phases)) := by
  unfold State.endFirst
  extract_lets a m away e dropped gs gf g d fin s1 te
  have hdrop : dropped = false := by simp only [dropped, dropsBlend_noOverlap a ho, Bool.and_false]
  have haway : away = false := by simp only [away, hm, Bool.false_and]
  have hg : g = r.seg := by
    change ({ r.seg with flags := { r.seg.flags with blendDropped := r.seg.flags.blendDropped || dropped } } : Segment) = r.seg
    rw [hdrop, Bool.or_false]
  have he : e = r.ms / 65536 + totalLen r.phases := by simp only [e, haway, Bool.false_eq_true, if_false]
  rw [hdec, he, hg]
  have hmot : (s1.ax n).mot = _ := congrArg Axis.mot (modMot_ax_self ..)
  have hc := completeSeg_noBatch s1 n href (by exact hb) .ok (r.seg.kind.endMpos (r.ms / 65536 + totalLen r.phases) m) none r.delay te.1 te.2
  refine ⟨s1, hc.trans ?_, modMot_onlyMoved s n _ rfl rfl, rfl, ?_⟩
  · rw [segEntryOf_undelayed _ _ hd, hmot]
    rfl
  · rw [hmot]
    exact ⟨rfl, hs, hj, hh, rfl, congrArg Prod.fst (Run.eval_over hover)⟩

theorem countDisable_noActions {s : State} (h : s.q.actions = []) (n : AxisId) (k : Nat) : s.countDisable n k = s := by
  unfold State.countDisable
  rw [h, List.map_nil, ← h]

theorem waitingActs_noActions {s : State} (h : s.q.actions = []) (n : AxisId) (ks : List ActKind) : s.waitingActs n ks = [] := by
  unfold State.waitingActs
  rw [h]
  rfl

theorem endDone_stop {st : StopMotion} (hs : (s.ax n).mot.stop = some st) (hh : (s.ax n).mot.held = none) (hm : st.onM7 = false)
    (ho : (totalLen st.phases : Int) * 65536 ≤ (s.ax n).mot.mProg - st.ms) : s.endDone n = s.endStop n st := by
  unfold State.endDone
  extract_lets a
  rw [if_neg (by rw [hh]; exact Bool.false_ne_true), hs]
  exact if_pos (by rw [hm]; exact ho)

/-- The stop of the only run of an axis, of your host and with nothing else decided, has run out. -/
theorem endStop_entered {st : StopMotion} (hh : (s.ax n).mot.held = none) (hr : (s.ax n).mot.runs = [r]) (hm : st.onM7 = false)
    (href : r.seg.ref = .host tag q) (ho : r.seg.overlap = false) (hd : r.seg.flags.headDelayed = false) (hb : s.q.batches = [])
    (hdec : r.decided.getD (.stopped, none) = (.stopped, none)) (hact : s.q.actions = []) :
    ∃ u : State, s.endStop n st = { u with q := s.entered [⟨tag, .stopped,
        segFlagByte { r.seg.flags with accelClamped := r.seg.flags.accelClamped || st.clamped } (s.ax n).mot.unsure, axByte n, q,
        r.seg.kind.endMpos (st.ms / 65536 + totalLen st.phases) (s.ax n).mot.mProg, outWord (s.ax n).mot.out, false⟩] }
      ∧ s.onlyMoved u n ∧ u.sb = s.sb ∧ (s.ax n).mot.RestsAt (u.ax n).mot (endPos st.ps st.phases) := by
  let a := (s.ax n).mot
  let g : Segment := { r.seg with flags := { r.seg.flags with
    accelClamped := r.seg.flags.accelClamped || st.clamped, blendDropped := r.seg.flags.blendDropped || r.dropsWith a } }
  have hdrop : r.dropsWith a = false := by
    unfold Run.dropsWith
    rw [dropsBlend_noOverlap a ho, Bool.and_false]
  have hg : g = { r.seg with flags := { r.seg.flags with accelClamped := r.seg.flags.accelClamped || st.clamped } } := by
    change ({ r.seg with flags := { r.seg.flags with
      accelClamped := r.seg.flags.accelClamped || st.clamped, blendDropped := r.seg.flags.blendDropped || r.dropsWith a } } : Segment) = _
    rw [hdrop, Bool.or_false]
  unfold State.endStop
  extract_lets away e d fin s1 s2 bad cnt s3
  have haway : away = false := by simp only [away, hm, Bool.false_and]
  have he : e = st.ms / 65536 + totalLen st.phases := by simp only [e, haway, Bool.false_eq_true, if_false]
  have hmot : (s1.ax n).mot = _ := congrArg Axis.mot (modMot_ax_self ..)
  have hruns : a.runs = [r] := hr
  have hs2 : s2 = s1.completeSeg n g .stopped (g.kind.endMpos e a.mProg) none r.delay (r.endsAt false a.mProg e).1 (r.endsAt false a.mProg e).2 := by
    simp only [s2, hruns]
    change s1.completeSeg n g (r.decided.getD (.stopped, none)).1 _ (r.decided.getD (.stopped, none)).2 _ _ _ = _
    rw [hdec]
  have hc := completeSeg_noBatch s1 n (g := g) href (by exact hb) .stopped (g.kind.endMpos e a.mProg) none r.delay
    (r.endsAt false a.mProg e).1 (r.endsAt false a.mProg e).2
  have hbad : bad = false := by
    simp only [bad, hruns, List.any_cons, List.any_nil, Bool.or_false]
    split
    next st' w h =>
      rw [h] at hdec
      obtain ⟨rfl, rfl⟩ := Prod.mk.inj hdec
      rfl
    next => rfl
  have hact2 : s2.q.actions = [] := by
    rw [hs2, hc]
    exact (actions_entered ..).trans hact
  have hs3 : s3 = s2 := by
    simp only [s3, hbad, Bool.false_eq_true, if_false]
    exact countDisable_noActions hact2 n cnt
  rw [hs3, waitingActs_noActions hact2]
  refine ⟨s1, (hs2.trans hc).trans ?_, modMot_onlyMoved s n _ rfl rfl, rfl, ?_⟩
  · rw [segEntryOf_undelayed _ _ (by exact hd), hg, he, hmot]
    rfl
  · rw [hmot]
    exact ⟨rfl, rfl, rfl, hh, rfl, rfl⟩

end

/-- The row of an axis of which everything has ended: its evaluation leaves it at rest at `p`. -/
theorem exec_segmentEnd_rests {s u : State} {n : AxisId} {k : Queues} {p : Int} (h : s.endDone n = { u with q := k })
    (hmoved : s.onlyMoved u n) (hsb : u.sb = s.sb) (hrest : (s.ax n).mot.RestsAt (u.ax n).mot p) :
    ∃ t, exec (.segmentEnd n) s = .next t ∧ s.onlyMoved t n ∧ t.sb = s.sb ∧ (t.ax n).mot.runs = [] ∧ (t.ax n).mot.stop = none
      ∧ (t.ax n).mot.queue = (s.ax n).mot.queue ∧ (t.ax n).mot.pos = p ∧ (t.ax n).mot.vel = 0 ∧ t.q = k := by
  have hv : s.MovedTo { u with q := k } (({ u with q := k } : State).refresh n) n :=
    refresh_movedTo (onlyMoved_trans hmoved (onlyMoved_of_queues rfl n))
  have hplace := hv.place hrest.held
  exact ⟨_, congrArg (fun t : State => Host.Outcome.next (t.refresh n)) h, hv.moved, hv.sb.trans hsb, hv.runs.trans hrest.runs,
    hv.stop.trans hrest.stop, hv.queue.trans hrest.queue, hplace.1.trans (congrArg Prod.fst (hrest.eval ..)),
    hplace.2.trans (congrArg Prod.snd (hrest.eval ..)), hv.q⟩

/-- Settles O43: the row ends the run, or the stop with what it stops, with its entry, and the evaluation of the axis leaves it at rest
there. MPOS is E for a stopped segment too, and m_prog for a VELOCITY (notes/assumptions/41.md); WORD is the output position of R323
(notes/assumptions/42.md). -/
theorem segmentsEndWithTheirCompletion : Obligations.SegmentsEndWithTheirCompletion := by
  intro s n r tag q hr hj hh hm href hbt ho hd hb
  refine ⟨fun e hs hdec hover he => ?_, fun st e hs hm' hdec hlen he hact => ?_⟩
  · obtain ⟨u, hu, hmoved, hsb, hrest⟩ := endFirst_entered hs hj hh hm href ho hd hb hdec hover
    obtain ⟨t, ht, hmt, hst, hruns, -, hqueue, hpos, hvel, hq⟩ := exec_segmentEnd_rests ((endDone_over hs hh hr hover).trans hu) hmoved hsb hrest
    exact ⟨t, ht, hmt, hst, hruns, hqueue, hpos, hvel, by rw [he]; exact hq⟩
  · obtain ⟨u, hu, hmoved, hsb, hrest⟩ := endStop_entered hh hr hm' href ho hd hb hdec hact
    obtain ⟨t, ht, hmt, hst, hruns, hstop, hqueue, hpos, hvel, hq⟩ :=
      exec_segmentEnd_rests ((endDone_stop hs hh hm' hlen).trans hu) hmoved hsb hrest
    exact ⟨t, ht, hmt, hst, hruns, hstop, hqueue, hpos, hvel, by rw [he]; exact hq⟩

end Sys2Proof.Machine
end

section
/-! PROOF. Starts of segments at a snapshot (03_motion_segments.md R74 to R76; 04_axio_homing.md R126). -/
namespace Sys2Proof.Machine
open Sys2Proof

/-! ### The head of the queue of an axis at rest (R74) -/

/-- The head of the queue of an enabled axis at rest, seen by a snapshot, with no START, BATCH or governor to wait for. -/
structure State.HeadReady (s : State) (n : AxisId) (g : Segment) (rest : List Segment) : Prop where
  queue : (s.ax n).mot.queue = g :: rest
  seen : g.seen = true
  start : g.start = none
  batch : g.batch = 0
  undelayed : g.flags.headDelayed = false
  enabled : (s.ax n).drv.enabled = true
  enabling : (s.ax n).drv.enabling = false
  disabling : (s.ax n).drv.disabling = false
  stop : (s.ax n).mot.stop = none
  jog : (s.ax n).mot.jog = none
  held : (s.ax n).mot.held = none
  runs : (s.ax n).mot.runs = []
  lastEnd : (s.ax n).mot.lastEnd = none

section
variable {s : State} {n : AxisId} {g : Segment} {rest : List Segment}

theorem batchGrant_free (s : State) (n : AxisId) (h : g.batch = 0) : s.batchGrant n g = some none := if_pos h

theorem governed_noBatch (s : State) (h : g.batch = 0) : s.governed g = false := by
  have hf : (s.q.batches.find? fun b => b.id = g.batch && g.batch ≠ 0) = none := by
    rw [h]
    simp
  unfold State.governed
  rw [hf]

theorem govern_noBatch (s : State) (n : AxisId) (h : g.batch = 0) : s.govern n g = (true, s) := by
  unfold State.govern
  rw [governed_noBatch s h]
  rfl

theorem State.HeadReady.tryStart (h : s.HeadReady n g rest) :
    s.tryStart n = s.startIdle n g [] none (s.startDir n g.kind (s.ax n).mot.pos 0) false := by
  unfold State.tryStart
  simp only [h.queue, h.seen, h.start, h.enabled, h.enabling, h.disabling, h.stop, h.jog, h.held, h.runs, h.lastEnd, batchGrant_free s n h.batch]
  simp

theorem State.HeadReady.startMs (h : s.HeadReady n g rest) :
    (s.ax n).mot.startMs g ((s.ax n).mot.endedNow ++ []) = (s.ax n).mot.mProg / 65536 := by
  unfold AxisMotion.startMs AxisMotion.endedNow
  rw [h.undelayed, h.lastEnd]
  rfl

/-- A head that is not sent away by a limit starts at the whole m_prog from the present position (R75, R76). -/
theorem State.HeadReady.starts (h : s.HeadReady n g rest)
    (hl : g.kind.limited = false ∨ s.limitOn n (s.startDir n g.kind (s.ax n).mot.pos 0) = false) :
    ∃ delay, s.tryStart n = s.startAt n g [] ((s.ax n).mot.mProg / 65536) (s.ax n).mot.pos 0 delay := by
  have hlim : ¬ ((g.kind.limited && decide (s.startDir n g.kind (s.ax n).mot.pos 0 ≠ 0)
      && s.limitOn n (s.startDir n g.kind (s.ax n).mot.pos 0)) = true) := by
    rcases hl with hl | hl <;> rw [hl] <;> simp
  have hm7 : (s.ax n).mot.endedOnM7 = false := by
    unfold AxisMotion.endedOnM7
    rw [h.lastEnd]
    rfl
  rw [h.tryStart]
  unfold State.startIdle
  extract_lets a ms
  have hms : ms = (s.ax n).mot.mProg / 65536 := by
    simp only [ms, a, hm7, h.startMs]
    rfl
  rw [if_neg hlim, govern_noBatch s n h.batch, hms]
  exact ⟨_, rfl⟩

/-! ### A start by a plan (R76, R86, R93) -/

/-- A TIMED HOLD is measured on M7 (R93). -/
def SegKind.startsOnM7 : SegKind → Bool
  | .hold _ true => true
  | _ => false

/-- The run with which the head of a queue starts at `ms` from rest at `ps` (R76). -/
def State.headRun (s : State) (g : Segment) (ms ps : Int) (delay : Nat) : Run :=
  mkRun g ((if g.kind.startsOnM7 then s.m7 / 65536 else ms) * 65536) ps 0 (planSeg g.kind ps 0) g.kind.startsOnM7 delay

theorem startAt_planned {ms ps : Int} {delay : Nat} (hk : g.kind.homeOps = none) (hp : admitPlan g.kind (planSeg g.kind ps 0) = true)
    (hb : g.batch = 0) : s.startAt n g [] ms ps 0 delay =
      ((s.popQueue n).modMot n fun a => ({ a with runs := [s.headRun g ms ps delay] }).markTails s.m7).newHead n (planSeg g.kind ps 0).phases := by
  unfold State.startAt
  split
  next heq => exact absurd (hk.symm.trans heq) (Option.some_ne_none _).symm
  extract_lets pl
  rw [if_pos hp]
  split
  next ms' m7 hm =>
  have hm' : (ms', m7) = (if g.kind.startsOnM7 then s.m7 / 65536 else ms, g.kind.startsOnM7) := by
    rw [← hm]
    cases g.kind with
    | hold w timed => cases timed <;> rfl
    | _ => rfl
  obtain ⟨rfl, rfl⟩ := Prod.mk.inj hm'
  extract_lets r s1
  have htail : s1.memberTail n g.batch ((s.ax n).mot.mProg / 65536) = s1 := if_pos hb
  rw [htail, ite_self]
  rfl

/-- The head of a queue with its mark of blending set anew (R100). -/
def remarked (blend : Segment → Bool) : List Segment → List Segment
  | g :: rest => { g with blendOk := blend g } :: rest
  | [] => []

theorem sameQueue_remarked (blend : Segment → Bool) (l : List Segment) : sameQueue (remarked blend l) l := by
  cases l <;> rfl

/-- What tail marks leave of an axis with one run: all but the mark itself and that of the head behind it. -/
theorem markTails_single (a : AxisMotion) (r : Run) (m7 : Int) (hs : a.stop = none) (hh : a.held = none) (hr : a.runs = [r]) :
    ∃ blend, a.markTails m7 = { a with
      runs := [{ r with tailSeen := r.tailSeen || (!r.unbounded && r.tailPos * 65536 ≤ r.at a.mProg m7) }], queue := remarked blend a.queue } := by
  unfold AxisMotion.markTails
  extract_lets inTail lastNew
  rw [if_neg (by rw [hs, hh]; exact Bool.false_ne_true), hr]
  refine ⟨fun g => g.blendOk || (lastNew && g.seen), ?_⟩
  cases a.queue <;> rfl

theorem newHead_evaluates (s : State) (n : AxisId) (l : List Phase) : s.Evaluates (s.newHead n l) n := by
  unfold State.newHead
  split
  · exact modDrv_evaluates s n _ rfl rfl
  · exact .refl s n

theorem newHead_mot (s : State) (n : AxisId) (l : List Phase) : ((s.newHead n l).ax n).mot = (s.ax n).mot := by
  unfold State.newHead
  split
  · exact modDrv_pos ..
  · rfl

theorem markTails_onlyMoved (s : State) (n : AxisId) (l : List Run) (m7 : Int) :
    s.onlyMoved (s.modMot n fun a => { a with runs := l }.markTails m7) n := by
  refine modMot_onlyMoved s n _ ?_ ?_ <;> unfold AxisMotion.markTails <;> extract_lets inTail lastNew <;> split <;> rfl

theorem startDir_limited (s : State) (n : AxisId) {k : SegKind} (h : k.limited = true) (ps was : Int) : s.startDir n k ps was = segDir k ps := by
  cases k with
  | hold w timed => cases h
  | home p t vf vs ha hd bo off => cases h
  | _ => rfl

/-- The axis after the start of its head, before its evaluation. -/
def State.headStarted (s : State) (n : AxisId) (r : Run) (l : List Phase) : State :=
  ((s.popQueue n).modMot n fun a => ({ a with runs := [r] }).markTails s.m7).newHead n l

theorem State.HeadReady.headStarted_mot (h : s.HeadReady n g rest) (r : Run) (l : List Phase) :
    ∃ (tail : Bool) (blend : Segment → Bool), ((s.headStarted n r l).ax n).mot =
      { (s.ax n).mot with runs := [{ r with tailSeen := tail }], queue := remarked blend rest } := by
  unfold State.headStarted
  rw [newHead_mot, modMot_ax_self]
  unfold State.popQueue
  rw [modMot_ax_self]
  obtain ⟨blend, hb⟩ := markTails_single ({ (s.ax n).mot with queue := (s.ax n).mot.queue.drop 1, runs := [r] } : AxisMotion) r s.m7
    h.stop h.held rfl
  refine ⟨r.tailSeen || (!r.unbounded && r.tailPos * 65536 ≤ r.at (s.ax n).mot.mProg s.m7), blend, hb.trans ?_⟩
  rw [h.queue]
  rfl

theorem headStarted_onlyMoved (s : State) (n : AxisId) (r : Run) (l : List Phase) : s.onlyMoved (s.headStarted n r l) n :=
  onlyMoved_trans (modMot_onlyMoved s n _ rfl rfl) (onlyMoved_trans (markTails_onlyMoved _ n [r] s.m7) (newHead_evaluates ..).moved)

/-- The run with which a head has started moves its axis by its plan from the snapshot on (R76, R85). -/
theorem State.HeadReady.exec_planned (h : s.HeadReady n g rest) (hk : g.kind.homeOps = none)
    (hl : g.kind.limited = false ∨ s.limitOn n (segDir g.kind (s.ax n).mot.pos) = false)
    (hp : admitPlan g.kind (planSeg g.kind (s.ax n).mot.pos 0) = true) :
    ∃ (t : State) (delay : Nat) (tail : Bool), exec (.segmentStart n) s = .next t ∧ s.onlyMoved t n ∧ t.q = s.q ∧ t.sb = s.sb
      ∧ sameQueue (t.ax n).mot.queue rest
      ∧ (t.ax n).mot.runs = [{ s.headRun g ((s.ax n).mot.mProg / 65536) (s.ax n).mot.pos delay with tailSeen := tail }]
      ∧ (t.ax n).mot.pos = ((s.headRun g ((s.ax n).mot.mProg / 65536) (s.ax n).mot.pos delay).eval (s.ax n).mot.mProg s.m7).1
      ∧ (t.ax n).mot.vel = ((s.headRun g ((s.ax n).mot.mProg / 65536) (s.ax n).mot.pos delay).eval (s.ax n).mot.mProg s.m7).2 := by
  have hdir : g.kind.limited = false ∨ s.limitOn n (s.startDir n g.kind (s.ax n).mot.pos 0) = false := by
    cases hk : g.kind.limited with
    | false => exact .inl rfl
    | true =>
      rw [startDir_limited s n hk]
      exact .inr (hl.resolve_left (by rw [hk]; exact Bool.noConfusion))
  obtain ⟨delay, hstart⟩ := h.starts hdir
  let r := s.headRun g ((s.ax n).mot.mProg / 65536) (s.ax n).mot.pos delay
  let u := s.headStarted n r (planSeg g.kind (s.ax n).mot.pos 0).phases
  have hu : s.tryStart n = u := hstart.trans (startAt_planned hk hp h.batch)
  obtain ⟨tail, blend, hmot⟩ := h.headStarted_mot r (planSeg g.kind (s.ax n).mot.pos 0).phases
  have hv : s.MovedTo u (u.refresh n) n := refresh_movedTo (headStarted_onlyMoved ..)
  have heval : ∀ m m7, (u.ax n).mot.eval m m7 = r.eval m m7 := by
    intro m m7
    unfold AxisMotion.eval
    rw [hmot, h.stop, h.jog]
    rfl
  have hplace := hv.place (by rw [hmot]; exact h.held)
  rw [heval] at hplace
  refine ⟨u.refresh n, delay, tail, by rw [← hu]; rfl, hv.moved, hv.q.trans (newHead_evaluates ..).q, hv.sb.trans (newHead_evaluates ..).sb,
    ?_, ?_, hplace⟩
  · rw [hv.queue, hmot]
    exact sameQueue_remarked blend rest
  · rw [hv.runs, hmot]

/-! ### The FAST leg of a HOME (R126) -/

theorem limited_of_homeOps {k : SegKind} {h : HomeOps} (hk : k.homeOps = some h) : k.limited = false := by
  cases k with
  | home p t vf vs ha hd bo off => rfl
  | _ => cases hk

/-- The run of a HOME before its first leg. -/
def State.homeRun (s : State) (n : AxisId) (g : Segment) (h : HomeOps) (ms ps : Int) (delay : Nat) : Run :=
  { mkRun g (ms * 65536) ps 0 ⟨[], none, false, false⟩ false delay with
    timeoutAt := if h.timeout = 0 then none else some (BitVec.ofInt 32 ((s.ax n).mot.mProg / 65536 + h.timeout)) }

/-- The first leg of a HOME that nothing blocks: its run and the axis. -/
theorem homeLeg_first {s : State} {r : Run} {h : HomeOps} {d v ms : Int} {stage : HomeStage} (hblock : s.homeBlock n d = none)
    (hp : admitPlan (.velocity (d * v) h.hacc h.hdec 0) (planVelocity (s.ax n).mot.pos 0 (d * v) h.hacc h.hdec 0) = true) :
    s.homeLeg n r h d v ms stage true = (s.modMot n fun _ => { (s.ax n).mot with
      runs := [{ r with ms := ms * 65536, ps := (s.ax n).mot.pos, vs := 0, phases := (planVelocity (s.ax n).mot.pos 0 (d * v) h.hacc h.hdec 0).phases
                        target := none, unbounded := true, home := stage }]
      lastEnd := some { e := none, dir := d, snaps := 0 } }).newHead n (planVelocity (s.ax n).mot.pos 0 (d * v) h.hacc h.hdec 0).phases := by
  unfold State.homeLeg
  rw [hblock]
  exact if_pos hp

theorem startAt_home {ms ps : Int} {delay : Nat} {h : HomeOps} {q : PinId} (hk : g.kind.homeOps = some h) (hq : s.homePin n = some q)
    (hoff : (s.pin q).isOn = false) : s.startAt n g [] ms ps 0 delay =
      ((s.popQueue n).modMot n fun a => { a with runs := [s.homeRun n g h ms ps delay] }).homeLeg n (s.homeRun n g h ms ps delay) h h.s h.vf ms
        .fast true := by
  unfold State.startAt
  split
  next h' heq =>
    obtain rfl : h = h' := Option.some.inj (hk.symm.trans heq)
    extract_lets r tmo rt on s1
    have hon : on = false := by simp only [on, hq, hoff]
    rw [hon]
    rfl
  next heq => exact absurd (hk.symm.trans heq) (Option.some_ne_none _)

/-- A HOME away from its switch starts its FAST leg. -/
theorem State.HeadReady.exec_home (hr : s.HeadReady n g rest) {h : HomeOps} {q : PinId} (hk : g.kind.homeOps = some h)
    (hq : s.homePin n = some q) (hoff : (s.pin q).isOn = false) (hblock : s.homeBlock n h.s = none)
    (hp : admitPlan (.velocity (h.s * h.vf) h.hacc h.hdec 0) (planVelocity (s.ax n).mot.pos 0 (h.s * h.vf) h.hacc h.hdec 0) = true) :
    ∃ (t : State) (delay : Nat), exec (.segmentStart n) s = .next t ∧ s.onlyMoved t n ∧ t.q = s.q ∧ t.sb = s.sb ∧ (t.ax n).mot.queue = rest
      ∧ (t.ax n).mot.runs = [{ s.homeRun n g h ((s.ax n).mot.mProg / 65536) (s.ax n).mot.pos delay with
          ms := (s.ax n).mot.mProg / 65536 * 65536, ps := (s.ax n).mot.pos, vs := 0
          phases := (planVelocity (s.ax n).mot.pos 0 (h.s * h.vf) h.hacc h.hdec 0).phases, target := none, unbounded := true, home := .fast }] := by
  obtain ⟨delay, hstart⟩ := hr.starts (.inl (limited_of_homeOps hk))
  let r := s.homeRun n g h ((s.ax n).mot.mProg / 65536) (s.ax n).mot.pos delay
  let s1 := (s.popQueue n).modMot n fun a => { a with runs := [r] }
  let u := s1.homeLeg n r h h.s h.vf ((s.ax n).mot.mProg / 65536) .fast true
  have hu : s.tryStart n = u := hstart.trans (startAt_home hk hq hoff)
  have hs1 : (s1.ax n).mot = { (s.ax n).mot with queue := rest, runs := [r] } := by
    unfold s1 State.popQueue
    rw [modMot_ax_self, modMot_ax_self]
    change ({ (s.ax n).mot with queue := (s.ax n).mot.queue.drop 1, runs := [r] } : AxisMotion) = _
    rw [hr.queue]
    rfl
  have hpos : (s1.ax n).mot.pos = (s.ax n).mot.pos := by rw [hs1]
  have hleg := homeLeg_first (s := s1) (n := n) (r := r) (h := h) (d := h.s) (v := h.vf) (ms := (s.ax n).mot.mProg / 65536) (stage := .fast)
    hblock (by rw [hpos]; exact hp)
  rw [hpos] at hleg
  have hprog : (s1.ax n).mot.mProg = (s.ax n).mot.mProg := by rw [hs1]
  have hs1moved : s.onlyMoved s1 n := onlyMoved_trans (modMot_onlyMoved s n _ rfl rfl) (modMot_onlyMoved _ n _ rfl rfl)
  have humoved : s.onlyMoved u n := by
    unfold u
    rw [hleg]
    exact onlyMoved_trans (onlyMoved_trans hs1moved (modMot_onlyMoved s1 n _ rfl rfl)) (newHead_evaluates ..).moved
  have humot : (u.ax n).mot = { (s1.ax n).mot with
      runs := [{ r with ms := (s.ax n).mot.mProg / 65536 * 65536, ps := (s.ax n).mot.pos, vs := 0
                        phases := (planVelocity (s.ax n).mot.pos 0 (h.s * h.vf) h.hacc h.hdec 0).phases, target := none, unbounded := true
                        home := .fast }]
      lastEnd := some { e := none, dir := h.s, snaps := 0 } } := by
    unfold u
    rw [hleg, newHead_mot, modMot_ax_self]
  have huq : u.q = s.q ∧ u.sb = s.sb := by
    unfold u
    rw [hleg]
    exact ⟨(newHead_evaluates ..).q, (newHead_evaluates ..).sb⟩
  have hv : s.MovedTo u (u.refresh n) n := refresh_movedTo humoved
  refine ⟨u.refresh n, delay, by rw [← hu]; rfl, hv.moved, hv.q.trans huq.1, hv.sb.trans huq.2, ?_, ?_⟩
  · rw [hv.queue, humot]
    change (s1.ax n).mot.queue = rest
    rw [hs1]
  · rw [hv.runs, humot]

end

/-- Settles O42: the row starts the head from rest by its plan, or a HOME by its FAST leg; what R74 asks of other heads (their predecessor's
end, a declared start, a batch) is outside the statement. -/
theorem segmentsStartAtTheSnapshot : Obligations.SegmentsStartAtTheSnapshot := by
  intro s n g rest hqueue hseen hstart hbatch hdelay hen heng hdis hstop hjog hheld hruns hlast
  have hr : s.HeadReady n g rest := ⟨hqueue, hseen, hstart, hbatch, hdelay, hen, heng, hdis, hstop, hjog, hheld, hruns, hlast⟩
  refine ⟨fun hk hl hp => ?_, fun h q hk hq hoff hblock hp => ?_⟩
  · obtain ⟨t, delay, tail, ht, hmoved, hq, hsb, hsame, hrun, hpos, hvel⟩ := hr.exec_planned hk hl hp
    exact ⟨t, _, ht, hmoved, hq, hsb, hsame, hrun, rfl, rfl, rfl, rfl, rfl, rfl, rfl, rfl, rfl, rfl, hpos, hvel⟩
  · obtain ⟨t, delay, ht, hmoved, hq, hsb, hqueue', hrun⟩ := hr.exec_home hk hq hoff hblock hp
    exact ⟨t, _, ht, hmoved, hq, hsb, hqueue', hrun, rfl, rfl, rfl, rfl, rfl, rfl⟩

end Sys2Proof.Machine
end

section
/-! PROOF. Re-anchoring, deadlines and timeouts (03_motion_segments.md R93, R99; 04_axio_homing.md R131). -/
namespace Sys2Proof.Machine
open Sys2Proof

section
variable {s : State} {n : AxisId} {r : Run}

/-! ### A cruise that has lasted its span (R93) -/

theorem anchorSpan_eq : ((anchorSpan : Nat) : Int) * 65536 = 2 ^ 30 * 65536 := by norm_num [anchorSpan]

theorem reanchor_early {ph : Phase} (hs : (s.ax n).mot.stop = none) (hh : (s.ax n).mot.held = none) (hr : (s.ax n).mot.runs = [r])
    (hph : r.phases.getLast? = some ph)
    (he : r.at (s.ax n).mot.mProg s.m7 - (r.ms + ((totalLen r.phases : Int) - ph.len) * 65536) < 2 ^ 30 * 65536) : s.reanchor n = s := by
  unfold State.reanchor
  simp only [hs, hh, hr, hph]
  exact if_pos (anchorSpan_eq ▸ he)

theorem reanchor_due {ph : Phase} (hs : (s.ax n).mot.stop = none) (hh : (s.ax n).mot.held = none) (hr : (s.ax n).mot.runs = [r])
    (hph : r.phases.getLast? = some ph) (hu : r.unbounded = true)
    (he : 2 ^ 30 * 65536 ≤ r.at (s.ax n).mot.mProg s.m7 - (r.ms + ((totalLen r.phases : Int) - ph.len) * 65536))
    (hp : admitPlan r.seg.kind ⟨[{ ph with p0 := phaseP ph (2 ^ 30 * 65536), len := 2 ^ 30 }], none, false, true⟩ = true) :
    s.reanchor n = s.modMot n fun a => { a with runs :=
      [{ r with ms := r.ms + ((totalLen r.phases : Int) - ph.len) * 65536 + 2 ^ 30 * 65536, ps := phaseP ph (2 ^ 30 * 65536), vs := ph.v0
                phases := [{ ph with p0 := phaseP ph (2 ^ 30 * 65536), len := 2 ^ 30 }] }] } := by
  unfold State.reanchor
  simp only [hs, hh, hr, hph, anchorSpan_eq]
  rw [if_neg (by omega), if_pos hu]
  exact if_pos hp

/-! ### Queued segments that are due (R99) -/

/-- The entry of a queued segment that is due. -/
def State.dueEntry (s : State) (n : AxisId) (refs : Segment → BitVec 16 × BitVec 4) (g : Segment) : Completion :=
  { s.segEntry n g (refs g).1 (refs g).2 .timeout with word := 0 }

/-- With no batch in the table the segments of your host that are due leave their entries, in queue order. -/
theorem foldl_due (n : AxisId) (refs : Segment → BitVec 16 × BitVec 4) (l : List Segment) (s : State) (mp : Word) (m : Int) (d : Nat)
    (hmp : s.axMpos n = mp) (hl : ∀ g ∈ l, g.ref = .host (refs g).1 (refs g).2 ∧ g.flags.headDelayed = false) (hb : s.q.batches = []) :
    l.foldl (fun s g => s.completeSeg n g .timeout mp (some 0) d m m) s = { s with q := s.entered (l.map (s.dueEntry n refs)) } := by
  induction l generalizing s with
  | nil => rw [List.map_nil, entered_nil]; rfl
  | cons g l ih =>
    obtain ⟨href, hd⟩ := hl g List.mem_cons_self
    have hc : s.completeSeg n g .timeout mp (some 0) d m m = { s with q := s.entered [s.dueEntry n refs g] } := by
      rw [completeSeg_noBatch s n href hb, segEntryOf_undelayed _ _ hd, ← hmp]
      rfl
    rw [List.foldl_cons, hc, ih ({ s with q := s.entered [s.dueEntry n refs g] } : State) hmp (fun g hg => hl g (List.mem_cons_of_mem _ hg)) ((batches_entered ..).trans hb)]
    change ({ s with q := ({ s with q := s.entered [s.dueEntry n refs g] } : State).entered (l.map (s.dueEntry n refs)) } : State) = _
    rw [entered_append]
    rfl

/-- A segment of the queue of an axis that is due (R99). -/
def State.isDue (s : State) (n : AxisId) (g : Segment) : Bool := (g.deadline.map (reached32 (s.ax n).mot.mProg)) = some true

theorem expireQueued_entered (refs : Segment → BitVec 16 × BitVec 4)
    (hl : ∀ g ∈ (s.ax n).mot.queue, g.ref = .host (refs g).1 (refs g).2 ∧ g.flags.headDelayed = false) (hb : s.q.batches = []) :
    s.expireQueued n = { s.modMot n fun a => { a with queue := a.queue.filter fun g => !s.isDue n g } with
      q := s.entered (((s.ax n).mot.queue.filter (s.isDue n)).map (s.dueEntry n refs)) } := by
  unfold State.expireQueued
  extract_lets a m due
  have hax : (s.modMot n fun a => { a with queue := a.queue.filter fun g => !s.isDue n g }).ax n = _ := modMot_ax_self ..
  refine (foldl_due n refs _ (s.modMot n fun a => { a with queue := a.queue.filter fun g => !s.isDue n g }) (mpos32 a.mProg) m _ ?_
    (fun g hg => hl g (List.mem_of_mem_filter hg)) hb).trans ?_
  · unfold State.axMpos
    rw [hax]
  · have he : (s.modMot n fun a => { a with queue := a.queue.filter fun g => !s.isDue n g }).dueEntry n refs = s.dueEntry n refs := by
      funext g
      unfold State.dueEntry State.segEntry State.axMpos
      rw [hax]
    rw [he]
    rfl

theorem deadlines_noRuns (hs : (s.ax n).mot.stop = none) (hh : (s.ax n).mot.held = none) (hr : (s.ax n).mot.runs = []) :
    s.deadlines n = s.expireQueued n := by
  have hend : s.endDone n = s := by
    unfold State.endDone
    simp only [hs, hh, hr, Option.isSome_none, Bool.false_eq_true, if_false]
  unfold State.deadlines
  simp only [hh, hend, hr, Option.isSome_none, Bool.false_eq_true, if_false, List.any_nil]

/-! ### A stop of the only run of an axis (R96) -/

/-- The only run of an axis, in motion and no HOLD. -/
structure State.SoleRun (s : State) (n : AxisId) (r : Run) : Prop where
  held : (s.ax n).mot.held = none
  stop : (s.ax n).mot.stop = none
  jog : (s.ax n).mot.jog = none
  runs : (s.ax n).mot.runs = [r]
  going : r.over (s.ax n).mot.mProg s.m7 = false
  moves : ∀ w timed, r.seg.kind ≠ .hold w timed

theorem State.SoleRun.endDone (h : s.SoleRun n r) : s.endDone n = s := by
  unfold State.endDone
  simp only [h.held, h.stop, h.runs, h.going, Option.isSome_none, Bool.false_eq_true, if_false]

/-- What a stop leaves of the motion of an axis with one run: the run with its status and its tail mark, and the stop in progress. -/
structure AxisMotion.StoppingWith (a b : AxisMotion) (r : Run) : Prop where
  runs : b.runs = [r]
  stop : b.stop.isSome = true
  held : b.held = none
  master : b.master = a.master
  mProg : b.mProg = a.mProg
  queue : ∃ blend, b.queue = remarked blend a.queue

theorem State.SoleRun.stopAxis (h : s.SoleRun n r) (st : Option (Status × Option Word)) :
    ∃ f, s.stopAxis n false st none none = s.modMot n f
      ∧ (s.ax n).mot.StoppingWith (f (s.ax n).mot) ({ r with tailSeen := r.tailSeen || (!r.unbounded && r.tailPos * 65536 ≤ r.at (s.ax n).mot.mProg s.m7) }.decide
          (st.getD (.stopped, none))) := by
  obtain ⟨blend, hb⟩ := markTails_single (s.ax n).mot r s.m7 h.stop h.held h.runs
  refine ⟨fun a => { a.markTails s.m7 with
    stop := some (s.stopPlan n false none none)
    runs := (a.markTails s.m7).runs.map fun r => r.decide (st.getD (.stopped, none)) }, ?_, ?_⟩
  · unfold State.stopAxis
    rw [h.endDone]
    simp only [h.stop, h.runs, h.jog]
    split
    next w timed hk => exact absurd hk (h.moves w timed)
    next => rfl
  · simp only [hb]
    exact ⟨rfl, rfl, h.held, rfl, rfl, blend, rfl⟩

theorem expireQueued_empty (hq : (s.ax n).mot.queue = []) :
    s.expireQueued n = s.modMot n fun a => { a with queue := a.queue.filter fun g => !s.isDue n g } := by
  have hnone : (s.ax n).mot.queue.filter (s.isDue n) = [] := by rw [hq, List.filter_nil]
  unfold State.expireQueued
  extract_lets a m due
  rw [show a.queue.filter due = [] from hnone]
  rfl

theorem State.SoleRun.marked (h : s.SoleRun n r) (hdec : r.decided = none) {d : BitVec 32} (hd : r.seg.deadline = some d)
    (hdue : reached32 (s.ax n).mot.mProg d = true) :
    ∃ f, s.markTimeout n = s.modMot n f
      ∧ f (s.ax n).mot = { (s.ax n).mot with runs := [{ r with decided := some (.timeout, some 0) }] } := by
  refine ⟨_, rfl, ?_⟩
  have hif : (r.decided.isNone && decide (r.seg.deadline.map (reached32 (s.ax n).mot.mProg) = some true)) = true := by
    rw [hdec, hd, Option.map_some, hdue]
    rfl
  simp only [h.runs, List.map_cons, List.map_nil, hif, if_true]

theorem State.SoleRun.deadlineDue (h : s.SoleRun n r) (hdec : r.decided = none) {d : BitVec 32} (hd : r.seg.deadline = some d)
    (hdue : reached32 (s.ax n).mot.mProg d = true) : s.deadlineDue n r = true := by
  unfold State.deadlineDue
  simp only [hdec, h.going, hd, Option.map_some, hdue]
  rfl

theorem State.SoleRun.deadlines_eq (h : s.SoleRun n r) (hdue : s.deadlineDue n r = true) :
    s.deadlines n = ((s.markTimeout n).stopAxis n false none none none).expireQueued n := by
  unfold State.deadlines
  simp only [h.held, h.endDone, h.runs, List.any_cons, hdue, Option.isSome_none, Bool.false_eq_true, if_false, Bool.true_or, if_true]
  split
  next w timed hk => exact absurd hk (h.moves w timed)
  next => rfl

/-- The running segment whose deadline is due is marked and stopped (R99). -/
theorem State.SoleRun.deadlines (h : s.SoleRun n r) (hq : (s.ax n).mot.queue = []) (hdec : r.decided = none) {d : BitVec 32}
    (hd : r.seg.deadline = some d) (hdue : reached32 (s.ax n).mot.mProg d = true) :
    ∃ u, s.deadlines n = u ∧ s.onlyMoved u n ∧ u.q = s.q ∧ u.sb = s.sb
      ∧ (u.ax n).mot.runs = [(s.ax n).mot.stopped s.m7 r (.timeout, some 0)] ∧ (u.ax n).mot.stop.isSome = true := by
  obtain ⟨f, hf, hfmot⟩ := h.marked hdec hd hdue
  let r' : Run := { r with decided := some (.timeout, some 0) }
  have hmot : ((s.modMot n f).ax n).mot = { (s.ax n).mot with runs := [r'] } := by rw [modMot_ax_self]; exact hfmot
  have hs' : (s.modMot n f).SoleRun n r' :=
    ⟨by rw [hmot]; exact h.held, by rw [hmot]; exact h.stop, by rw [hmot]; exact h.jog, by rw [hmot], by rw [hmot]; exact h.going, h.moves⟩
  obtain ⟨f2, hf2, hstopping⟩ := hs'.stopAxis none
  rw [hmot] at hstopping
  let u2 := (s.modMot n f).modMot n f2
  have hmot2 : (u2.ax n).mot = f2 { (s.ax n).mot with runs := [r'] } := by
    unfold u2
    rw [modMot_ax_self]
    exact congrArg f2 hmot
  obtain ⟨blend, hblend⟩ := hstopping.queue
  have hempty : (u2.ax n).mot.queue = [] := by
    rw [hmot2, hblend]
    change remarked blend (s.ax n).mot.queue = []
    rw [hq]
    rfl
  have hdl : s.deadlines n = u2.expireQueued n := by
    rw [h.deadlines_eq (h.deadlineDue hdec hd hdue), hf, hf2]
  refine ⟨_, hdl.trans (expireQueued_empty hempty), ?_, rfl, rfl, ?_, ?_⟩
  · refine onlyMoved_trans (onlyMoved_trans (modMot_onlyMoved s n f ?_ ?_) (modMot_onlyMoved _ n f2 ?_ ?_)) (modMot_onlyMoved u2 n _ rfl rfl)
    · rw [hfmot]
    · rw [hfmot]
    · rw [hmot]; exact hstopping.master
    · rw [hmot]; exact hstopping.mProg
  · rw [modMot_ax_self, hmot2]
    exact hstopping.runs
  · rw [modMot_ax_self, hmot2]
    exact hstopping.stop

theorem over_of_homeOps (h : r.seg.kind.homeOps.isSome = true) (m m7 : Int) : r.over m m7 = false := by
  unfold Run.over
  cases hk : r.seg.kind with
  | home p t vf vs ha hd bo off => rfl
  | _ => rw [hk] at h; cases h

theorem moves_of_homeOps (h : r.seg.kind.homeOps.isSome = true) (w : Nat) (timed : Bool) : r.seg.kind ≠ .hold w timed := by
  intro hk
  rw [hk] at h
  cases h

/-- A HOME whose timeout is due is stopped with TIMEOUT decided (R131). -/
theorem State.SoleRun.homeTimeout (h : s.SoleRun n r) (hstage : r.home ≠ .notHome) (hslow : r.home ≠ .slowStop) (hdec : r.decided = none)
    {d : BitVec 32} (ht : r.timeoutAt = some d) (hdue : reached32 (s.ax n).mot.mProg d = true) :
    ∃ f, s.homeTimeout n = s.modMot n f
      ∧ (s.ax n).mot.StoppingWith (f (s.ax n).mot) ((s.ax n).mot.stopped s.m7 r (.timeout, some 0)) := by
  obtain ⟨f, hf, hstopping⟩ := h.stopAxis (some (.timeout, some 0))
  refine ⟨f, ?_, ?_⟩
  · have hif : (decide (r.home ≠ .notHome) && decide (r.home ≠ .slowStop) && r.decided.isNone
        && decide (r.timeoutAt.map (reached32 (s.ax n).mot.mProg) = some true)) = true := by
      rw [decide_eq_true hstage, decide_eq_true hslow, hdec, ht, Option.map_some, hdue]
      rfl
    unfold State.homeTimeout
    simp only [h.held, h.runs]
    exact (if_pos hif).trans hf
  · unfold Run.decide at hstopping
    rw [hdec] at hstopping
    exact hstopping

end

/-- Settles O44: each row's change of the axis stands after its evaluation; the new anchor is the instant 2^30 mc after the start of the
cruise itself, whatever the frame of the row (notes/assumptions/27.md). The re-anchoring of a HOLD is outside the statement. -/
theorem reanchoringDeadlinesAndTimeouts : Obligations.ReanchoringDeadlinesAndTimeouts := by
  refine ⟨fun s n r ph hs hh hj hr hph hu => ⟨fun he => ?_, fun he hp => ?_⟩, fun s n refs hh hs hr hb hl => ?_,
    fun s n r d hh hs hj hr hq hdec hd hdue hover hk => ?_, fun s n r d hh hs hj hr hk hstage hslow hdec ht hdue => ?_⟩
  · have hv := refresh_movedTo (onlyMoved_refl s n)
    exact ⟨_, congrArg (fun t : State => Host.Outcome.next (t.refresh n)) (reanchor_early hs hh hr hph he), hv.moved, hv.q, hv.sb, hv.runs.trans hr⟩
  · have hv := refresh_movedTo (u := s.reanchor n) (s := s) (n := n) (by
      rw [reanchor_due hs hh hr hph hu he hp]
      exact modMot_onlyMoved s n _ rfl rfl)
    rw [reanchor_due hs hh hr hph hu he hp] at hv
    refine ⟨_, congrArg (fun t : State => Host.Outcome.next (t.refresh n)) (reanchor_due hs hh hr hph hu he hp), hv.moved, hv.q, hv.sb, ?_⟩
    rw [hv.runs, modMot_ax_self]
  · have he := (deadlines_noRuns hs hh hr).trans (expireQueued_entered refs hl hb)
    have hv := refresh_movedTo (u := s.deadlines n) (s := s) (n := n) (by
      rw [he]
      exact onlyMoved_trans (modMot_onlyMoved s n (fun a => { a with queue := a.queue.filter fun g => !s.isDue n g }) rfl rfl) (onlyMoved_of_queues rfl n))
    rw [he] at hv
    refine ⟨_, congrArg (fun t : State => Host.Outcome.next (t.refresh n)) he, hv.moved, hv.sb, ?_, hv.q⟩
    rw [hv.queue]
    exact congrArg (fun x : Axis => x.mot.queue) (modMot_ax_self s n fun a => { a with queue := a.queue.filter fun g => !s.isDue n g })
  · obtain ⟨u, hu, hmoved, hq', hsb, hruns, hstop⟩ := State.SoleRun.deadlines ⟨hh, hs, hj, hr, hover, hk⟩ hq hdec hd hdue
    have hv := refresh_movedTo hmoved
    exact ⟨_, congrArg (fun t : State => Host.Outcome.next (t.refresh n)) hu, hv.moved, hv.q.trans hq', hv.sb.trans hsb, hv.runs.trans hruns,
      (congrArg Option.isSome hv.stop).trans hstop⟩
  · have hsole : s.SoleRun n r := ⟨hh, hs, hj, hr, over_of_homeOps hk _ _, moves_of_homeOps hk⟩
    obtain ⟨f, hf, hstopping⟩ := hsole.homeTimeout hstage hslow hdec ht hdue
    have hv := refresh_movedTo (modMot_onlyMoved s n f hstopping.master hstopping.mProg)
    refine ⟨_, congrArg (fun t : State => Host.Outcome.next (t.refresh n)) hf, hv.moved, hv.q, hv.sb, ?_, ?_⟩
    · rw [hv.runs, modMot_ax_self]
      exact hstopping.runs
    · rw [hv.stop, modMot_ax_self]
      exact hstopping.stop

end Sys2Proof.Machine
end

section
/-! PROOF. Plug sense, open coils, sharing errors, lost samples and what the turning off of an axis ends (04_axio_homing.md R136, R137;
05_current_control.md R155, R164, R169; 09_power_stage.md R256 to R260). -/
namespace Sys2Proof.Machine
open Sys2Proof

/-! ### Plug sense (R136, R137) -/

theorem mem_axisLegs (n : AxisId) (m : LegId) : m ∈ axisLegs n ↔ axisOfLeg m = n := by
  unfold axisLegs axisOfLeg legOf
  simp only [List.mem_map, List.mem_finRange, true_and, Fin.ext_iff]
  refine ⟨?_, fun h => ⟨⟨m.val % 4, by omega⟩, by simp only; omega⟩⟩
  rintro ⟨j, hj⟩
  omega

/-- A probe has ended on an axis: its legs' test time is used up, and the axis is changed by `f`. -/
def State.probed (s : State) (n : AxisId) (f : Axis → Axis) : State :=
  { s with legs := s.legs.mapFinIdx fun m l h => if axisOfLeg ⟨m, h⟩ = n then { l with testTicks := 0 } else l, axes := upd s.axes n f }

/-- What a probe records on its axis (R136, R159). -/
def Axis.probed (x : Axis) (ra rb : Nat) : Axis :=
  { x with cfg := if probeVerdict ra rb = .plugged then { x.cfg with rcoil := (ra + rb) / 2 } else x.cfg
           prot := { x.prot with ra := ra, rb := rb, probe := probeVerdict ra rb } }

theorem legs_tested (s : State) (n : AxisId) : (s.forAll (axisLegs n) fun s m => s.modLeg m fun l => { l with testTicks := 0 }) =
    { s with legs := s.legs.mapFinIdx fun m l h => if axisOfLeg ⟨m, h⟩ = n then { l with testTicks := 0 } else l } := by
  rw [forAll_legs _ _ (fun _ _ _ => rfl)]
  congr 1
  refine Vector.ext fun i hi => ?_
  rw [Vector.getElem_mapFinIdx]
  refine (forAll_modLeg (axisLegs n) (fun l => { l with testTicks := 0 }) (fun _ => rfl) s ⟨i, hi⟩).trans ?_
  simp only [mem_axisLegs]
  rfl

section
variable {s : State} {n : AxisId} {ra rb : Nat}

/-- A probe that may be made: no diagnosis runs in the group of a disabled axis with plug sense. -/
def State.probes (s : State) (n : AxisId) : Bool := (s.ax n).cfg.plugEn && !(s.ax n).drv.enabled && (s.grp (groupOf n)).diag.isNone

theorem plugProbe_idle (h : s.probes n = false) : s.plugProbe n ra rb = s := if_neg (by rw [Bool.not_eq_true]; exact h)

theorem plugProbe_probed (h : s.probes n = true) : s.plugProbe n ra rb =
    if (s.ax n).prot.probe = probeVerdict ra rb && (probeVerdict ra rb ≠ .plugged || (s.pinsOf n (· = 11)).all fun p => (s.pin p).isOn) then
      (s.probed n fun x => x.probed ra rb).setPlug n (probeVerdict ra rb)
    else s.probed n fun x => x.probed ra rb := by
  unfold State.plugProbe
  extract_lets x v s1 pins allowed s2 s3
  have hs3 : s3 = s.probed n fun x => x.probed ra rb := by
    simp only [s3, s2, legs_tested]
    unfold State.probed Axis.probed
    by_cases hv : probeVerdict ra rb = .plugged
    · simp only [v, if_pos hv]
      exact congrArg (fun a : Vector Axis 48 => ({ s with
        legs := s.legs.mapFinIdx fun m l h => if axisOfLeg ⟨m, h⟩ = n then { l with testTicks := 0 } else l, axes := a } : State))
        (upd_upd s.axes n (fun x => { x with prot := { x.prot with ra := ra, rb := rb, probe := probeVerdict ra rb } })
          fun x => { x with cfg := { x.cfg with rcoil := (ra + rb) / 2 } })
    · simp only [v, if_neg hv]
      rfl
  refine (if_pos h).trans ?_
  rw [hs3]

theorem probed_ax (f : Axis → Axis) : (s.probed n f).ax n = f (s.ax n) := upd_self ..

/-- A change of the plug state is logged and flagged (R137). -/
theorem setPlug_changed {p : PlugState} (h : (s.ax n).prot.plug ≠ p) :
    ∃ t, s.setPlug n p = t ∧ t = { s.logs t with axes := upd s.axes n fun x => { x with prot := { x.prot with plug := p, plugChg := true } } } := by
  refine ⟨_, if_neg h, ?_⟩
  exact shale_frame ..

theorem exec_plugProbe_new (h : s.probes n = true) (hne : (s.ax n).prot.probe ≠ probeVerdict ra rb) :
    exec (.plugProbe n ra rb) s = .next (s.probed n fun x => x.probed ra rb) := by
  refine congrArg _ ((plugProbe_probed h).trans (if_neg ?_))
  rw [decide_eq_false hne, Bool.false_and]
  exact Bool.false_ne_true

theorem exec_plugProbe_again (h : s.probes n = true) (heq : (s.ax n).prot.probe = probeVerdict ra rb)
    (hplug : (s.ax n).prot.plug ≠ probeVerdict ra rb)
    (hpins : probeVerdict ra rb = .plugged → ∀ p ∈ s.pinsOf n (· = 11), (s.pin p).isOn = true) :
    ∃ t, exec (.plugProbe n ra rb) s = .next t ∧ t = { s.logs t with
      legs := (s.probed n fun x => x.probed ra rb).legs
      axes := upd s.axes n fun x => { x with
        cfg := (x.probed ra rb).cfg, prot := { x.prot with ra := ra, rb := rb, plug := probeVerdict ra rb, plugChg := true } } } := by
  have hallowed : (decide ((s.ax n).prot.probe = probeVerdict ra rb)
      && (decide (probeVerdict ra rb ≠ .plugged) || (s.pinsOf n (· = 11)).all fun p => (s.pin p).isOn)) = true := by
    rw [decide_eq_true heq, Bool.true_and, Bool.or_eq_true, decide_eq_true_iff, List.all_eq_true]
    exact Classical.or_iff_not_imp_left.2 fun hv => hpins (not_not.1 hv)
  have hu : (s.ax n).prot.plug ≠ probeVerdict ra rb → ((s.probed n fun x => x.probed ra rb).ax n).prot.plug ≠ probeVerdict ra rb := by
    rw [probed_ax]
    exact id
  obtain ⟨t, ht, hframe⟩ := setPlug_changed (hu hplug)
  refine ⟨t, congrArg _ ((plugProbe_probed h).trans ((if_pos hallowed).trans ht)), ?_⟩
  have haxes : upd (s.probed n fun x => x.probed ra rb).axes n
      (fun x => { x with prot := { x.prot with plug := probeVerdict ra rb, plugChg := true } }) =
      upd s.axes n fun x => { x with
        cfg := (x.probed ra rb).cfg, prot := { x.prot with ra := ra, rb := rb, plug := probeVerdict ra rb, plugChg := true } } := by
    unfold State.probed
    rw [upd_upd]
    refine upd_congr _ _ _ _ ?_
    unfold Axis.probed
    rw [← heq]
    rfl
  rw [haxes] at hframe
  exact hframe

/-! ### What turns an axis off (R164, R256, R260) -/

/-- What an event that turned an axis off may still change of it: its protection and that its position is unsure. -/
structure Axis.OffNoted (x y : Axis) : Prop where
  cfg : y.cfg = x.cfg
  drv : y.drv = x.drv
  enc : y.enc = x.enc
  mot : y.mot = { x.mot with unsure := y.mot.unsure }
  partner : y.prot.partner = x.prot.partner
  ident : y.prot.ident = x.prot.ident
  owner : y.prot.owner = x.prot.owner

/-- An axis that was turned off stays so under what the event notes of it and in the log. -/
theorem axisOff_noted {u t : State} {f : Axis → Axis} (h : s.axisOff u n) (hf : (u.ax n).OffNoted (f (u.ax n)))
    (ht : t = { u.logs t with axes := upd u.axes n f }) : s.axisOff t n ∧ t.ax n = f (u.ax n) := by
  obtain ⟨⟨hu, hother, hpackets⟩, hcfg, henc, hdrv, hruns, hqueue, hstop, hjog, hheld, hvel, hpos, hout, hmaster, hpartner, hident, howner, hops⟩ := h
  have hax : t.ax n = f (u.ax n) := by
    rw [ht]
    exact upd_self ..
  have hax' (k) (hk : k ≠ n) : t.ax k = u.ax k := by
    rw [ht]
    exact upd_other _ _ _ _ hk
  have hq : t.q = u.q := by rw [ht]; rfl
  obtain ⟨ecfg, edrv, eenc, emot, epartner, eident, eowner⟩ := hf
  refine ⟨⟨⟨?_, fun k hk => (hax' k hk).trans (hother k hk), by rw [hq]; exact hpackets⟩, ?_⟩, hax⟩
  · rw [ht]
    conv_lhs => rw [hu]
    rfl
  · rw [hax, hq, ecfg, eenc, edrv, emot, epartner, eident, eowner]
    exact ⟨hcfg, henc, hdrv, hruns, hqueue, hstop, hjog, hheld, hvel, hpos, hout, hmaster, hpartner, hident, howner, hops⟩

theorem setUnsure_axes (s : State) (n : AxisId) :
    s.setUnsure n = { s with axes := upd s.axes n fun x => { x with mot := { x.mot with unsure := x.mot.unsure || !x.cfg.setpoint } } } := by
  unfold State.setUnsure
  split
  next h =>
    have hsame : upd s.axes n (fun x => { x with mot := { x.mot with unsure := x.mot.unsure || !x.cfg.setpoint } }) = s.axes := by
      refine upd_same _ _ _ ?_
      change ({ s.ax n with mot := { (s.ax n).mot with unsure := (s.ax n).mot.unsure || !(s.ax n).cfg.setpoint } } : Axis) = s.ax n
      rw [h, Bool.not_true, Bool.or_false]
    rw [hsame]
  next h =>
    refine congrArg (fun a => ({ s with axes := a } : State)) (upd_congr _ _ _ _ ?_)
    change ({ s.ax n with mot := { (s.ax n).mot with unsure := true } } : Axis)
      = { s.ax n with mot := { (s.ax n).mot with unsure := (s.ax n).mot.unsure || !(s.ax n).cfg.setpoint } }
    rw [Bool.not_eq_true] at h
    rw [h, Bool.not_false, Bool.or_true]

/-- What an unplugged axis has had noted of it (R239, R260). -/
def Axis.unplugNoted (x : Axis) : Axis :=
  { x with prot := { x.prot with plug := .unplugged, probe := .unplugged, plugChg := true }
           mot := { x.mot with unsure := x.mot.unsure || !x.cfg.setpoint } }

theorem unplugNoted_offNoted (x : Axis) : x.OffNoted x.unplugNoted := ⟨rfl, rfl, rfl, rfl, rfl, rfl, rfl⟩

/-- What an unplugging notes of an axis that it has turned off. -/
def State.noteUnplugged (u : State) (n : AxisId) : State :=
  ((u.modProt n fun x => { x with plug := .unplugged, probe := .unplugged, plugChg := true }).shaleAxis n 17).setUnsure n

theorem noteUnplugged_frame (u : State) (n : AxisId) :
    u.noteUnplugged n = { u.logs (u.noteUnplugged n) with axes := upd u.axes n Axis.unplugNoted } := by
  let v := (u.modProt n fun x => { x with plug := .unplugged, probe := .unplugged, plugChg := true }).shaleAxis n 17
  have hv : v = _ := shale_frame ..
  have haxes : v.axes = upd u.axes n fun x => { x with prot := { x.prot with plug := .unplugged, probe := .unplugged, plugChg := true } } := by
    rw [hv]
    rfl
  have h := setUnsure_axes v n
  rw [haxes, upd_upd] at h
  have h' : v.setUnsure n = { u.logs (v.setUnsure n) with axes := upd u.axes n Axis.unplugNoted } := by
    rw [h]
    conv_lhs => rw [hv]
    rfl
  exact h'

theorem unplug_off (s : State) (n : AxisId) (w : Word) : s.axisOff (s.unplug n w) n ∧ (s.unplug n w).ax n = (s.ax n).off.unplugNoted := by
  have h := axisOff_noted (turnOff_axisOff s n .unplugged w) (unplugNoted_offNoted _) (noteUnplugged_frame (s.turnOff n .unplugged w) n)
  have hu : s.unplug n w = (s.turnOff n .unplugged w).noteUnplugged n := by
    unfold State.unplug State.noteUnplugged
    rfl
  rw [turnOff_ax] at h
  rw [hu]
  exact h

theorem exec_unplugDetect_off (he : (s.ax n).drv.enabled = true) (ho : 2 ≤ (s.coil (coilA n)).openRun ∨ 2 ≤ (s.coil (coilB n)).openRun) :
    ∃ w, exec (.unplugDetect n) s = .next (s.unplug n w) := by
  have hif : ((s.ax n).drv.enabled && (decide (2 ≤ (s.coil (coilA n)).openRun) || decide (2 ≤ (s.coil (coilB n)).openRun))) = true := by
    rw [he, Bool.true_and, Bool.or_eq_true, decide_eq_true_iff, decide_eq_true_iff]
    exact ho
  obtain ⟨w, hw⟩ : ∃ w, s.unplugDetect n = s.unplug n w := by
    unfold State.unplugDetect
    exact ⟨_, if_pos hif⟩
  exact ⟨w, congrArg Host.Outcome.next hw⟩

theorem exec_unplugDetect_idle (h : (s.ax n).drv.enabled = false ∨ ¬(2 ≤ (s.coil (coilA n)).openRun ∨ 2 ≤ (s.coil (coilB n)).openRun)) :
    exec (.unplugDetect n) s = .next s := by
  refine congrArg Host.Outcome.next (if_neg ?_)
  rw [Bool.and_eq_true, Bool.or_eq_true, decide_eq_true_iff, decide_eq_true_iff]
  rintro ⟨he, ho⟩
  rcases h with h | h
  · exact Bool.false_ne_true (h.symm.trans he)
  · exact h ho

/-- What an axis whose bridges shared unequally has had noted of it (R164). -/
def Axis.shareNoted (x : Axis) : Axis := { x with prot := { x.prot with shareErr := true, shareA := 0, shareB := 0 } }

theorem shareNoted_offNoted (x : Axis) : x.OffNoted x.shareNoted := ⟨rfl, rfl, rfl, rfl, rfl, rfl, rfl⟩

/-- What a sharing error notes of an axis that it has turned off. -/
def State.noteShared (u : State) (n : AxisId) : State :=
  (u.modProt n fun p => { p with shareErr := true, shareA := 0, shareB := 0 }).shaleAxis n 21

theorem noteShared_frame (u : State) (n : AxisId) : u.noteShared n = { u.logs (u.noteShared n) with axes := upd u.axes n Axis.shareNoted } :=
  shale_frame ..

theorem turnOff_shared (s : State) (n : AxisId) (w : Word) :
    s.axisOff ((s.turnOff n .driveFault w).noteShared n) n ∧ ((s.turnOff n .driveFault w).noteShared n).ax n = (s.ax n).off.shareNoted := by
  have h := axisOff_noted (turnOff_axisOff s n .driveFault w) (shareNoted_offNoted _) (noteShared_frame (s.turnOff n .driveFault w) n)
  rw [turnOff_ax] at h
  exact h

/-- Two bridges of a ganged pair have shared unequally for 16 frames (R164). -/
def State.sharesUnequally (s : State) (n : AxisId) : Prop :=
  s.ganged n = true ∧ s.isPartner n = false ∧ (16 ≤ (s.ax n).prot.shareA ∨ 16 ≤ (s.ax n).prot.shareB)

theorem sharesUnequally_iff : s.sharesUnequally n ↔
    (s.ganged n && !s.isPartner n && (16 ≤ (s.ax n).prot.shareA || 16 ≤ (s.ax n).prot.shareB)) = true := by
  unfold State.sharesUnequally
  simp [and_assoc]

theorem exec_shareErr_idle (h : ¬ s.sharesUnequally n) : exec (.shareErr n) s = .next s := congrArg _ (if_neg (mt sharesUnequally_iff.2 h))

theorem exec_shareErr_off (h : s.sharesUnequally n) :
    ∃ t, exec (.shareErr n) s = .next t ∧ s.axisOff t n ∧ t.ax n = (s.ax n).off.shareNoted := by
  obtain ⟨w, hw⟩ : ∃ w, s.shareError n = (s.turnOff n .driveFault w).noteShared n := by
    unfold State.shareError State.noteShared
    exact ⟨_, if_pos (sharesUnequally_iff.1 h)⟩
  exact ⟨_, congrArg Host.Outcome.next hw, turnOff_shared s n w⟩

end

/-! ### Lost samples and encoder errors (R155, R169) -/

theorem exec_sampleLost_idle {s : State} {c : CoilId} (h : (s.coil c).lost < 16 ∨ (s.coil c).sampleLost = true) :
    exec (.sampleLost c) s = .next s := by
  refine congrArg _ (if_neg ?_)
  rw [Bool.and_eq_true, decide_eq_true_iff, Bool.not_eq_true']
  rintro ⟨hl, hs⟩
  rcases h with h | h
  · omega
  · exact Bool.false_ne_true (hs.symm.trans h)

theorem exec_sampleLost_flagged {s : State} {c : CoilId} (hl : 16 ≤ (s.coil c).lost) (hs : (s.coil c).sampleLost = false) :
    ∃ t, exec (.sampleLost c) s = .next t ∧ t = { s.logs t with coils := upd s.coils c fun k => { k with sampleLost := true } } := by
  have hif : (16 ≤ (s.coil c).lost && !(s.coil c).sampleLost) = true := by
    rw [hs, decide_eq_true hl]
    rfl
  exact ⟨_, congrArg Host.Outcome.next (if_pos hif), shale_frame ..⟩

theorem exec_encErr_noted {s : State} {n : AxisId} (h : s.hasEncoder n = true) :
    ∃ t, exec (.encErr n) s = .next t ∧ t = { s.logs t with axes := upd s.axes n fun x => { x with
      enc := { x.enc with err := true, armed := false, disarmed := true, fallback := x.cfg.setpoint }, mot := { x.mot with unsure := true } } } := by
  refine ⟨_, congrArg Host.Outcome.next (if_pos h), (shale_frame ..).trans ?_⟩
  exact congrArg (fun a => ({ s.logs _ with axes := a } : State))
    ((upd_upd s.axes n
      (fun x => { x with enc := { x.enc with err := true, armed := false, disarmed := true, fallback := (s.ax n).cfg.setpoint } })
      (fun x => { x with mot := { x.mot with unsure := true } })).trans (upd_congr _ _ _ _ rfl))

end Sys2Proof.Machine
end

section
/-! PROOF. The completions of an axis that an event turns off (03_motion_segments.md R78; 08_stall.md R238; 11_queues_packets.md R302). -/
namespace Sys2Proof.Machine
open Sys2Proof

/-- The entries of a state depend on its queues and on whether dispatch is suspended or the module in SAFE_HOLD. -/
theorem entered_congr {s t : State} (hq : t.q = s.q) (hh : t.dev.safeHold = s.dev.safeHold) (hs : t.dev.suspended = s.dev.suspended)
    (l : List Completion) : t.entered l = s.entered l := by
  unfold State.entered
  rw [hq, hh, hs]

theorem snapOps_entered (s : State) (l : List Completion) : (s.entered l).snapOps = s.q.snapOps := by
  unfold State.entered
  split
  · rfl
  · split
    · rfl
    · split <;> rfl

theorem endActs_noActions {s : State} (h : s.q.actions = []) (n : AxisId) (ks : List ActKind) (st : Status) (w : Word) (k : Nat) :
    s.endActs n ks st w k = s := by
  unfold State.endActs
  rw [waitingActs_noActions h]
  rfl

theorem stopsDone_noActions {s : State} (h : s.q.actions = []) (n : AxisId) (k : Nat) : s.stopsDone n k = s := by
  unfold State.stopsDone
  rw [waitingActs_noActions h]
  rfl

section
variable {s : State} {n : AxisId} {r : Run} {g : Segment} {tr tg : BitVec 16} {qr qg : BitVec 4}

/-- One run and one queued segment of an axis, both of your host, with no batch in the table and no command that waits. -/
structure State.HoldsTwo (s : State) (n : AxisId) (r : Run) (g : Segment) (tr tg : BitVec 16) (qr qg : BitVec 4) : Prop where
  runs : (s.ax n).mot.runs = [r]
  queue : (s.ax n).mot.queue = [g]
  rref : r.seg.ref = .host tr qr
  gref : g.ref = .host tg qg
  batches : s.q.batches = []
  actions : s.q.actions = []
  rfree : r.seg.flags.headDelayed = false
  gwhole : g.lost = false

/-- The entry with which the run ends (R238). -/
def State.dropEntry (s : State) (n : AxisId) (r : Run) (tr : BitVec 16) (qr : BitVec 4) (st : Status) (w : Word) : Completion :=
  { s.segEntry n r.seg tr qr (r.decided.getD (st, none)).1 with
    word := ((r.decided.getD (st, some w)).2).getD (outWord (s.ax n).mot.out) }

theorem completeRuns_one (hr : r.seg.ref = .host tr qr) (hb : s.q.batches = []) (hd : r.seg.flags.headDelayed = false) (live : Bool)
    (st : Status) (w : Word) : s.completeRuns n [r] live st (some w) = { s with q := s.entered [s.dropEntry n r tr qr st w] } := by
  unfold State.completeRuns
  rw [forAll_cons, forAll_nil, completeSeg_noBatch s n hr hb, segEntryOf_undelayed s n hd]
  unfold State.dropEntry State.segEntry
  cases r.decided <;> rfl

theorem flushQueue_one (hq : (s.ax n).mot.queue = [g]) (hg : g.ref = .host tg qg) (hb : s.q.batches = []) (hl : g.lost = false) :
    (s.flushQueue n .flushed).q = s.entered [s.segEntry n g tg qg .flushed] := by
  let u := s.modMot n fun a => { a with queue := [] }
  have hax : (u.ax n).mot = { (s.ax n).mot with queue := [] } := by
    unfold u
    rw [modMot_ax_self]
  have hf : s.flushQueue n .flushed = u.completeSeg n g .flushed (mpos32 (s.ax n).mot.mProg) none (Config.heldDelay (s.ax n).mot.mProg)
      ((s.ax n).mot.mProg / 65536) ((s.ax n).mot.mProg / 65536) := by
    unfold State.flushQueue
    extract_lets a m
    rw [show a.queue = [g] from hq, List.foldl_cons, List.foldl_nil, hl]
    rfl
  have he : u.segEntryOf n g tg qg .flushed (mpos32 (s.ax n).mot.mProg) none (Config.heldDelay (s.ax n).mot.mProg) = s.segEntry n g tg qg .flushed := by
    unfold State.segEntryOf
    rw [hax]
    rfl
  rw [hf, completeSeg_noBatch u n hg hb, he]
  exact entered_congr rfl rfl rfl _

/-- What runs and what is queued on the axis end, in that order. -/
theorem State.HoldsTwo.dropAll (h : s.HoldsTwo n r g tr tg qr qg) (st : Status) (w : Word) :
    (s.dropAll n st (some w)).q = s.entered [s.dropEntry n r tr qr st w, s.segEntry n g tg qg .flushed] := by
  unfold State.dropAll
  extract_lets a s1 s2 cnt
  have hmot : (s1.ax n).mot = _ := congrArg Axis.mot (modMot_ax_self ..)
  have hs2 : s2 = { s1 with q := s.entered [s.dropEntry n r tr qr st w] } := by
    have he : s1.dropEntry n r tr qr st w = s.dropEntry n r tr qr st w := by
      unfold State.dropEntry State.segEntry State.axMpos
      rw [hmot]
    simp only [s2, a, h.runs, completeRuns_one (s := s1) h.rref h.batches h.rfree, he]
    rfl
  have hmot2 : (s2.ax n).mot = (s1.ax n).mot := by rw [hs2]; rfl
  have hqueue : (s2.ax n).mot.queue = [g] := by
    rw [hmot2, hmot]
    exact h.queue
  have hb : s2.q.batches = [] := by
    rw [hs2]
    exact (batches_entered ..).trans h.batches
  have hentry : s2.segEntry n g tg qg .flushed = s.segEntry n g tg qg .flushed := by
    unfold State.segEntry State.axMpos
    rw [hmot2, hmot]
  have hq : (s2.flushQueue n .flushed).q = s.entered [s.dropEntry n r tr qr st w, s.segEntry n g tg qg .flushed] := by
    rw [flushQueue_one hqueue h.gref hb h.gwhole, hentry]
    have happ := entered_append s [s.dropEntry n r tr qr st w] [s.segEntry n g tg qg .flushed]
    refine Eq.trans (entered_congr ?_ ?_ ?_ _) happ <;> rw [hs2] <;> rfl
  have hact : (s2.flushQueue n .flushed).q.actions = [] := by
    rw [hq]
    exact (actions_entered ..).trans h.actions
  rw [countDisable_noActions hact, stopsDone_noActions hact]
  exact hq

theorem endEnable_noActions (h : s.q.actions = []) (st : Status) (w : Word) :
    s.endEnable n st w = s.modDrv n fun d => { d with enabling := false } :=
  endActs_noActions (s := s.modDrv n fun d => { d with enabling := false }) h n _ st w 0

theorem dropJogWait_noActions (h : s.q.actions = []) (st : Status) (w : Word) : (s.dropJogWait n st w).q = s.q := by
  unfold State.dropJogWait
  have hn := endActs_noActions (s := { s with sb := { s.sb with jogWait := s.sb.jogWait.filter fun j => j.1 ≠ n } }) h n [.sbJog] st w 0
  exact Eq.trans (congrArg State.q hn) rfl

theorem endIdent_none (h : (s.ax n).prot.ident = none) (st : Status) (w : Word) : s.endIdent n st w = s := by
  unfold State.endIdent
  rw [h]

/-- The state from which the ending of an axis goes on: its retry is over and a jog blocks the buttons. -/
def State.endBegun (s : State) (n : AxisId) : State :=
  ((s.ownedAlert n).modProt n fun p => { p with retry := .none, tries := if p.retry = .none then p.tries else 0, partner := none }).modMot n fun m =>
    { m with jogBlocked := m.jogBlocked || m.jog.isSome }

theorem endBegun_frame (s : State) (n : AxisId) : s.endBegun n = { s with axes := (s.endBegun n).axes, sb := (s.endBegun n).sb } := by
  unfold State.endBegun State.ownedAlert
  split <;> rfl

theorem endBegun_mot (s : State) (n : AxisId) :
    ((s.endBegun n).ax n).mot = { (s.ax n).mot with jogBlocked := (s.ax n).mot.jogBlocked || (s.ax n).mot.jog.isSome }
      ∧ ((s.endBegun n).ax n).prot.ident = (s.ax n).prot.ident := by
  unfold State.endBegun
  rw [modMot_ax_self, modProt_ax_self]
  unfold State.ownedAlert
  split <;> exact ⟨rfl, rfl⟩

/-- What follows the segments in the ending of an axis. -/
def State.endTail (s : State) (n : AxisId) (st : Status) (w : Word) : State :=
  let t := ((s.endEnable n st w).endIdent n st w).modDrv n fun d => { d with brake := false, brakeWait := false }
  ({ t with sb := { t.sb with jogs := t.sb.jogs.filter (· ≠ n) } }).dropJogWait n st w

theorem endAll_tail (s : State) (n : AxisId) (st : Status) (w : Word) :
    s.endAll n st w = ((s.endBegun n).dropAll n st (some w)).endTail n st w := by
  unfold State.endAll State.endBegun State.endTail
  rfl

/-- With no command that waits it makes no entries. -/
theorem endTail_q (hact : s.q.actions = []) (hid : (s.ax n).prot.ident = none) (st : Status) (w : Word) : (s.endTail n st w).q = s.q := by
  unfold State.endTail
  rw [endEnable_noActions hact, endIdent_none (by rw [modDrv_ax_self]; exact hid)]
  exact dropJogWait_noActions (by exact hact) st w

/-- What follows the ending of an axis in its turning off. -/
def State.offTail (s : State) (n : AxisId) : State :=
  let t := (s.modDrv n fun d => { d with enabled := false, energised := false, disabling := false, offPend := true }).endActs n [.disable] .ok 0 0
  { t with q := { t.q with snapOps := t.q.snapOps.filter fun o => o ≠ .energise n } }

theorem turnOff_tail (s : State) (n : AxisId) (st : Status) (w : Word) : s.turnOff n st w = (s.endAll n st w).offTail n := by
  unfold State.turnOff State.offTail
  rfl

theorem offTail_q (hact : s.q.actions = []) : (s.offTail n).q = { s.q with snapOps := s.q.snapOps.filter fun o => o ≠ .energise n } := by
  unfold State.offTail
  rw [endActs_noActions (by exact hact)]
  rfl

/-- Everything on the axis ends: what runs and what is queued with their entries, and nothing else (R78). -/
theorem State.HoldsTwo.turnOff_q (h : s.HoldsTwo n r g tr tg qr qg) (hid : (s.ax n).prot.ident = none) (st : Status) (w : Word) :
    (s.turnOff n st w).q = { s.entered [s.dropEntry n r tr qr st w, s.segEntry n g tg qg .flushed] with
      snapOps := s.q.snapOps.filter fun o => o ≠ .energise n } := by
  let b := s.endBegun n
  have hb : b = _ := endBegun_frame s n
  obtain ⟨hmot, hident⟩ := endBegun_mot s n
  have hbq : b.q = s.q := by rw [hb]
  have h2 : b.HoldsTwo n r g tr tg qr qg :=
    ⟨by rw [hmot]; exact h.runs, by rw [hmot]; exact h.queue, h.rref, h.gref, by rw [hbq]; exact h.batches, by rw [hbq]; exact h.actions,
      h.rfree, h.gwhole⟩
  have hentries : [b.dropEntry n r tr qr st w, b.segEntry n g tg qg .flushed] = [s.dropEntry n r tr qr st w, s.segEntry n g tg qg .flushed] := by
    unfold State.dropEntry State.segEntry State.axMpos
    rw [hmot]
  have hd := h2.dropAll st w
  rw [hentries, entered_congr hbq (by rw [hb]) (by rw [hb])] at hd
  have hact : (b.dropAll n st (some w)).q.actions = [] := by
    rw [hd]
    exact (actions_entered ..).trans h.actions
  have hid2 : ((b.dropAll n st (some w)).ax n).prot.ident = none := by
    rw [endsOn_ax (dropAll_endsOn b n st (some w))]
    exact hident.trans hid
  have hq : (s.endAll n st w).q = _ := (congrArg State.q (endAll_tail s n st w)).trans ((endTail_q hact hid2 st w).trans hd)
  have hact3 : (s.endAll n st w).q.actions = [] := by
    rw [hq]
    exact (actions_entered ..).trans h.actions
  rw [turnOff_tail, offTail_q hact3, hq, snapOps_entered]

end

/-- Settles O50: each row by its condition, what turns an axis off by `axisOff` and what it notes of it, and the entries of the turning off
with no batch in the table and no command that waits. A PLUGGED probe writes RCOIL as the mean of both readings rounded down, and needs
every routed pin active for the change of the plug state (notes/assumptions/108.md, notes/assumptions/86.md). -/
theorem axesAreTurnedOffByTheirFaults : Obligations.AxesAreTurnedOffByTheirFaults := by
  refine ⟨fun s n => ⟨fun ra rb => ⟨fun h => ?_, fun hplug hen hdiag => ?_⟩, ⟨exec_unplugDetect_idle, fun he ho => ?_⟩,
    ⟨exec_shareErr_idle, fun h => ?_⟩, fun c => ⟨exec_sampleLost_idle, exec_sampleLost_flagged⟩, fun h => ?_, exec_encErr_noted⟩,
    fun s n r g st w tr tg qr qg => ⟨turnOff_axisOff s n st w, fun hr hq hrr hgr _ _ hb ha hd _ hl hid => ?_⟩⟩
  · refine congrArg Host.Outcome.next (plugProbe_idle ?_)
    unfold State.probes
    rcases h with h | h | h
    · rw [h, Bool.false_and, Bool.false_and]
    · rw [h, Bool.not_true, Bool.and_false, Bool.false_and]
    · rw [Option.isNone_eq_false_iff.2 (Option.isSome_iff_ne_none.2 h), Bool.and_false]
  · have hp : s.probes n = true := by
      unfold State.probes
      rw [hplug, hen, hdiag]
      rfl
    exact ⟨exec_plugProbe_new hp, exec_plugProbe_again hp⟩
  · obtain ⟨w, hw⟩ := exec_unplugDetect_off he ho
    obtain ⟨hoff, hax⟩ := unplug_off s n w
    exact ⟨_, hw, hoff, by rw [hax]; rfl, by rw [hax]; rfl, by rw [hax]; rfl, by rw [hax]; rfl⟩
  · obtain ⟨t, ht, hoff, hax⟩ := exec_shareErr_off h
    exact ⟨t, ht, hoff, by rw [hax]; rfl, by rw [hax]; rfl, by rw [hax]; rfl⟩
  · exact congrArg Host.Outcome.next (if_neg (by rw [h]; exact Bool.false_ne_true))
  · exact State.HoldsTwo.turnOff_q ⟨hr, hq, hrr, hgr, hb, ha, hd, hl⟩ hid st w

end Sys2Proof.Machine
end

section
/-! PROOF. The start of a device reset, and the commands that begin one (15_reset_lifecycle.md R377 to R404; 12_opcodes.md R336, R338). -/
namespace Sys2Proof.Machine
open Sys2Proof

/-! ### What the writes that a reset cuts leave (R384, R385) -/

/-- What the NVM keeps under the end of its writes: life cycle, keys, passcode, marks, floor and what was saved of the power-on hours. -/
structure Nvm.KeepsKeys (v w : Nvm) : Prop where
  lc : w.lc = v.lc
  lcWord : w.lcWord = v.lcWord
  devKey : w.devKey = v.devKey
  fwKey : w.fwKey = v.fwKey
  passcode : w.passcode = v.passcode
  markA : w.markA = v.markA
  markB : w.markB = v.markB
  floor : w.floor = v.floor
  pohSaved : w.pohSaved = v.pohSaved
  erasing : w.erasing = v.erasing

theorem Nvm.KeepsKeys.refl (v : Nvm) : v.KeepsKeys v := ⟨rfl, rfl, rfl, rfl, rfl, rfl, rfl, rfl, rfl, rfl⟩

theorem Nvm.KeepsKeys.trans {u v w : Nvm} (h : u.KeepsKeys v) (k : v.KeepsKeys w) : u.KeepsKeys w :=
  ⟨k.lc.trans h.lc, k.lcWord.trans h.lcWord, k.devKey.trans h.devKey, k.fwKey.trans h.fwKey, k.passcode.trans h.passcode,
    k.markA.trans h.markA, k.markB.trans h.markB, k.floor.trans h.floor, k.pohSaved.trans h.pohSaved, k.erasing.trans h.erasing⟩

/-- `t` is `s` under the end of NVM and flash writes: the choices that were open, the NVM, an alert and the flash contents differ. -/
structure State.CutsOnly (s t : State) : Prop where
  frame : t = { s with
    dev := { s.dev with free := t.dev.free }, nvm := t.nvm, sb := { s.sb with causes := t.sb.causes, announced := t.sb.announced }
    mp := { s.mp with flash := t.mp.flash } }
  nvm : s.nvm.KeepsKeys t.nvm

theorem State.CutsOnly.refl (s : State) : s.CutsOnly s := ⟨rfl, .refl _⟩

theorem State.CutsOnly.trans {s t u : State} (h : s.CutsOnly t) (k : t.CutsOnly u) : s.CutsOnly u :=
  ⟨by rw [k.frame, h.frame], h.nvm.trans k.nvm⟩

theorem State.CutsOnly.ofNvm {s : State} {v : Nvm} (h : s.nvm.KeepsKeys v) : s.CutsOnly { s with nvm := v } := ⟨rfl, h⟩

theorem freeVal_cutsOnly (s : State) : s.CutsOnly s.freeVal.2 := ⟨rfl, .refl _⟩

theorem putShale_keepsKeys (v : Nvm) (e : ShaleEntry) : v.KeepsKeys (v.putShale e) := ⟨rfl, rfl, rfl, rfl, rfl, rfl, rfl, rfl, rfl, rfl⟩

theorem writeShale_cutsOnly (s : State) (e : ShaleEntry) : s.CutsOnly (s.writeShale e) := ⟨rfl, putShale_keepsKeys ..⟩

theorem pulse_keepsKeys (v : Nvm) (b : Bool) : v.KeepsKeys { v with pulse := b } := ⟨rfl, rfl, rfl, rfl, rfl, rfl, rfl, rfl, rfl, rfl⟩

theorem cutOptions_keepsKeys (v : Nvm) (r : Vector Word 64) (c : Int) : v.KeepsKeys (v.cutOptions r c) := by
  unfold Nvm.cutOptions
  split_ifs <;> exact ⟨rfl, rfl, rfl, rfl, rfl, rfl, rfl, rfl, rfl, rfl⟩

theorem cutShale_cutsOnly (s : State) (e : ShaleEntry) (c : Int) : s.CutsOnly (s.cutShale e c) := by
  unfold State.cutShale
  split
  · exact .refl s
  · split
    · exact .ofNvm ((putShale_keepsKeys ..).trans (pulse_keepsKeys ..))
    · exact (writeShale_cutsOnly s e).trans (.ofNvm (pulse_keepsKeys ..))

theorem cutOptions_cutsOnly (s : State) : s.CutsOnly s.cutOptions := by
  unfold State.cutOptions
  split
  · exact .refl s
  · exact (freeVal_cutsOnly s).trans (.ofNvm (cutOptions_keepsKeys ..))

theorem cutFuses_cutsOnly (s : State) : s.CutsOnly s.cutFuses := by
  unfold State.cutFuses
  split
  · exact .refl s
  · exact (freeVal_cutsOnly s).trans (.ofNvm ⟨rfl, rfl, rfl, rfl, rfl, rfl, rfl, rfl, rfl, rfl⟩)

theorem cutLog_cutsOnly (s : State) : s.CutsOnly s.cutLog := by
  unfold State.cutLog
  split
  · exact .refl s
  · split
    · exact .refl s
    · exact (freeVal_cutsOnly s).trans (cutShale_cutsOnly ..)

theorem flashWrite_cutsOnly (s : State) (j : FlashJob) : s.CutsOnly (s.flashWrite j) := by
  cases j <;> exact ⟨rfl, .refl _⟩

theorem cutFlash_cutsOnly (s : State) : s.CutsOnly s.cutFlash := by
  unfold State.cutFlash
  split
  · exact .refl s
  · extract_lets held
    split
    · exact flashWrite_cutsOnly ..
    · split
      next c s1 hc =>
        have h1 : s.CutsOnly s1 := by
          have h := freeVal_cutsOnly s
          rwa [hc] at h
        split
        · exact h1.trans (flashWrite_cutsOnly ..)
        · exact h1

theorem cuts_cutsOnly (s : State) : s.CutsOnly s.cutNvm.cutFlash :=
  ((cutOptions_cutsOnly s).trans (cutFuses_cutsOnly _)).trans ((cutLog_cutsOnly _).trans (cutFlash_cutsOnly _))

/-! ### The start of a reset (R377 to R383) -/

theorem resetCore_begun (s : State) (src : Fin 7) : s.ResetBegun (s.resetCore src) src := by
  obtain ⟨hframe, hk⟩ := cuts_cutsOnly s
  unfold State.resetCore State.ResetBegun
  generalize s.cutNvm.cutFlash = u at hframe hk ⊢
  have hdev : u.dev = { s.dev with free := u.dev.free } := congrArg State.dev hframe
  have hsb : u.sb = { s.sb with causes := u.sb.causes, announced := u.sb.announced } := congrArg State.sb hframe
  have hmp : u.mp = { s.mp with flash := u.mp.flash } := congrArg State.mp hframe
  have hpending : u.pending = s.pending := by rw [hframe]
  have hgroups : u.groups = s.groups := by rw [hframe]
  have hpins : u.pins = s.pins := by rw [hframe]
  have hgrp (g : GroupId) : (u.groups.map Group.afterReset)[g.val] = (s.grp g).afterReset := by
    rw [Vector.getElem_map, hgroups]
    rfl
  have hpin (i : PinId) : (u.pins.map Pin.afterReset)[i.val] = (s.pin i).afterReset := by
    rw [Vector.getElem_map, hpins]
    rfl
  have hnrst : (!decide (src.val < 2)) = decide (2 ≤ src.val) := by simp only [← decide_not, Nat.not_lt]
  refine ⟨rfl, rfl, hnrst, rfl, rfl, (congrArg (fun d : Device => d.sources ||| BitVec.ofNat 7 (2 ^ src.val)) hdev :),
    (congrArg Device.safeA hdev :), (congrArg Device.safeB hdev :), (congrArg Device.step hdev :), hpending, rfl, rfl, rfl, rfl,
    fun n => Vector.getElem_replicate .., fun m => Vector.getElem_replicate ..,
    fun g => ⟨(congrArg Group.lockout (hgrp g) :), (congrArg Group.dt (hgrp g) :)⟩,
    fun i => ⟨(congrArg Pin.entry (hpin i) :), (congrArg Pin.raw (hpin i) :), (congrArg Pin.sink (hpin i) :)⟩,
    hk.devKey, hk.fwKey, hk.passcode, hk.markA, hk.markB, hk.floor, hk.pohSaved,
    (congrArg MemPort.chip0 hmp :), (congrArg MemPort.chip1 hmp :), rfl, rfl, rfl, rfl, rfl,
    (congrArg SideBand.power hsb :), (congrArg SideBand.addr hsb :), (congrArg SideBand.pecReq hsb :), (congrArg SideBand.amask hsb :)⟩

/-- What a reset keeps does not depend on how its command was taken, or on the life-cycle state written before it. -/
theorem resetBegun_of {s u t : State} {src : Fin 7} (h : u.ResetBegun t src)
    (hu : u = { s with q := u.q, nvm := u.nvm, sb := { s.sb with causes := u.sb.causes, announced := u.sb.announced } })
    (hk : ({ s.nvm with lc := u.nvm.lc, lcWord := u.nvm.lcWord, erasing := u.nvm.erasing } : Nvm).KeepsKeys u.nvm) : s.ResetBegun t src := by
  have hdev : u.dev = s.dev := by rw [hu]
  have hpending : u.pending = s.pending := by rw [hu]
  have hgrp (g) : u.grp g = s.grp g := by rw [hu]; rfl
  have hpin (i) : u.pin i = s.pin i := by rw [hu]; rfl
  have hmp : u.mp = s.mp := by rw [hu]
  have hsb : u.sb = { s.sb with causes := u.sb.causes, announced := u.sb.announced } := congrArg State.sb hu
  unfold State.ResetBegun at h ⊢
  simp only [hdev, hpending, hgrp, hpin, hmp, hk.devKey, hk.fwKey, hk.passcode, hk.markA, hk.markB, hk.floor, hk.pohSaved] at h
  rw [hsb] at h
  exact h

theorem resetCore_keepsKeys (s : State) (src : Fin 7) : s.nvm.KeepsKeys (s.resetCore src).nvm := (cuts_cutsOnly s).nvm

/-! ### LIFECYCLE and DEVICE_RESET (R336, R338) -/

theorem changeLife_frame (s : State) (l : LifeCycle) : s.changeLife l = { s with
    nvm := (s.changeLife l).nvm, sb := { s.sb with causes := (s.changeLife l).sb.causes, announced := (s.changeLife l).sb.announced } } := rfl

theorem changeLife_keepsKeys (s : State) (l : LifeCycle) : ({ s.nvm with lc := l, lcWord := lifeWord l } : Nvm).KeepsKeys (s.changeLife l).nvm :=
  putShale_keepsKeys ..

/-- An accepted transition writes the state word and begins a reset (R401, R404). -/
theorem transition_begun (s : State) (l : LifeCycle) : s.ResetBegun (s.transition l) 2 ∧ (s.transition l).nvm.lc = l
    ∧ (s.transition l).nvm.lcWord = lifeWord l ∧ (s.transition l).nvm.erasing = (s.nvm.erasing || l = .retired) := by
  unfold State.transition
  rw [startReset_lifeChange]
  extract_lets
  let u : State := { s.changeLife l with nvm := { (s.changeLife l).nvm with erasing := (s.changeLife l).nvm.erasing || l = .retired } }
  have hk := resetCore_keepsKeys u 2
  have hkeys := changeLife_keepsKeys s l
  exact ⟨resetBegun_of (resetCore_begun u 2) rfl
      ⟨rfl, rfl, hkeys.devKey, hkeys.fwKey, hkeys.passcode, hkeys.markA, hkeys.markB, hkeys.floor, hkeys.pohSaved, rfl⟩,
    hk.lc, hk.lcWord, hk.erasing⟩

/-- A reset of another source than the life-cycle change ends SERVICE (R403). -/
theorem startReset_begun (s : State) {src : Fin 7} (h : src ≠ 2) :
    s.ResetBegun (s.startReset src) src ∧ (s.startReset src).nvm.lc = if s.nvm.lc = .service then .field else s.nvm.lc := by
  unfold State.startReset
  by_cases hs : s.nvm.lc = .service
  · rw [if_pos (by rw [hs, decide_eq_true h]; rfl), if_pos hs]
    exact ⟨resetBegun_of (resetCore_begun ..) (changeLife_frame s .field) (changeLife_keepsKeys s .field), (resetCore_keepsKeys ..).lc⟩
  · rw [if_neg (by rw [decide_eq_false hs]; exact Bool.false_ne_true), if_neg hs]
    exact ⟨resetCore_begun .., (resetCore_keepsKeys ..).lc⟩

theorem started_resetBegun {s t : State} {p : Packet} {src : Fin 7} (h : (s.started p).ResetBegun t src) : s.ResetBegun t src := h

section
variable {s : State} {core : CoreId} {p : Packet}

theorem exec_lifecycle (h : s.Admits core 0x48 p) (hp : passes (s.lifeChecks p.params)) :
    exec (.lifecycle core) s = .next (if uAt p.params 0 1 = 0 then (s.started p).done p ((s.started p).identifyWord 5)
      else (s.started p).transition (lifeTarget (uAt p.params 0 1))) := by
  have hb := guarded_passes (s := s.started p) (p := p) (by exact hp) fun s =>
    if uAt p.params 0 1 = 0 then s.done p (s.identifyWord 5) else s.transition (lifeTarget (uAt p.params 0 1))
  exact (exec_row lifecycleBody rfl h).trans (congrArg Host.Outcome.next hb)

theorem exec_deviceReset (h : s.Admits core 0x4F p) (hkey : uAt p.params 0 2 = 0xC3A5) (hres : uAt p.params 2 2 = 0) :
    exec (.deviceReset core) s = .next ((s.started p).startReset 5) := by
  have hp : passes [badKey p.params 0, reserved p.params 2 2] := by
    unfold badKey reserved badField passes
    rw [hkey, hres]
    rfl
  have hb := guarded_passes (s := s.started p) (p := p) hp fun s => s.startReset 5
  exact (exec_row deviceResetBody rfl h).trans (congrArg Host.Outcome.next hb)

end

theorem lifeTarget_retired (op : Nat) : decide (lifeTarget op = .retired) = decide (op = 2) := by
  unfold lifeTarget
  split
  next h => rw [decide_eq_true rfl, decide_eq_true h]
  next h => rw [decide_eq_false h]; rfl

/-- Settles O30: the transition writes the state word and begins the reset of source 2, DEVICE_RESET that of source 5. -/
theorem lifecycleAndDeviceResetBeginAReset : Obligations.LifecycleAndDeviceResetBeginAReset := by
  refine fun s core p => ⟨fun h hp => ⟨fun hop => ?_, fun op hop hlo hhi => ?_⟩, fun h hkey hres => ?_⟩
  · rw [exec_lifecycle h hp, if_pos ((uAt_one_eq_zero _ _).2 hop), done_started h]
    rfl
  · obtain ⟨hbegun, hlc, hword, herase⟩ := transition_begun (s.started p) (lifeTarget op)
    refine ⟨_, ?_, started_resetBegun hbegun, hlc, hword.trans (congrArg lifeWord hlc.symm), herase.trans ?_⟩
    · rw [exec_lifecycle h hp, uAt_one, hop, if_neg (by omega)]
    · rw [lifeTarget_retired]
      rfl
  · obtain ⟨hbegun, hlc⟩ := startReset_begun (s.started p) (src := 5) (by decide)
    exact ⟨_, exec_deviceReset h hkey hres, started_resetBegun hbegun, hlc⟩

end Sys2Proof.Machine
end

section
/-! PROOF. CLEAR_FAULT (12_opcodes.md R332; 16_integrity.md R413, R430). -/
namespace Sys2Proof.Machine
open Sys2Proof

/-- A packet answered after a change that touches neither queues nor positions is answered as it would have been before it. -/
theorem answer_changed {s t : State} {p : Packet} (hs : t.dev.suspended = false) (hh : t.dev.safeHold = false)
    (hq : t.q = (s.started p).q) (hax : ∀ n, (t.ax n).mot.mProg = (s.ax n).mot.mProg) (htb : t.tb = s.tb) (st : Status) (w : Word) :
    t.answer p st w = { t with q := (s.answered p st p.axis w).q } := by
  rw [answer_eq hs hh, reply_congr hax htb, hq]
  rfl

/-- Two changes of one axis are one. -/
theorem modAxis_modAxis (s : State) (n : AxisId) (f g : Axis → Axis) : (s.modAxis n f).modAxis n g = s.modAxis n fun x => g (f x) :=
  congrArg (fun a => ({ s with axes := a } : State)) (upd_upd s.axes n f g)

section
variable {s : State} {core : CoreId} {p : Packet}

theorem exec_clearFault (h : s.Admits core 0x38 p) (hp : s.parityStands p = false) :
    exec (.clearFault core) s = .next (match axisOfByte p.axis, p.groupId with
      | some n, _ => ((s.started p).clearAxis n).done p 0
      | none, some g => if p.axis = 0xFE then ((s.started p).clearGroup p g).done p 0 else ((s.started p).clearGlobal.done p 0).freeLost
      | none, none => ((s.started p).clearGlobal.done p 0).freeLost) := by
  have hpass : passes [badState ((s.started p).parityStands p)] := by
    rw [show (s.started p).parityStands p = false from hp]
    rfl
  refine (exec_row clearFaultBody rfl h).trans (congrArg Host.Outcome.next ?_)
  refine (guarded_passes hpass _).trans ?_
  cases axisOfByte p.axis <;> cases p.groupId <;> rfl

theorem clearAxis_axes (s : State) (n : AxisId) : s.clearAxis n = { s with axes := upd s.axes n Axis.cleared } := modAxis_modAxis s n _ _

theorem axes_prog {s : State} {n : AxisId} {f : Axis → Axis} (hf : ∀ x, (f x).mot.mProg = x.mot.mProg) (k : AxisId) :
    (({ s with axes := upd s.axes n f } : State).ax k).mot.mProg = (s.ax k).mot.mProg := by
  by_cases hk : k = n
  · rw [hk]
    exact (congrArg (fun x : Axis => x.mot.mProg) (upd_self ..)).trans (hf _)
  · exact congrArg (fun x : Axis => x.mot.mProg) (upd_other _ _ _ _ hk)

theorem exec_clearFault_axis (h : s.Admits core 0x38 p) (hp : s.parityStands p = false) {n : AxisId} (hn : axisOfByte p.axis = some n) :
    exec (.clearFault core) s = .next { s.answered p .ok p.axis 0 with axes := upd s.axes n Axis.cleared } := by
  have hs : s.dev.suspended = false := Admits.susp h
  have hh : s.dev.safeHold = false := Admits.hold h
  rw [exec_clearFault h hp, hn]
  refine congrArg Host.Outcome.next ?_
  change ((s.started p).clearAxis n).done p 0 = _
  rw [clearAxis_axes]
  exact answer_changed (s := s) (t := { s.started p with axes := upd s.axes n Axis.cleared }) hs hh rfl
    (axes_prog (s := s) (f := Axis.cleared) fun _ => rfl) rfl .ok 0

/-- The group form: the axes, the group's link and parity faults, and the FAULT bit anew. -/
theorem exec_clearFault_group (h : s.Admits core 0x38 p) (hp : s.parityStands p = false) {g : GroupId} (hx : p.axis = 0xFE) (hg : p.groupId = some g) :
    ∃ t, exec (.clearFault core) s = .next t
      ∧ t = { s.answered p .ok p.axis 0 with
          axes := t.axes, groups := upd s.groups g fun x => { x with link := false, par := false }
          sb := { s.sb with faultSeen := t.sb.faultSeen, causes := t.sb.causes, announced := t.sb.announced } }
      ∧ ∀ n, t.ax n = if n ∈ s.addressed p then (s.ax n).cleared else s.ax n := by
  have hs : s.dev.suspended = false := Admits.susp h
  have hh : s.dev.safeHold = false := Admits.hold h
  have hn : axisOfByte p.axis = none := by rw [hx]; rfl
  let c := (s.started p).forAll (s.addressed p) State.clearAxis
  have hc : c = { s.started p with axes := c.axes } := forAll_axes _ _ (fun t k _ => by rw [clearAxis_axes]) _
  have hax (n) : c.ax n = if n ∈ s.addressed p then (s.ax n).cleared else s.ax n :=
    forAll_ax (addressed_nodup s p) (F := fun _ => Axis.cleared) (fun _ _ => by rw [clearAxis_axes]) (s.started p) n
  have hrow : exec (.clearFault core) s = .next (((s.started p).clearGroup p g).done p 0) := by
    rw [exec_clearFault h hp, hn, hg]
    exact congrArg Host.Outcome.next (if_pos hx)
  let f : Group → Group := fun x => { x with link := false, par := false }
  let u := (c.modGroup g f).noteFault
  have hu : u = { s.started p with
      axes := c.axes, groups := upd s.groups g f
      sb := { s.sb with faultSeen := u.sb.faultSeen, causes := u.sb.causes, announced := u.sb.announced } } := by
    have h1 : u = { c with
        groups := upd c.groups g f
        sb := { c.sb with faultSeen := u.sb.faultSeen, causes := u.sb.causes, announced := u.sb.announced } } := rfl
    rw [h1]
    conv_lhs => rw [hc]
    rfl
  have hprog (k) : (u.ax k).mot.mProg = (s.ax k).mot.mProg := by
    rw [show u.ax k = c.ax k from rfl, hax]
    split <;> rfl
  have hans : u.done p 0 = { u with q := (s.answered p .ok p.axis 0).q } :=
    answer_changed (by rw [hu]; exact hs) (by rw [hu]; exact hh) (by rw [hu]) hprog (by rw [hu]; rfl) .ok 0
  refine ⟨_, hrow.trans (congrArg Host.Outcome.next hans), ?_, hax⟩
  conv_lhs => rw [hu]
  rfl

/-- The module form: GFAULT but what still stands, TAG_LOST and GPAR_FIX, the FAULT bit anew, and the tags that nothing names. -/
theorem exec_clearFault_module (h : s.Admits core 0x38 p) (hp : s.parityStands p = false) (hx : p.axis = 0xFF) :
    ∃ t, exec (.clearFault core) s = .next t
      ∧ t = { s.answered p .ok p.axis 0 with
          dev := { s.dev with tagLost := false, gparFix := false, gfault := s.dev.gfault &&& (if s.dev.discNow then 0x21 else 0x01) }
          sb := { s.sb with faultSeen := t.sb.faultSeen, causes := t.sb.causes, announced := t.sb.announced }
          q := { (s.answered p .ok p.axis 0).q with live := t.q.live } }
      ∧ ∀ e, e ∈ t.q.live ↔ e ∈ s.q.live ∧ (s.answered p .ok p.axis 0).tagNamed e.1 = true := by
  have hs : s.dev.suspended = false := Admits.susp h
  have hh : s.dev.safeHold = false := Admits.hold h
  have hn : axisOfByte p.axis = none := by rw [hx]; rfl
  have hrow : exec (.clearFault core) s = .next (((s.started p).clearGlobal.done p 0).freeLost) := by
    rw [exec_clearFault h hp, hn]
    cases hg : p.groupId with
    | none => rfl
    | some g => exact congrArg Host.Outcome.next (if_neg (by rw [hx]; decide))
  let u := (s.started p).clearGlobal
  have hans : u.done p 0 = { u with q := (s.answered p .ok p.axis 0).q } :=
    answer_changed (t := u) hs hh rfl (fun _ => rfl) rfl .ok 0
  have hnamed (e : BitVec 16) : ({ u with q := (s.answered p .ok p.axis 0).q } : State).tagNamed e = (s.answered p .ok p.axis 0).tagNamed e := rfl
  refine ⟨_, hrow.trans (congrArg (fun t : State => Host.Outcome.next t.freeLost) hans), rfl, fun e => ?_⟩
  exact (List.mem_filter (as := s.q.live)).trans (by rw [hnamed])

end

/-- Settles O22: one axis, a group or the module. The tags kept are those of `tagNamed`, the packet's own among them and every tag with an
entry to be pulled (notes/assumptions/53.md). -/
theorem clearFaultClearsItsScope : Obligations.ClearFaultClearsItsScope := by
  intro s core p h hp
  exact ⟨fun n hn => exec_clearFault_axis h hp hn, fun g hx hg => exec_clearFault_group h hp hx hg, exec_clearFault_module h hp⟩

end Sys2Proof.Machine
end

section
/-! PROOF. SYNC_EPOCH and EPOCH_LOAD (02_master_time.md R69, R70; 12_opcodes.md R339). -/
namespace Sys2Proof.Machine
open Sys2Proof

/-! ### SYNC_EPOCH waits (R69) -/

theorem exec_syncEpoch_waits {s : State} {core : CoreId} {p : Packet} (h : s.Admits core 0x58 p) (h0 : byteAt p.params 0 = 0)
    (hmask : (byteAt p.params 8).toNat < 128) (hres : uAt p.params 9 3 = 0) (hlock : s.tb.roleEff = 2 → s.tb.syncLock = true)
    (hbound : s.maskBound (byteAt p.params 8).toNat = false) (hnone : s.tb.epoch = none) :
    exec (.syncEpoch core) s = .next { s.started p with
      tb := { s.tb with epoch := some ⟨p.ref, BitVec.ofNat 64 (uAt p.params 0 8), (byteAt p.params 8).setWidth 7, 0⟩ } } := by
  have hstate : ((decide (s.tb.roleEff = 2) && !s.tb.syncLock) || s.maskBound (uAt p.params 8 1) || s.tb.epoch.isSome) = false := by
    rw [uAt_one, hbound, hnone, Option.isSome_none, Bool.or_false, Bool.or_false, Bool.and_eq_false_iff, decide_eq_false_iff_not,
      Bool.not_eq_false']
    exact Classical.or_iff_not_imp_left.2 fun hr => hlock (not_not.1 hr)
  have hp : passes [badField 0 (uAt p.params 0 1 ≠ 0), badField 8 (128 ≤ uAt p.params 8 1), reserved p.params 9 3,
      badState ((decide (s.tb.roleEff = 2) && !s.tb.syncLock) || s.maskBound (uAt p.params 8 1) || s.tb.epoch.isSome)] := by
    rw [hstate]
    have h0' : uAt p.params 0 1 = 0 := (uAt_one_eq_zero _ _).2 h0
    have hm : ¬ 128 ≤ uAt p.params 8 1 := by rw [uAt_one]; omega
    unfold passes
    simp [firstFailure_cons, firstFailure_nil, badField, reserved, badState, h0', hres, hm]
  have hb := guarded_passes (s := s.started p) (p := p) (by exact hp) fun s => { s with tb := { s.tb with
    epoch := some ⟨p.ref, BitVec.ofNat 64 (uAt p.params 0 8), BitVec.ofNat 7 (uAt p.params 8 1), 0⟩ } }
  rw [ofNat_uAt_one] at hb
  exact (exec_row syncEpochBody rfl h).trans (congrArg Host.Outcome.next hb)

/-! ### Masked masters read 0 at the boundary (R69) -/

theorem posAt_forgotten (e : EdgeMaster) (tstill t : Nat) : ({ e with c := 0 }.forget).posAt tstill t = 0 := by
  unfold EdgeMaster.posAt EdgeMaster.timed EdgeMaster.forget
  extract_lets el f
  have hf : f = 0 := rfl
  rw [hf]
  split <;> rfl

theorem posAt_rebased (v : VirtMaster) (l f : Nat) : ({ v with vbase := 0, fbase := f } : VirtMaster).posAt l f 0 = 0 := by
  simp [VirtMaster.posAt]

/-- The state at the boundary, the masters preset and their positions taken anew. -/
def State.epochMasters (s : State) (e : Epoch) : State :=
  let s1 : State := { s with tb := s.tb.loadEpoch e.n e.mask }
  { s1 with tb := { s1.tb with snap := s1.snapAll } }

theorem epochMasters_edge (s : State) (e : Epoch) (i : Fin 5) (h : e.mask.getLsbD i.val = true) :
    (s.tb.loadEpoch e.n e.mask).edge[i.val] = { s.tb.edge[i.val] with c := 0 }.forget := by
  unfold TimeBase.loadEpoch
  rw [Vector.getElem_ofFn]
  exact if_pos h

theorem epochMasters_virt (s : State) (e : Epoch) (i : Fin 2) (h : e.mask.getLsbD (5 + i.val) = true) :
    (s.tb.loadEpoch e.n e.mask).virt[i.val] = { s.tb.virt[i.val] with vbase := 0, fbase := e.n.toNat } := by
  unfold TimeBase.loadEpoch
  rw [Vector.getElem_ofFn]
  exact if_pos h

theorem epochMasters_zero (s : State) (e : Epoch) (m : Fin 7) (h : e.mask.getLsbD m.val = true) : (s.epochMasters e).tb.snap[m.val] = 0 := by
  unfold State.epochMasters State.snapAll
  rw [Vector.getElem_ofFn]
  split
  next h5 =>
    have hv := epochMasters_virt s e 0 (by rw [← h]; exact congrArg _ h5.symm)
    exact (congrArg (fun v : VirtMaster => v.posAt _ e.n.toNat 0) hv).trans (posAt_rebased ..)
  next h6 =>
    have hv := epochMasters_virt s e 1 (by rw [← h]; exact congrArg _ h6.symm)
    exact (congrArg (fun v : VirtMaster => v.posAt _ e.n.toNat 0) hv).trans (posAt_rebased ..)
  next h7 =>
    have h7' : m.val = 7 := h7
    omega
  next h5 h6 h7 =>
    have hm : m.val < 5 := by
      have h5' : m.val ≠ 5 := h5
      have h6' : m.val ≠ 6 := h6
      omega
    rw [dif_pos hm]
    change ((s.tb.loadEpoch e.n e.mask).edge[m.val]).posAt _ _ = 0
    rw [epochMasters_edge s e ⟨m.val, hm⟩ h]
    exact posAt_forgotten ..

/-! ### EPOCH_LOAD (R69, R70) -/

theorem epochLoad_idle {s : State} (h : s.tb.epoch = none ∨ s.epochDue = false) : s.epochLoad = s := by
  unfold State.epochLoad
  split
  · rfl
  next e he =>
    rcases h with h | h
    · exact absurd (he.symm.trans h) (Option.some_ne_none e)
    · exact if_pos (by rw [h]; rfl)

/-- The epoch taken by axes, pins and batches. -/
def State.epochShifted (s : State) (e : Epoch) : State :=
  let u := s.epochMasters e
  let d := epochDelta s.tb.snap u.tb.snap e.mask
  { u with
    axes := u.axes.map fun x => { x with mot := x.mot.epochShift (d x.mot.master) (d 7) }
    pins := u.pins.map fun p =>
      match p.axis? with
      | some n => { p with posFirst := p.posFirst + d (s.ax n).mot.master }
      | none => p
    q := { u.q with batches := u.q.batches.map fun b => b.epochShift (d b.master) } }

theorem epochLoad_due {s : State} {e : Epoch} (he : s.tb.epoch = some e) (hd : s.epochDue = true) :
    s.epochLoad = (s.epochShifted e).complete e.ref .ok 0 0xFF (s.epochShifted e).m7pos 0 := by
  unfold State.epochLoad
  rw [he]
  exact if_neg (by rw [hd]; exact Bool.false_ne_true)

theorem epochShifted_ax (s : State) (e : Epoch) (n : AxisId) :
    (s.epochShifted e).ax n = { s.ax n with
      mot := (s.ax n).mot.epochShift (epochDelta s.tb.snap (s.epochMasters e).tb.snap e.mask (s.ax n).mot.master)
        (epochDelta s.tb.snap (s.epochMasters e).tb.snap e.mask 7) } := Vector.getElem_map ..

/-- Δ of the master of an axis (R70). -/
theorem epochDelta_eq (old new : Vector Int 8) (mask : BitVec 7) (m : MasterId) : epochDelta old new mask m =
    if 5 ≤ m.val ∧ (m.val = 7 ∨ mask.getLsbD m.val = false) then new[m.val] - old[m.val] else 0 := by
  unfold epochDelta
  refine if_congr ?_ rfl rfl
  constructor
  · rintro (h | ⟨h, hm⟩)
    · exact ⟨by omega, .inl h⟩
    · exact ⟨h, .inr hm⟩
  · rintro ⟨h, h7 | hm⟩
    · exact .inl h7
    · exact .inr ⟨h, hm⟩

/-- Settles O24: SYNC_EPOCH waits; at the pulse boundary the epoch is loaded, whatever axes have been enabled on a masked master since the
command started (notes/assumptions/105.md). -/
theorem epochsLoadAtThePulseBoundary : Obligations.EpochsLoadAtThePulseBoundary := by
  refine ⟨fun s core p h h0 hmask hres hlock hbound hnone => exec_syncEpoch_waits h h0 hmask hres hlock hbound hnone,
    fun s h => congrArg Host.Outcome.next (epochLoad_idle h), fun s e tag q he hd href hs hh => ?_⟩
  have hentry := complete_entered (s.epochShifted e) tag q .ok 0 0xFF (s.epochShifted e).m7pos 0
  rw [entered_ring (by exact hs) (by exact hh) (List.cons_ne_nil _ _)] at hentry
  refine ⟨_, congrArg Host.Outcome.next ((epochLoad_due he hd).trans ((congrArg (fun r => (s.epochShifted e).complete r .ok 0 0xFF (s.epochShifted e).m7pos 0) href).trans hentry)),
    rfl, rfl, rfl, fun m hm => epochMasters_zero s e m hm, fun n => ?_, rfl, rfl, rfl, rfl, rfl, rfl, rfl, rfl, rfl, rfl, rfl, rfl⟩
  have hax := epochShifted_ax s e n
  have hax' : ∀ k : Queues, ({ s.epochShifted e with q := k } : State).ax n = (s.epochShifted e).ax n := fun _ => rfl
  rw [hax', hax]
  refine ⟨rfl, rfl, rfl, ?_, rfl, rfl, rfl, rfl⟩
  exact congrArg ((s.ax n).mot.mProg + ·) (epochDelta_eq ..)

end Sys2Proof.Machine
end

section
/-! PROOF. Reads of the flash, and the tables loaded and reloaded (12_opcodes.md R330; 14_memory_port.md R365, R367;
16_integrity.md R410; notes/assumptions/113.md). -/
namespace Sys2Proof.Machine
open Sys2Proof

/-! ### What a read leaves (R367) -/

theorem onlyReads_refl (s : State) : s.onlyReads s := rfl

theorem onlyReads_trans {s t u : State} (h : s.onlyReads t) (k : t.onlyReads u) : s.onlyReads u := by
  unfold State.onlyReads at k ⊢
  refine k.trans ?_
  generalize u.mp = m
  rw [h]

theorem onlyReads_setCont (s : State) (d on : Bool) (l : List Nat) : s.onlyReads { s with mp := { s.mp.setCont d on with lines := l } } := by
  cases d <;> rfl

/-- A read leaves lines in the buffer and a device in its mode (R367). -/
theorem fetched_onlyReads (s : State) (a k : Nat) : s.onlyReads (s.fetched a k) := by
  unfold State.fetched
  split
  · exact onlyReads_refl s
  · exact onlyReads_setCont ..

/-- What reads leave has no part in the next one's bytes. -/
theorem onlyReads_flashThere {s t : State} (h : s.onlyReads t) (a k : Nat) : t.flashThere a k = s.flashThere a k := by
  rw [h]
  rfl

theorem onlyReads_flashRead {s t : State} (h : s.onlyReads t) (a k : Nat) : t.flashRead a k = s.flashRead a k := by
  rw [h]
  rfl

theorem onlyReads_tableObject {s t : State} (h : s.onlyReads t) (a : Nat) : t.tableObject a = s.tableObject a := by
  unfold State.tableObject
  rw [onlyReads_flashRead h]

/-- A table whose bytes are not there has no object (R365, R372). -/
theorem tableObject_absent {s : State} {a : Nat} (h : s.flashThere a 4108 = false) : s.tableObject a = none := by
  have hread : s.flashRead a 4108 = none := if_neg (by rw [h]; exact Bool.false_ne_true)
  unfold State.tableObject
  rw [hread]

/-! ### LOAD_TABLE (R330) -/

/-- The entries written stand from `first` on, and no other entry has changed. -/
theorem getElem?_writeEntries {old new : List Word} {first : Nat} (h : first + new.length ≤ old.length) (i : Nat) :
    (writeEntries old new first)[i]? = if first ≤ i ∧ i < first + new.length then new[i - first]? else old[i]? := by
  have htake : (old.take first).length = first := by rw [List.length_take]; omega
  unfold writeEntries
  by_cases hlow : i < first
  · rw [if_neg (by omega), List.append_assoc, List.getElem?_append_left (by omega), List.getElem?_take, if_pos hlow]
  · by_cases hin : i < first + new.length
    · rw [if_pos ⟨by omega, hin⟩, List.append_assoc, List.getElem?_append_right (by omega), htake,
        List.getElem?_append_left (by omega)]
    · have hlen : (old.take first ++ new).length = first + new.length := by rw [List.length_append, htake]
      rw [if_neg (by omega), List.getElem?_append_right (by omega), hlen, List.getElem?_drop]
      congr 1
      omega

section
variable {s : State} {core : CoreId} {p : Packet}

theorem exec_loadTable (h : s.Admits core 0x30 p) (hp : passes (s.tableChecks p.params)) :
    exec (.loadTable core) s = .next (if (byteAt p.params 1).getLsbD 0
      then (s.started p).addJob (.table p.ref (tableOf p.params) (wordAt p.params 8)) else (s.started p).loadPacketTable p) := by
  have hb := guarded_passes (s := s.started p) (p := p) (by exact hp) fun s : State =>
    if (byteAt p.params 1).getLsbD 0 then s.addJob (.table p.ref (tableOf p.params) (wordAt p.params 8)) else s.loadPacketTable p
  exact (exec_row loadTableBody rfl h).trans (congrArg Host.Outcome.next hb)

theorem addJob_onlyPort (s : State) (j : FlashJob) : s.onlyPort (s.addJob j) ∧ (s.addJob j).mp.jobs = s.mp.jobs ++ [j] :=
  portStart_onlyPort { s with mp := { s.mp with jobs := s.mp.jobs ++ [j] } }

theorem exec_loadTable_flash (h : s.Admits core 0x30 p) (hp : passes (s.tableChecks p.params)) (hb : (byteAt p.params 1).getLsbD 0 = true) :
    ∃ u, exec (.loadTable core) s = .next u ∧ (s.started p).onlyPort u
      ∧ u.mp.jobs = s.mp.jobs ++ [.table p.ref (tableOf p.params) (wordAt p.params 8)] :=
  ⟨_, (exec_loadTable h hp).trans (congrArg Host.Outcome.next (if_pos hb)), addJob_onlyPort (s.started p) _⟩

/-- The staging copy of the table a packet names, with the packet's entries (R330). -/
def State.stagedCopy (s : State) (p : Packet) : List Word :=
  let x := s.tables[(tableOf p.params).val]
  writeEntries (x.staging.getD x.entries) (tableEntries p.params) (uAt p.params 2 2)

theorem loadPacketTable_copy (h : s.Admits core 0x30 p) (hb : byteAt p.params 1 = 0) :
    (s.started p).loadPacketTable p = { s.answered p .ok p.axis 0 with
      tables := upd s.tables (tableOf p.params) fun x => { x with staging := some (s.stagedCopy p) } } := by
  have hc : ¬ (byteAt p.params 1).getLsbD 1 = true := by
    rw [hb]
    decide
  have hs : s.dev.suspended = false := h.1.2.1
  have hh : s.dev.safeHold = false := h.1.2.2.1
  refine (if_neg hc).trans ?_
  exact answer_changed (s := s) (t := { s.started p with tables := upd s.tables (tableOf p.params) fun x => { x with staging := some (s.stagedCopy p) } })
    hs hh rfl (fun _ => rfl) rfl .ok 0

theorem loadPacketTable_commit (hb : byteAt p.params 1 = 2) :
    (s.started p).loadPacketTable p = { s.started p with
      tables := upd s.tables (tableOf p.params) fun x => { x with staging := none }
      q := { (s.started p).q with snapOps := s.q.snapOps ++ [.installTable (tableOf p.params) (s.stagedCopy p) none p.ref] } } := by
  refine (if_pos ?_).trans rfl
  rw [hb]
  decide

end

/-! ### TABLE_RELOAD_END (R410) -/

theorem tableReload_idle {s : State} {t : Fin 4} (h : s.tables[t.val].reloading = false) : s.tableReload t = s :=
  if_pos (by rw [show s.tables[t].reloading = false from h]; rfl)

/-- What a table holds once its reload has ended with an object, or without (R410). -/
def MicroTable.reloaded (x : MicroTable) (o : Option (List Word)) : MicroTable :=
  match o with
  | some es => { x with custom := some es, reloading := false, badEntries := [] }
  | none => { x with invalid := true, reloading := false, badEntries := [] }

theorem tableReload_ends {s : State} {t : Fin 4} {a : Word} (h : s.tables[t.val].reloading = true) (ha : s.tables[t.val].faddr = some a) :
    s.tableReload t = (if s.flashThere a.toNat 4108 then s.fetched a.toNat 4108 else s.flashError).modTable t
      fun x => x.reloaded (s.tableObject a.toNat) := by
  have ha' : (s.tables[t].faddr).getD 0 = a := by
    rw [show s.tables[t].faddr = some a from ha]
    rfl
  unfold State.tableReload
  extract_lets x a' s1
  have hobj : s1.tableObject a'.toNat = s.tableObject a.toNat := by
    rw [show a' = a from ha']
    show (if s.flashThere a'.toNat 4108 then s.fetched a'.toNat 4108 else s.flashError).tableObject a.toNat = _
    split
    · exact onlyReads_tableObject (fetched_onlyReads ..) _
    · rfl
  rw [if_neg (by rw [show x.reloading = true from h]; decide), hobj]
  have hs1 : s1 = if s.flashThere a.toNat 4108 then s.fetched a.toNat 4108 else s.flashError := by
    show (if s.flashThere a'.toNat 4108 then s.fetched a'.toNat 4108 else s.flashError) = _
    rw [show a' = a from ha']
  rw [hs1]
  cases s.tableObject a.toNat <;> rfl

/-- A table changed after reads is the table changed, with what the reads leave. -/
theorem onlyReads_modTable {s u : State} (h : s.onlyReads u) (t : Fin 4) (f : MicroTable → MicroTable) :
    State.onlyReads { s with tables := upd s.tables t f } (u.modTable t f) := by
  unfold State.onlyReads State.modTable at *
  rw [h]

/-- Settles O25: a table is installed at its boundary whatever axes are enabled by then, the model's choice
(notes/assumptions/113.md). -/
theorem tablesAreLoadedAndReloaded : Obligations.TablesAreLoadedAndReloaded := by
  refine ⟨⟨fun s core p h hc => ⟨exec_loadTable_flash h hc, fun hb => ?_, fun hb => ?_⟩, fun s t es fa tag q => ?_,
    fun old new first i h => getElem?_writeEntries h i⟩, fun s t a => ⟨fun h => ?_, fun h ha => ⟨fun hf => ?_, fun hf => ?_⟩⟩⟩
  · have hflash : ¬ (byteAt p.params 1).getLsbD 0 = true := by
      rw [hb]
      decide
    exact (exec_loadTable h hc).trans (congrArg Host.Outcome.next ((if_neg hflash).trans (loadPacketTable_copy h hb)))
  · have hflash : ¬ (byteAt p.params 1).getLsbD 0 = true := by
      rw [hb]
      decide
    exact (exec_loadTable h hc).trans (congrArg Host.Outcome.next ((if_neg hflash).trans (loadPacketTable_commit hb)))
  · exact complete_entered ..
  · exact congrArg Host.Outcome.next (tableReload_idle h)
  · refine congrArg Host.Outcome.next ((tableReload_ends h ha).trans ?_)
    rw [tableObject_absent hf, if_neg (by rw [hf]; exact Bool.false_ne_true)]
    rfl
  · refine ⟨_, congrArg Host.Outcome.next ((tableReload_ends h ha).trans (by rw [if_pos hf])), fun ho => ?_, fun es ho => ?_⟩
    · rw [ho]
      exact onlyReads_modTable (fetched_onlyReads ..) t _
    · rw [ho]
      exact onlyReads_modTable (fetched_onlyReads ..) t _

end Sys2Proof.Machine
end

section
/-! PROOF. LOAD_LIBRARY and its stream (12_opcodes.md R331; 14_memory_port.md R374; notes/assumptions/61.md). -/
namespace Sys2Proof.Machine
open Sys2Proof

/-- Entries in the ring leave the live tags. -/
theorem entered_live (s : State) (l : List Completion) : (s.entered l).live = s.q.live := by
  unfold State.entered
  split
  · rfl
  split
  · rfl
  split
  · rfl
  · rfl

/-- A segment written by a stream whose checks pass joins its queue (R331). -/
theorem writeRecord_queued {s : State} {r : Record} {tag : BitVec 16} {q : BitVec 4} {n : AxisId}
    (hn : axisOfByte (r.packet tag q).axis = some n) (hb : (r.packet tag q).batch = 0) (ha : s.asyncCheck (r.packet tag q) = none)
    (ho : s.opening (r.packet tag q) = none) (hc : passes (s.segmentChecks (r.packet tag q) n)) :
    s.writeRecord r tag q = s.modMot n fun a => { a with queue := a.queue ++ [(r.packet tag q).segment] } := by
  have hact : s.act (r.packet tag q) segmentBody = segmentBody s (r.packet tag q) := by rw [State.act, ho]
  have hbody : segmentBody s (r.packet tag q) = s.enqueue n (r.packet tag q).segment := by
    rw [segmentBody, hn]
    exact guarded_passes hc _
  have hbatch : (r.packet tag q).segment.batch = 0 := hb
  unfold State.writeRecord
  extract_lets p
  rw [ha]
  exact hact.trans (hbody.trans (if_pos hbatch))

/-- With no record left LOAD_LIBRARY completes OK with their number, and the tags left over are free (R331). -/
theorem streamOn_nil (s : State) {st : Stream} {tag : BitVec 16} {q : BitVec 4} (hr : st.ref = .host tag q) (n : Nat) :
    State.streamOn st [] n s = { s with
      mp := { s.mp with stream := none }
      q := { s.entered [⟨tag, .ok, 0, 0xFF, q, s.m7pos, BitVec.ofNat 32 n, false⟩] with
        live := s.q.live.filter fun t => !(st.tagBase + n ≤ t.1.toNat && t.1.toNat < st.tagBase + st.maxSeg) } } := by
  show State.freeTags (State.complete { s with mp := { s.mp with stream := none } } st.ref .ok 0 0xFF s.m7pos (BitVec.ofNat 32 n)) st n = _
  rw [hr, complete_entered]
  unfold State.freeTags
  simp only [entered_live]
  rfl

/-- A stream stands while its next queue is full (R331). -/
theorem streamOn_full {s : State} {st : Stream} {r : Record} {rest : List Record} (h : s.queueFull r = true) (n : Nat) :
    State.streamOn st (r :: rest) n s = { s with mp := { s.mp with stream := some { st with records := r :: rest, written := n } } } :=
  if_pos h

theorem streamOn_room {s : State} {st : Stream} {r : Record} {rest : List Record} (h : s.queueFull r = false) (n : Nat) :
    State.streamOn st (r :: rest) n s = State.streamOn st rest (n + 1) (s.writeRecord r (st.tag n) st.ref.queue) :=
  if_neg (by rw [h]; exact Bool.false_ne_true)

theorem streamStep_running {s : State} {st : Stream} (h1 : s.dev.stage = .running) (h2 : s.dev.suspended = false)
    (h3 : s.dev.safeHold = false) (hst : s.mp.stream = some st) : s.streamStep = State.streamOn st st.records st.written s := by
  have hd : s.dispatching = true := by simp [State.dispatching, h1, h2, h3]
  unfold State.streamStep
  rw [hd, hst]
  rfl

/-- Settles O26: LOAD_LIBRARY queues its read before any other check of R331, and the checks of its fields follow the directory, the
model's choice (notes/assumptions/61.md). -/
theorem librariesStreamIntoTheQueues : Obligations.LibrariesStreamIntoTheQueues := by
  refine ⟨fun s core p h => ⟨_, exec_row loadLibraryBody rfl h, addJob_onlyPort (s.started p) _⟩,
    fun s st r h1 h2 h3 hst => ⟨fun rest hrest hfull => ?_, fun n tag q hrest href hn hroom => ?_⟩⟩
  · refine congrArg Host.Outcome.next ((streamStep_running h1 h2 h3 hst).trans ?_)
    have hself : { st with records := r :: rest, written := st.written } = st := by rw [← hrest]
    have hmp : { s.mp with stream := some st } = s.mp := by rw [← hst]
    rw [hrest, streamOn_full hfull, hself, hmp]
  · intro p hax hb ha ho hc
    have hfull : s.queueFull r = false := by
      unfold State.queueFull
      rw [hn]
      exact decide_eq_false (Nat.not_le.2 hroom)
    have hpn : axisOfByte p.axis = some n := by rw [hax, hn]
    have hq : st.ref.queue = q := by rw [href]; rfl
    refine congrArg Host.Outcome.next ((streamStep_running h1 h2 h3 hst).trans ?_)
    rw [hrest, streamOn_room hfull, hq, writeRecord_queued hpn hb ha ho hc, streamOn_nil _ href]
    rfl

end Sys2Proof.Machine
end

section
/-! PROOF. FLASH_OPERATION_END (12_opcodes.md R330, R334; 14_memory_port.md R367 to R370; notes/assumptions/16.md, 62.md). -/
namespace Sys2Proof.Machine
open Sys2Proof

/-! ### The port after its job (R367, R368) -/

theorem onlyPort_portStart {s t : State} (h : s.onlyPort t) : s.onlyPort t.portStart := by
  obtain ⟨hp, -⟩ := portStart_onlyPort t
  unfold State.onlyPort at h hp ⊢
  refine hp.trans ?_
  generalize t.portStart.mp = m
  rw [h]

theorem onlyReads_onlyPort {s t : State} (h : s.onlyReads t) : s.onlyPort t := by
  unfold State.onlyReads at h
  unfold State.onlyPort
  refine h.trans ?_
  have hmp : t.mp = { s.mp with lines := t.mp.lines, cont0 := t.mp.cont0, cont1 := t.mp.cont1 } := by rw [h]
  have hjobs : t.mp.jobs = s.mp.jobs := by rw [hmp]
  have hrun : t.mp.running = s.mp.running := by rw [hmp]
  rw [hjobs, hrun]

theorem portStart_lines (s : State) : s.portStart.mp.lines = s.mp.lines := by
  have hcont : ∀ (m : MemPort) (d on : Bool), (m.setCont d on).lines = m.lines := by
    intro m d on
    cases d <;> rfl
  unfold State.portStart
  extract_lets run run' d m
  clear_value run'
  cases run' with
  | none => rfl
  | some j => exact hcont m _ _

theorem flashEnd_idle {s : State} (ok : Bool) (h : s.mp.jobs = []) : s.flashEnd ok = s := by
  have hserved : s.served = none := by
    unfold State.served MemPort.nextRead
    rw [h]
    cases s.mp.running <;> simp
  unfold State.flashEnd
  rw [hserved]

/-- What the end of a job that succeeded does, before the port goes on (R330, R334, R368). -/
def State.jobEnded (s : State) (j : FlashJob) : State :=
  match j with
  | .table ref t a => State.tableRead { s with mp := { s.mp with jobs := s.mp.jobs.erase j } } true ref t a
  | .library ref a r b m v => State.libraryRead { s with mp := { s.mp with jobs := s.mp.jobs.erase j } } true ref a r b m v
  | .erase ref _ => s.stageOpEnd true j ref
  | .program ref _ _ => s.stageOpEnd true j ref
  | .verify ref => s.verifyEnd true ref

theorem flashEnd_served {s : State} {j : FlashJob} (h : s.served = some j) : s.flashEnd true = (s.jobEnded j).portStart := by
  unfold State.flashEnd
  rw [h]
  cases j <;> rfl

/-! ### A table read (R330) -/

theorem tableObject_there {s : State} {a : Nat} {es : List Word} (h : s.tableObject a = some es) : s.flashThere a 4108 = true := by
  by_contra hno
  rw [tableObject_absent (by simpa using hno)] at h
  exact nomatch h

/-- A table whose object passes waits for the next boundary, its staging copy gone (R330). -/
theorem tableRead_passes {s : State} {t : Fin 4} {a : Word} {es : List Word} (ho : s.tableObject a.toNat = some es)
    (hall : es.all entryOk = true) (ref : CmdRef) : State.onlyReads { s with
      tables := upd s.tables t fun x => { x with staging := none }
      q := { s.q with snapOps := s.q.snapOps ++ [.installTable t es (some a) ref] } } (s.tableRead true ref t a) := by
  have hreads := fetched_onlyReads (s.modTable t fun x => { x with staging := none }) a.toNat 4108
  have hthere := (onlyReads_flashThere hreads a.toNat 4108).trans (tableObject_there ho)
  have hobj := (onlyReads_tableObject hreads a.toNat).trans ho
  have hread : s.tableRead true ref t a = ((s.modTable t fun x => { x with staging := none }).fetched a.toNat 4108).addSnap
      (.installTable t es (some a) ref) := by
    unfold State.tableRead
    extract_lets s1 s2
    have hs2 : s2 = s1 := if_pos (by rw [show s1.flashThere a.toNat 4108 = true from hthere]; rfl)
    rw [if_pos rfl, hs2, show s1.tableObject a.toNat = some es from hobj]
    exact if_pos hall
  rw [hread]
  generalize (s.modTable t fun x => { x with staging := none }).fetched a.toNat 4108 = u at hreads
  unfold State.onlyReads at hreads ⊢
  rw [hreads]
  rfl

/-! ### An operation of FW_STAGE (R334, R368) -/

/-- With no other operation left, FW_STAGE completes. -/
theorem endStage_last {s : State} (tag : BitVec 16) (q : BitVec 4) (h : s.mp.jobs.any FlashJob.isStage = false) (w : Word) :
    s.endStage (.host tag q) .ok w = { s with
      mp := { s.mp with staging := false, running := none }
      q := s.entered [⟨tag, .ok, 0, 0xFF, q, s.m7pos, w, false⟩] } := by
  have hjobs : s.mp.jobs.filter (fun j => !j.isStage) = s.mp.jobs := by
    refine List.filter_eq_self.2 fun j hj => ?_
    have := List.any_eq_false.1 h j hj
    simpa using this
  unfold State.endStage
  rw [complete_entered, hjobs]
  rfl

/-- What an erase or a program leaves in the flash, from the address on that it starts at. -/
def State.written (s : State) : FlashJob → List Host.Cell
  | .erase _ b => cellErase s.mp.flash (s.bankBase s.inactiveBank + 0x10000 * b) 0x10000
  | .program _ o l => cellWrite s.mp.flash (s.bankBase s.inactiveBank + o) l
  | .table .. => s.mp.flash
  | .library .. => s.mp.flash
  | .verify _ => s.mp.flash

/-- The state in which the flash holds the operation, its lines are gone, and it is no longer waiting. -/
def State.stageOpDone (s : State) (j : FlashJob) : State :=
  { s with mp := { s.mp.dropLines (s.jobSpan j).1 (s.jobSpan j).2 with flash := s.written j, jobs := s.mp.jobs.erase j } }

theorem stageOpEnd_done {s : State} {j : FlashJob} (h : s.flashThere (s.jobSpan j).1 (s.jobSpan j).2 = true) (ref : CmdRef) :
    s.stageOpEnd true j ref = if (s.mp.jobs.erase j).any FlashJob.isStage then s.stageOpDone j
      else (s.stageOpDone j).endStage ref .ok 0 := by
  refine (if_pos ?_).trans ?_
  · exact h
  · cases j <;> rfl

theorem dropLines_mem {m : MemPort} {a k l : Nat} (h : l ∈ (m.dropLines a k).lines) : l ∈ m.lines ∧ rangesMeet (64 * l) 64 a k = false := by
  obtain ⟨hl, hr⟩ := List.mem_filter.1 h
  exact ⟨hl, by simpa using hr⟩

/-- An operation of FW_STAGE that the port has served (R334, R367, R368). -/
theorem flashEnd_stageOp {s : State} {j : FlashJob} {tag : BitVec 16} {q : BitVec 4} (hserved : s.served = some j)
    (hj : s.jobEnded j = s.stageOpEnd true j (.host tag q))
    (h : s.flashThere (s.jobSpan j).1 (s.jobSpan j).2 = true) :
    ∃ t, exec (.flashOperationEnd true) s = .next t ∧ t.mp.jobs = s.mp.jobs.erase j
      ∧ (∀ l ∈ t.mp.lines, l ∈ s.mp.lines ∧ rangesMeet (64 * l) 64 (s.jobSpan j).1 (s.jobSpan j).2 = false)
      ∧ ((s.mp.jobs.erase j).any FlashJob.isStage = true → State.onlyPort { s with mp := { s.mp with flash := s.written j } } t)
      ∧ ((s.mp.jobs.erase j).any FlashJob.isStage = false → State.onlyPort { s with
          mp := { s.mp with flash := s.written j, staging := false }
          q := s.entered [⟨tag, .ok, 0, 0xFF, q, s.m7pos, 0, false⟩] } t) := by
  have hend := stageOpEnd_done h (.host tag q)
  have hlines : ∀ u : State, u.mp.lines = (s.stageOpDone j).mp.lines →
      ∀ l ∈ u.portStart.mp.lines, l ∈ s.mp.lines ∧ rangesMeet (64 * l) 64 (s.jobSpan j).1 (s.jobSpan j).2 = false := by
    intro u hu l hl
    rw [portStart_lines, hu] at hl
    exact dropLines_mem hl
  refine ⟨_, congrArg Host.Outcome.next ((flashEnd_served hserved).trans (congrArg State.portStart hj)), ?_⟩
  cases hany : (s.mp.jobs.erase j).any FlashJob.isStage with
  | true =>
    rw [hany] at hend
    rw [hend]
    exact ⟨(portStart_onlyPort _).2, hlines _ rfl, fun _ => onlyPort_portStart (by exact rfl), fun hf => absurd hf (by decide)⟩
  | false =>
    have hlast := endStage_last tag q (s := s.stageOpDone j) hany 0
    rw [hany] at hend
    rw [hend, if_neg Bool.false_ne_true, hlast]
    exact ⟨(portStart_onlyPort _).2, hlines _ rfl, fun hf => absurd hf (by decide), fun _ => onlyPort_portStart (by exact rfl)⟩

/-! ### A verification (R334, R370) -/

theorem onlyReads_flashError {s u : State} (h : s.onlyReads u) : s.flashError.onlyReads u.flashError := by
  unfold State.onlyReads State.flashError at *
  rw [h]

/-- The port has read what a verification needs: FL_ERR is set at most where the verdict is that a read failed (R370). -/
theorem bankRead_verdict (s : State) (b : Bool) :
    s.onlyReads (s.bankRead b) ∨ s.verifyCode b = 8 ∧ s.flashError.onlyReads (s.bankRead b) := by
  unfold State.bankRead State.verifyCode
  extract_lets a
  cases hh : s.imageHeader b with
  | none => exact .inr ⟨rfl, onlyReads_refl _⟩
  | some h =>
    simp only []
    have hreads := fetched_onlyReads s a 128
    cases hk : clenOk (imageOf h).clen with
    | false =>
      rw [if_pos (c := (!false) = true) rfl]
      exact .inl hreads
    | true =>
      rw [if_neg (c := (!true) = true) (by decide)]
      cases hthere : s.flashThere (a + 128) (imageOf h).clen with
      | true =>
        rw [if_pos (c := true = true) rfl]
        exact .inl (onlyReads_trans hreads (fetched_onlyReads ..))
      | false =>
        have hcode : s.imageCode b (imageOf h) = none := if_neg (by rw [hthere]; exact Bool.false_ne_true)
        rw [if_neg Bool.false_ne_true, hcode]
        exact .inr ⟨if_pos rfl, onlyReads_flashError hreads⟩

/-- The bank whose image a verification reads, with FL_ERR where a read failed (R370, R491). -/
theorem bankRead_judged (s : State) (b : Bool) : State.onlyReads { s with mp := { s.mp with flErr := s.mp.flErr || s.verifyCode b = 8 } }
    (if s.verifyCode b = 8 then (s.bankRead b).flashError else s.bankRead b) := by
  rcases bankRead_verdict s b with h | ⟨h8, h⟩
  · generalize s.bankRead b = u at h
    by_cases h8 : s.verifyCode b = 8
    · rw [if_pos h8, decide_eq_true h8, Bool.or_true]
      exact onlyReads_flashError h
    · rw [if_neg h8, decide_eq_false h8, Bool.or_false]
      exact h
  · generalize s.bankRead b = u at h
    rw [if_pos h8, decide_eq_true h8, Bool.or_true]
    exact onlyReads_flashError (s := s.flashError) h

/-- A verification ends FW_STAGE, every operation of it gone (R334, R370). -/
theorem endStage_entered (s : State) (tag : BitVec 16) (q : BitVec 4) (st : Status) (w : Word) : s.endStage (.host tag q) st w = { s with
    mp := { s.mp with staging := false, running := none, jobs := s.mp.jobs.filter fun j => !j.isStage }
    q := s.entered [⟨tag, st, 0, 0xFF, q, s.m7pos, w, false⟩] } := complete_entered ..

/-- What a verification leaves in the port follows what its reads leave. -/
theorem endStage_onlyPort {s u : State} (h : s.onlyReads u) (tag : BitVec 16) (q : BitVec 4) (st : Status) (w : Word) :
    State.onlyPort { s with mp := { s.mp with staging := false }, q := s.entered [⟨tag, st, 0, 0xFF, q, s.m7pos, w, false⟩] }
      (u.endStage (.host tag q) st w) := by
  rw [endStage_entered]
  unfold State.onlyReads at h
  unfold State.onlyPort
  rw [h]
  rfl

theorem onlyReads_setMark {s u : State} (h : s.onlyReads u) (b : Bool) (m : Option (List Byte × BitVec 32)) :
    State.onlyReads (s.setMark b m) (u.setMark b m) := by
  unfold State.onlyReads at *
  rw [h]
  cases b <;> rfl

/-- The header of the inactive bank's image as the port reads it. -/
def State.stagedImage (s : State) : Image := imageOf ((s.imageHeader s.inactiveBank).getD [])

theorem verifyEnd_passes {s : State} (h : s.verifyCode s.inactiveBank = 0) (ref : CmdRef) : s.verifyEnd true ref
    = ((s.bankRead s.inactiveBank).setMark s.inactiveBank (some (s.stagedImage.digest, s.stagedImage.version))).endStage ref .ok
        s.stagedImage.version := if_pos h

theorem verifyEnd_fails {s : State} (h : s.verifyCode s.inactiveBank ≠ 0) (ref : CmdRef) : s.verifyEnd true ref
    = (if s.verifyCode s.inactiveBank = 8 then (s.bankRead s.inactiveBank).flashError else s.bankRead s.inactiveBank).endStage ref .integrityLost
        (BitVec.ofNat 32 (s.verifyCode s.inactiveBank)) := if_neg h

theorem verifyEnd_jobs (s : State) (tag : BitVec 16) (q : BitVec 4) :
    (s.verifyEnd true (.host tag q)).mp.jobs = s.mp.jobs.filter fun j => !j.isStage := by
  have hread : ∀ u : State, s.onlyReads u ∨ s.flashError.onlyReads u → u.mp.jobs = s.mp.jobs := by
    rintro u (h | h)
    · rw [h]
    · rw [h]
      rfl
  have hbank := hread _ ((bankRead_verdict s s.inactiveBank).imp_right And.right)
  by_cases h : s.verifyCode s.inactiveBank = 0
  · rw [verifyEnd_passes h, endStage_entered]
    exact congrArg (List.filter _) hbank
  · rw [verifyEnd_fails h, endStage_entered]
    refine congrArg (List.filter _) ?_
    split
    · exact hbank
    · exact hbank

/-- A bank that a verification finds faultless has its mark, and FW_STAGE its version (R334, R370). -/
theorem verifyEnd_marks {s : State} (h : s.verifyCode s.inactiveBank = 0) (tag : BitVec 16) (q : BitVec 4) :
    State.onlyPort { s.setMark s.inactiveBank (some (s.stagedImage.digest, s.stagedImage.version)) with
        mp := { s.mp with staging := false }
        q := s.entered [⟨tag, .ok, 0, 0xFF, q, s.m7pos, s.stagedImage.version, false⟩] } (s.verifyEnd true (.host tag q)) := by
  have hreads : s.onlyReads (s.bankRead s.inactiveBank) := by
    rcases bankRead_verdict s s.inactiveBank with hr | ⟨h8, -⟩
    · exact hr
    · rw [h] at h8
      exact absurd h8 (by decide)
  rw [verifyEnd_passes h]
  exact endStage_onlyPort (onlyReads_setMark hreads _ _) tag q .ok _

/-- One that finds a fault gives its code, with FL_ERR where a read failed (R334, R370, R491). -/
theorem verifyEnd_faults {s : State} (h : s.verifyCode s.inactiveBank ≠ 0) (tag : BitVec 16) (q : BitVec 4) :
    State.onlyPort { s with
        mp := { s.mp with staging := false, flErr := s.mp.flErr || s.verifyCode s.inactiveBank = 8 }
        q := s.entered [⟨tag, .integrityLost, 0, 0xFF, q, s.m7pos, BitVec.ofNat 32 (s.verifyCode s.inactiveBank), false⟩] }
      (s.verifyEnd true (.host tag q)) := by
  rw [verifyEnd_fails h]
  exact endStage_onlyPort (bankRead_judged s s.inactiveBank) tag q .integrityLost _

theorem mark_congr {s t : State} (h : t.nvm = s.nvm) (b : Bool) : t.mark b = s.mark b := by
  unfold State.mark
  rw [h]

/-- Settles O27: a page program stores its bytes whatever stood there, and the port ends each job whole, the model's choices
(notes/assumptions/16.md, 62.md). -/
theorem flashOperationsEnd : Obligations.FlashOperationsEnd := by
  refine fun s => ⟨fun ok h => congrArg Host.Outcome.next (flashEnd_idle ok h), fun ref t a es hserved ho hall => ?_,
    fun j tag q a k new hserved hop hthere => ?_, fun tag q hserved => ?_⟩
  · have hread := tableRead_passes (s := { s with mp := { s.mp with jobs := s.mp.jobs.erase (.table ref t a) } }) (t := t) ho hall ref
    refine ⟨_, congrArg Host.Outcome.next (flashEnd_served hserved), ?_, (portStart_onlyPort _).2.trans ?_⟩
    · refine onlyPort_portStart ?_
      show State.onlyPort _ (State.tableRead { s with mp := { s.mp with jobs := s.mp.jobs.erase (.table ref t a) } } true ref t a)
      have hport := onlyReads_onlyPort hread
      unfold State.onlyPort at hport ⊢
      exact hport
    · show (State.tableRead { s with mp := { s.mp with jobs := s.mp.jobs.erase (.table ref t a) } } true ref t a).mp.jobs = _
      rw [hread]
  · rcases hop with ⟨b, rfl, rfl, rfl, rfl⟩ | ⟨o, l, rfl, rfl, rfl, rfl⟩
    · exact flashEnd_stageOp hserved rfl hthere
    · exact flashEnd_stageOp hserved rfl hthere
  · obtain ⟨hport, hjobs⟩ := portStart_onlyPort (s.verifyEnd true (.host tag q))
    refine ⟨_, congrArg Host.Outcome.next (flashEnd_served hserved), hjobs.trans (verifyEnd_jobs s tag q), fun h => ?_, fun h =>
      onlyPort_portStart (verifyEnd_faults h tag q)⟩
    have hmarks := onlyPort_portStart (verifyEnd_marks h tag q)
    change State.onlyPort { s with
          nvm := { s.nvm with
            markA := (s.verifyEnd true (.host tag q)).portStart.nvm.markA, markB := (s.verifyEnd true (.host tag q)).portStart.nvm.markB }
          mp := { s.mp with staging := false }
          q := s.entered [⟨tag, .ok, 0, 0xFF, q, s.m7pos, s.stagedImage.version, false⟩] } (s.verifyEnd true (.host tag q)).portStart
      ∧ (s.verifyEnd true (.host tag q)).portStart.mark s.inactiveBank = _
      ∧ (s.verifyEnd true (.host tag q)).portStart.mark (!s.inactiveBank) = _
    generalize (s.verifyEnd true (.host tag q)).portStart = t at hmarks
    have hnvm : t.nvm = (s.setMark s.inactiveBank (some (s.stagedImage.digest, s.stagedImage.version))).nvm := by rw [hmarks]
    refine ⟨?_, ?_, ?_⟩
    · rw [hnvm]
      rw [setMark_frame] at hmarks
      exact hmarks
    · exact (mark_congr hnvm _).trans (setMark_mark ..)
    · exact (mark_congr hnvm _).trans (setMark_mark_other ..)

end Sys2Proof.Machine
end

section
/-! PROOF. FW_SWITCH, the code load and the banks tried at boot (12_opcodes.md R335; 16_integrity.md R422, R423; 14_memory_port.md R371;
notes/assumptions/64.md). -/
namespace Sys2Proof.Machine
open Sys2Proof

/-! ### Side-band commands that wait (R359) -/

theorem times_fixed {α : Type} {f : α → α} {x : α} (h : f x = x) (n : Nat) : times f n x = x := by
  induction n with
  | zero => rfl
  | succ n ih => rw [times, h, ih]

/-- With none waiting, or while no command starts, no side-band command takes its turn (R359, R420). -/
theorem sbDrain_idle {s : State} (h : s.sb.waiting = [] ∨ s.dispatching = false) : s.sbDrain = s := by
  refine times_fixed ?_ _
  unfold State.sbDrainOne
  split
  · rfl
  next seq c rest hw =>
    have hd : s.dispatching = false := h.resolve_left (by rw [hw]; exact List.cons_ne_nil _ _)
    refine if_pos ?_
    unfold State.sbTurn
    rw [hd]
    rfl

theorem not_dispatching {s : State} (h : s.dev.suspended = true) : s.dispatching = false := by
  unfold State.dispatching
  rw [h]
  simp

/-! ### FW_SWITCH (R335, R422) -/

theorem exec_fwSwitch {s : State} {core : CoreId} {p : Packet} (h : s.Admits core 0x41 p) (hkey : uAt p.params 0 2 = 0xC3A5)
    (hres : uAt p.params 2 2 = 0) (hcfg : s.mp.cfgErr = false) (hmark : (s.mark s.inactiveBank).isSome = true) (hsw : s.mp.switch = none) :
    exec (.fwSwitch core) s = .next
      (State.quiesce { s.started p with mp := { s.mp with switch := some (.waitQuiescent p.ref), boot := [] } }) := by
  have hnone : (s.mark s.inactiveBank).isNone = false := by
    cases hm : s.mark s.inactiveBank with
    | none => rw [hm] at hmark; exact nomatch hmark
    | some m => rfl
  have hpass : passes [badKey p.params 0, reserved p.params 2 2,
      badState (s.mp.cfgErr || (s.mark s.inactiveBank).isNone || s.mp.switch.isSome)] := by
    unfold passes
    simp [firstFailure_cons, firstFailure_nil, badKey, reserved, badField, badState, hkey, hres, hcfg, hnone, hsw]
  have hb := guarded_passes (s := s.started p) (p := p) (by exact hpass) fun s =>
    State.quiesce { s with mp := { s.mp with switch := some (.waitQuiescent p.ref), boot := [] } }
  exact (exec_row fwSwitchBody rfl h).trans (congrArg Host.Outcome.next hb)

/-! ### FW_CODE_LOAD_END (R422, R423) -/

/-- The code of a bank's image matches its digest. -/
def State.bankCodeOk (s : State) (b : Bool) : Bool :=
  match s.imageHeader b with
  | some h => s.codeOk b (imageOf h)
  | none => false

theorem codeLoadEnd_loading {s : State} {ref : CmdRef} {b : Bool} (h : s.mp.switch = some (.loading ref b)) :
    s.codeLoadEnd = if s.bankCodeOk b then { s.bankRead b with mp := { (s.bankRead b).mp with switch := some (.waitBoundary ref b) } }
      else (s.bankRead b).codeFailed ref b := by
  unfold State.codeLoadEnd
  rw [h]
  rfl

/-- A bank whose code matches its digest can be read (R365, R370). -/
theorem bankRead_codeOk {s : State} {b : Bool} (h : s.bankCodeOk b = true) : s.onlyReads (s.bankRead b) := by
  unfold State.bankCodeOk at h
  unfold State.bankRead
  extract_lets a
  cases hh : s.imageHeader b with
  | none => rw [hh] at h; exact nomatch h
  | some x =>
    rw [hh] at h
    obtain ⟨hk, hc⟩ := Bool.and_eq_true_iff.1 h
    have hthere : s.flashThere (a + 128) (imageOf x).clen = true := by
      by_contra hno
      have hnone : s.imageCode b (imageOf x) = none := if_neg hno
      rw [hnone] at hc
      exact nomatch hc
    simp only []
    rw [if_neg (by rw [hk]; decide), if_pos hthere]
    exact onlyReads_trans (fetched_onlyReads s a 128) (fetched_onlyReads ..)

/-- What a bank's reads leave in any case: the port's buffer and FL_ERR. -/
theorem bankRead_frame (s : State) (b : Bool) : s.bankRead b = { s with mp := { s.mp with
    flErr := (s.bankRead b).mp.flErr, lines := (s.bankRead b).mp.lines, cont0 := (s.bankRead b).mp.cont0, cont1 := (s.bankRead b).mp.cont1 } } := by
  rcases bankRead_verdict s b with h | ⟨-, h⟩
  · have hfl : (s.bankRead b).mp.flErr = s.mp.flErr := by rw [h]
    rw [hfl]
    exact h
  · have hfl : (s.bankRead b).mp.flErr = true := by
      rw [h]
      rfl
    rw [hfl]
    exact h

/-- A failed bank loses its mark, with the log entry of its version; where the code of the previous bank is gone too, ROM runs (R423). -/
def State.bankDropped (s : State) (b : Bool) : State :=
  let s1 := (s.setMark b none).shale 3 3 255 (s.bankVersion b)
  let back := s.bankCodeOk s.mp.runBank
  if s.mp.romOnly || back then s1 else { s1 with mp := { s1.mp with romOnly := true, version := 0 } }

theorem bankDropped_frame (s : State) (b : Bool) : s.bankDropped b = { s with
    dev := { s.dev with shalePend := (s.bankDropped b).dev.shalePend, shaleDropped := (s.bankDropped b).dev.shaleDropped }
    nvm := (s.setMark b none).nvm
    mp := { s.mp with romOnly := (s.bankDropped b).mp.romOnly, version := (s.bankDropped b).mp.version } } := by
  by_cases hc : (s.mp.romOnly || s.bankCodeOk s.mp.runBank) = true
  · have he : s.bankDropped b = (s.setMark b none).shale 3 3 255 (s.bankVersion b) := if_pos hc
    rw [he, shale_frame]
    rfl
  · have he : s.bankDropped b = { (s.setMark b none).shale 3 3 255 (s.bankVersion b) with
        mp := { ((s.setMark b none).shale 3 3 255 (s.bankVersion b)).mp with romOnly := true, version := 0 } } := if_neg hc
    rw [he, shale_frame]
    rfl

theorem codeFailed_dropped (s : State) (ref : CmdRef) (b : Bool) : s.codeFailed ref b =
    (State.complete { s.bankDropped b with mp := { (s.bankDropped b).mp with switch := none } } ref .rejectState 0 0xFF s.m7pos 5).resume := rfl

/-- The end of a firmware switch whose code does not match (R423). -/
theorem codeFailed_ends {s : State} (hs : s.dev.suspended = true) (hh : s.dev.safeHold = false) (tag : BitVec 16) (q : BitVec 4) (b : Bool) :
    s.codeFailed (.host tag q) b = { s.bankDropped b with
      dev := { (s.bankDropped b).dev with suspended := false, wdSuspended := false }
      mp := { (s.bankDropped b).mp with switch := none }
      q := ({ s.q with ring := s.q.ring ++ (s.q.staged ++ [⟨tag, .rejectState, 0, 0xFF, q, s.m7pos, 5, false⟩]), staged := [] } : Queues).request } := by
  have hframe := bankDropped_frame s b
  have hq : (s.bankDropped b).q = s.q := by rw [hframe]
  have hsusp : (s.bankDropped b).dev.suspended = true := by rw [hframe]; exact hs
  have hhold : (s.bankDropped b).dev.safeHold = false := by rw [hframe]; exact hh
  rw [codeFailed_dropped, complete_entered]
  unfold State.entered State.resume
  simp only [hhold, hsusp, hq]
  rfl

theorem codeLoadEnd_fails {s : State} {tag : BitVec 16} {q : BitVec 4} {b : Bool} (h : s.mp.switch = some (.loading (.host tag q) b))
    (hs : s.dev.suspended = true) (hh : s.dev.safeHold = false) (hbad : s.bankCodeOk b = false) :
    ∃ t, s.codeLoadEnd = t ∧ t.mark b = none ∧ t.mark (!b) = s.mark (!b) ∧ t.mp.switch = none
      ∧ t.dev.suspended = false ∧ t.dev.wdSuspended = false ∧ t.q.staged = []
      ∧ t.q.ring = s.q.ring ++ s.q.staged ++ [⟨tag, .rejectState, 0, 0xFF, q, s.m7pos, 5, false⟩]
      ∧ t.axes = s.axes ∧ t.legs = s.legs ∧ t.groups = s.groups ∧ t.tb = s.tb ∧ t.hp = s.hp ∧ t.q.packets = s.q.packets
      ∧ t.sb = s.sb := by
  have hend : s.codeLoadEnd = (s.bankRead b).codeFailed (.host tag q) b :=
    (codeLoadEnd_loading h).trans (if_neg (by rw [hbad]; exact Bool.false_ne_true))
  have hread := bankRead_frame s b
  rw [hread, codeFailed_ends (by exact hs) (by exact hh)] at hend
  refine ⟨_, hend, ?_⟩
  generalize (s.bankRead b).mp = m
  have hframe := bankDropped_frame ({ s with mp := { s.mp with flErr := m.flErr, lines := m.lines, cont0 := m.cont0, cont1 := m.cont1 } }) b
  generalize State.bankDropped { s with mp := { s.mp with flErr := m.flErr, lines := m.lines, cont0 := m.cont0, cont1 := m.cont1 } } b = u at hframe
  rw [hframe]
  refine ⟨?_, ?_, rfl, rfl, rfl, rfl, (List.append_assoc ..).symm, rfl, rfl, rfl, rfl, rfl, rfl, rfl⟩
  · exact (mark_congr rfl b).trans (setMark_mark s b none)
  · exact (mark_congr rfl (!b)).trans (setMark_mark_other s b none)

/-! ### BOOT_BANK_TRY (R371) -/

/-- An image is accepted at boot only where it verifies (R370, R371). -/
theorem bootImage_verified {s : State} {b : Bool} (h : (s.bootImage b).isSome = true) : s.verifyCode b = 0 := by
  unfold State.bootImage at h
  cases hh : s.imageHeader b with
  | none => rw [hh] at h; exact nomatch h
  | some x =>
    rw [hh] at h
    by_contra hv
    have hno : ¬ (decide (s.mark b = some ((imageOf x).digest, (imageOf x).version)) && decide (s.verifyCode b = 0)) = true := by
      simp [hv]
    simp only [] at h
    rw [if_neg hno] at h
    exact nomatch h

theorem tryBank_quiet {s : State} {b : Bool} {rest : List Bool} (hb : s.mp.boot = b :: rest) (hr : s.dev.ready = true) (hsw : s.mp.switch = none)
    (hs : s.dev.suspended = false) (hq : s.quiet = true) :
    s.tryBank = if (s.bootImage b).isSome
      then ({ s.bankRead b with mp := { (s.bankRead b).mp with boot := [] } } : State).suspend (.waitBoundary .internal b)
      else ({ s.bankRead b with mp := { (s.bankRead b).mp with boot := rest } } : State).shale 3 2 255 (s.bankVersion b) := by
  have hgo : (s.dev.ready && s.mp.switch.isNone && !s.dev.suspended && s.quiet) = true := by rw [hr, hsw, hs, hq]; rfl
  unfold State.tryBank
  rw [hb]
  simp only []
  rw [if_pos hgo]
  cases s.bootImage b <;> rfl

/-- Settles O29: an accepted FW_SWITCH ends the trying of banks, which goes on only in READY at a quiescent moment, the model's choices
(notes/assumptions/64.md). -/
theorem firmwareSwitchesAtAQuiescentPoint : Obligations.FirmwareSwitchesAtAQuiescentPoint := by
  refine ⟨fun s core p h hkey hres hcfg hmark hsw => ?_, fun s tag q b hsw hs => ⟨fun x hx hok => ?_, fun hbad hh hw => ?_⟩,
    fun s b rest hb hr hsw hs hq => ⟨fun hok => ?_, fun hno => ?_⟩⟩
  · have hexec := exec_fwSwitch h hkey hres hcfg hmark hsw
    have hs : s.dev.suspended = false := h.1.2.1
    refine ⟨fun hq => hexec.trans (congrArg Host.Outcome.next ((if_pos ?_).trans rfl)), fun hq =>
      hexec.trans (congrArg Host.Outcome.next (if_neg ?_))⟩
    · exact Bool.and_eq_true_iff.2 ⟨hq, by rw [Bool.not_eq_true']; exact hs⟩
    · intro hgo
      exact Bool.false_ne_true (hq.symm.trans (Bool.and_eq_true_iff.1 hgo).1)
  · have hcode : s.bankCodeOk b = true := by
      unfold State.bankCodeOk
      rw [hx]
      exact hok
    have hend := (codeLoadEnd_loading hsw).trans (if_pos hcode)
    have hreads := bankRead_codeOk hcode
    generalize s.bankRead b = u at hreads hend
    refine ⟨_, congrArg Host.Outcome.next ((congrArg State.sbDrain hend).trans (sbDrain_idle (.inr (not_dispatching ?_)))), ?_⟩
    · rw [hreads]
      exact hs
    · unfold State.onlyReads at *
      rw [hreads]
  · have hcode : s.bankCodeOk b = false := by
      unfold State.bankCodeOk
      cases hx : s.imageHeader b with
      | none => rfl
      | some x => exact hbad x hx
    obtain ⟨t, hend, h1, h2, h3, h4, h5, h6, h7, h8, h9, h10, h11, h12, h13, hsb⟩ := codeLoadEnd_fails hsw hs hh hcode
    refine ⟨t, congrArg Host.Outcome.next ((congrArg State.sbDrain hend).trans (sbDrain_idle (.inl (by rw [hsb, hw])))), h1, h2, h3, h4, h5, h6,
      h7, h8, h9, h10, h11, h12, h13⟩
  · have hreads : s.onlyReads (s.bankRead b) := by
      rcases bankRead_verdict s b with hread | ⟨h8, -⟩
      · exact hread
      · rw [bootImage_verified hok] at h8
        exact absurd h8 (by decide)
    have htry := (tryBank_quiet hb hr hsw hs hq).trans (if_pos hok)
    generalize s.bankRead b = u at hreads htry
    refine ⟨_, congrArg Host.Outcome.next htry, ?_⟩
    unfold State.onlyReads State.suspend at *
    rw [hreads]
  · have htry := (tryBank_quiet hb hr hsw hs hq).trans (if_neg (by rw [hno]; exact Bool.false_ne_true))
    have hread := bankRead_frame s b
    generalize s.bankRead b = u at hread htry
    rw [shale_frame] at htry
    refine ⟨_, congrArg Host.Outcome.next htry, ?_⟩
    generalize State.shale { u with mp := { u.mp with boot := rest } } 3 2 255 (s.bankVersion b) = v
    unfold State.onlyReads
    rw [hread]

end Sys2Proof.Machine
end

section
/-! PROOF. The ends of NVM operations and the Shale log (15_reset_lifecycle.md R384, R389; 16_integrity.md R424, R425;
19_registers_device.md R480; notes/assumptions/73.md, 96.md). -/
namespace Sys2Proof.Machine
open Sys2Proof

theorem shale_waits {s : State} (h : s.dev.shalePend.length < 64) (cls code src : Nat) (data : BitVec 24) :
    s.shale cls code src data = { s with dev := { s.dev with shalePend := s.dev.shalePend ++
      [⟨BitVec.ofNat 8 cls, BitVec.ofNat 8 code, 0, s.nvm.pohSaved, BitVec.ofNat 8 src, s.tb.frame.setWidth 32, data, false⟩] } } := if_pos h

theorem shale_counted {s : State} (h : 64 ≤ s.dev.shalePend.length) (cls code src : Nat) (data : BitVec 24) :
    s.shale cls code src data = { s with dev := { s.dev with shaleDropped := s.dev.shaleDropped + 1 } } := if_neg (Nat.not_lt.2 h)

section
variable {s : State}

theorem exec_nvmProgramEnd (h : s.sb.vdd = true ∨ s.nvm.pulse = true) (j : NvmJob) (f : Bool) :
    exec (.nvmProgramEnd j f) s = .next (s.nvmEnd j f) := by
  have hgo : (s.marginOk || s.nvm.pulse) = true := by simpa [State.marginOk] using h
  exact congrArg Host.Outcome.next (if_pos hgo)

theorem exec_nvmProgramEnd_unpowered (hv : s.sb.vdd = false) (hp : s.nvm.pulse = false) (j : NvmJob) (f : Bool) :
    exec (.nvmProgramEnd j f) s = .next s := by
  have hno : ¬ (s.marginOk || s.nvm.pulse) = true := by simp [State.marginOk, hv, hp]
  exact congrArg Host.Outcome.next (if_neg hno)

/-- Nothing ends where nothing is under way, whatever VDD is. -/
theorem exec_nvmProgramEnd_idle {j : NvmJob} {f : Bool} (h : s.nvmEnd j f = s) : exec (.nvmProgramEnd j f) s = .next s := by
  refine congrArg Host.Outcome.next ?_
  split
  · exact h
  · rfl

theorem bankResult_unasked (h : s.sb.pendBank = false) (f : Bool) : s.bankResult f = s := if_neg (by rw [h]; exact Bool.false_ne_true)

/-- Both copies hold the record of an option write that verified (R389). -/
theorem optionsEnd_verified {r : Vector Word 64} (hr : s.dev.optWrite = some r) (hb : s.sb.pendBank = false) : s.optionsEnd false = { s with
    dev := { s.dev with optBusy := false, optWrite := none }
    nvm := { s.nvm with copyA := some r, copyB := some r, pulse := s.sb.vdd && s.dev.fuseSeq.isSome } } := by
  unfold State.optionsEnd
  rw [hr]
  exact bankResult_unasked (s := { s with
    dev := { s.dev with optBusy := false, optWrite := none }
    nvm := { s.nvm with copyA := some r, copyB := some r, pulse := s.sb.vdd && s.dev.fuseSeq.isSome } }) hb false

/-- What the two copies of the options hold after a write whose verify failed: which of them fails is free (notes/assumptions/9.md). -/
def State.cutCopies (s : State) (r : Vector Word 64) : Nvm :=
  if s.freeVal.1 % 2 = 0 then { s.nvm with copyB := none } else { s.nvm with copyB := some r, copyA := none }

/-- The state in which a failed verify has left one copy failing, with WR_FAIL and its log entry (R389, R480). -/
def State.optionsCut (s : State) (r : Vector Word 64) : State :=
  State.shale { s with
    nvm := s.cutCopies r
    dev := { s.dev with optBusy := false, optWrite := none, wrFail := true, free := s.dev.free + 1 } } 10 5 255 (Config.shaleData 10)

theorem optionsEnd_failed {r : Vector Word 64} (hr : s.dev.optWrite = some r) (hb : s.sb.pendBank = false) :
    s.optionsEnd true = (s.optionsCut r).settlePulse := by
  unfold State.optionsEnd
  rw [hr]
  exact bankResult_unasked (s := (s.optionsCut r).settlePulse) (by unfold State.optionsCut State.settlePulse; rw [shale_frame]; exact hb) true

/-- The oldest entry stands in front of the log under the next SEQ (R425). -/
theorem shaleEnd_written {e : ShaleEntry} {rest : List ShaleEntry} (he : s.dev.shalePend = e :: rest) (hbroken : e.broken = false)
    (hdrop : s.dev.shaleDropped = 0) (hlen : s.nvm.shale.length ≤ 3968) : s.shaleEnd = { s with
      dev := { s.dev with shalePend := rest }
      nvm := { s.nvm with shale := { e with seq := s.nvm.shaleSeq } :: s.nvm.shale
                          shalePos := (s.nvm.shalePos + 1) % 4096, shaleSeq := s.nvm.shaleSeq + 1 }
      sb := { s.sb with causes := s.sb.causes ||| 2, announced := s.sb.announced &&& ~~~2 } } := by
  unfold State.shaleEnd
  rw [he]
  refine (if_pos (show _ from hdrop)).trans ?_
  have hput : s.nvm.putShale e = { s.nvm with
      shale := { e with seq := s.nvm.shaleSeq } :: s.nvm.shale
      shalePos := (s.nvm.shalePos + 1) % 4096, shaleSeq := s.nvm.shaleSeq + 1 } := by
    unfold Nvm.putShale
    rw [List.take_of_length_le hlen, ite_self, hbroken]
    rfl
  unfold State.writeShale
  rw [show ({ s with dev := { s.dev with shalePend := rest } } : State).nvm.putShale e = _ from hput]
  rfl

end

/-- Settles O32: the pulses start and end while VDD is valid (notes/assumptions/96.md), and an entry takes its SEQ when it is written
(notes/assumptions/73.md), the model's choices; the hour that POH_SAVE saves is R425's. -/
theorem nvmWritesAndShaleEntriesEnd : Obligations.NvmWritesAndShaleEntriesEnd := by
  refine fun s => ⟨fun hv hp j f => exec_nvmProgramEnd_unpowered hv hp j f, fun cls code src data =>
      ⟨fun h => shale_waits h .., fun h => shale_counted h ..⟩, fun r hr hb hv => ⟨?_, ?_⟩, fun f e rest he hbroken hdrop hlen hv => ?_,
    fun f => ⟨fun h => exec_nvmProgramEnd_idle ?_, fun h => exec_nvmProgramEnd_idle ?_, fun h => exec_nvmProgramEnd_idle ?_⟩, rfl⟩
  · exact (exec_nvmProgramEnd hv .options false).trans (congrArg Host.Outcome.next (optionsEnd_verified hr hb))
  · have hrow := (exec_nvmProgramEnd hv .options true).trans (congrArg Host.Outcome.next (optionsEnd_failed hr hb))
    have hcut : (s.cutCopies r = { s.nvm with copyB := none }) ∨ s.cutCopies r = { s.nvm with copyB := some r, copyA := none } := by
      unfold State.cutCopies
      split
      · exact .inl rfl
      · exact .inr rfl
    unfold State.optionsCut State.settlePulse at hrow
    rw [shale_frame] at hrow
    refine ⟨_, hrow, rfl, rfl, rfl, rfl, ?_, ?_⟩
    · rcases hcut with hc | hc
      · exact .inl (by rw [hc]; exact ⟨rfl, rfl⟩)
      · exact .inr (by rw [hc]; exact ⟨rfl, rfl⟩)
    · rcases hcut with hc | hc <;> rw [hc] <;> simp [State.marginOk]
  · exact (exec_nvmProgramEnd hv .shale f).trans (congrArg Host.Outcome.next (shaleEnd_written he hbroken hdrop hlen))
  · show s.optionsEnd f = s
    unfold State.optionsEnd
    rw [h]
  · show s.fuseEnd = s
    unfold State.fuseEnd
    rw [h]
  · show s.shaleEnd = s
    unfold State.shaleEnd
    rw [h]

end Sys2Proof.Machine
end

section
/-! PROOF. ENABLE and DISABLE (12_opcodes.md R324, R325, R548; 11_queues_packets.md R304; notes/assumptions/52.md, 56.md). -/
namespace Sys2Proof.Machine
open Sys2Proof

/-! ### A command of one axis whose axis ends (R304) -/

theorem axByte_of {b : Byte} {n : AxisId} (h : axisOfByte b = some n) : axByte n = b := by
  unfold axisOfByte at h
  split at h
  next hlt =>
    rw [← Option.some.inj h]
    exact BitVec.ofNat_toNat 8 b |>.trans (BitVec.setWidth_eq b)
  · exact nomatch h

theorem axByte_lt (n : AxisId) : (axByte n).toNat < 48 := by
  have h : (axByte n).toNat = n.val := by
    unfold axByte
    rw [BitVec.toNat_ofNat]
    omega
  rw [h]
  exact n.isLt

/-- The action of one axis that has ended completes with its outcome (R304). -/
theorem finishAction_single (s : State) (id : Nat) (tag : BitVec 16) (q : BitVec 4) (n : AxisId) {kind : ActKind} {st : Status} {w : Word}
    (hw : st = .ok → kind ≠ .diagnose → w = 0) : s.finishAction ⟨id, .host tag q, axByte n, kind, [], [⟨n, st, w, none⟩], 0, 0⟩ =
      { s with
        q := ({ s with q := { s.q with actions := s.q.actions.filter fun a => a.id ≠ id } } : State).entered
          [⟨tag, st, 0, axByte n, q, s.axMpos n, w, false⟩] } := by
  have hlt := axByte_lt n
  unfold State.finishAction
  by_cases hok : st = .ok
  · by_cases hd : kind = .diagnose
    · subst hok hd
      simp only [hlt, if_true, complete_entered]
      simp [State.entered]
    · have hw0 : w = 0 := hw hok hd
      subst hok hw0
      cases kind <;> simp_all [complete_entered, State.entered]
  · simp [hok, hlt, complete_entered, State.entered]

/-- An action replaced by another of its number is gone with it. -/
theorem filter_replaced (l : List Action) {a' : Action} {act : Nat} (ha : a'.id = act) :
    (l.map fun b => if b.id = act then a' else b).filter (fun b => b.id ≠ act) = l.filter fun b => b.id ≠ act := by
  induction l with
  | nil => rfl
  | cons b l ih =>
    rw [List.map_cons]
    by_cases hb : b.id = act
    · rw [if_pos hb, List.filter_cons_of_neg (by simpa using ha), ih, List.filter_cons_of_neg (by simpa using hb)]
    · rw [if_neg hb, List.filter_cons_of_pos (by simpa using hb), ih, List.filter_cons_of_pos (by simpa using hb)]

/-- An axis that a command waits for alone ends, and the command completes with it (R304). -/
theorem actionAxis_alone {s : State} {act : Nat} {tag : BitVec 16} {q : BitVec 4} {n : AxisId} {kind : ActKind} {st : Status} {w : Word}
    (h : s.WaitsFor act kind n tag q) (hw : st = .ok → kind ≠ .diagnose → w = 0) :
    s.actionAxis act ⟨n, st, w, none⟩ 0 false = { s with q := s.actionDone act n tag q st w } := by
  have hfind : s.q.actions.find? (fun a => a.id = act) = some ⟨act, .host tag q, axByte n, kind, [n], [], 0, 0⟩ := by
    rw [← List.head?_filter, h]
    rfl
  unfold State.actionAxis
  rw [hfind]
  simp only [List.contains_cons, beq_self_eq_true, Bool.true_or, if_true, List.erase_cons_head, List.isEmpty_nil, List.nil_append]
  refine (finishAction_single _ act tag q n hw).trans ?_
  have hgone := filter_replaced (s.q.actions) (a' := ⟨act, .host tag q, axByte n, kind, [], [⟨n, st, w, none⟩], 0, 0⟩) (act := act) rfl
  exact congrArg (fun l => ({ s with q := State.entered { s with q := { s.q with actions := l } } [⟨tag, st, 0, axByte n, q, s.axMpos n, w, false⟩] } : State))
    hgone

/-- A command of one axis that ends as it starts is answered at once, one action number used up. -/
theorem actionAxis_started {s : State} {p : Packet} {core : CoreId} {opc : Nat} {n : AxisId} (hfresh : s.ActionsFresh) (h : s.Admits core opc p)
    (hn : axisOfByte p.axis = some n) {kind : ActKind} {st : Status} {w : Word} (hw : st = .ok → kind ≠ .diagnose → w = 0) :
    ((s.started p).addAction p.ref p.axis kind [n]).actionAxis s.q.nextAct ⟨n, st, w, none⟩ 0 false = s.answeredAct p st p.axis w := by
  have hb := axByte_of hn
  have hold : s.q.actions.filter (fun a => a.id = s.q.nextAct) = [] :=
    List.filter_eq_nil_iff.2 fun a ha => by simpa using (hfresh a ha).ne
  have hkeep : s.q.actions.filter (fun a => a.id ≠ s.q.nextAct) = s.q.actions :=
    List.filter_eq_self.2 fun a ha => by simpa using (hfresh a ha).ne
  have hwait : ((s.started p).addAction p.ref p.axis kind [n]).WaitsFor s.q.nextAct kind n p.tag (BitVec.ofNat 4 p.queue.val) := by
    show (s.q.actions ++ ([⟨s.q.nextAct, p.ref, p.axis, kind, [n], [], 0, 0⟩] : List Action)).filter (fun a => a.id = s.q.nextAct) = _
    rw [List.filter_append, hold, hb]
    simp [Packet.ref]
  have hs : s.dev.suspended = false := Admits.susp h
  have hh : s.dev.safeHold = false := Admits.hold h
  have hpos : s.packetMpos p = s.axMpos n := by
    unfold State.packetMpos
    rw [hn]
  rw [actionAxis_alone hwait hw]
  unfold State.actionDone
  rw [entered_ring (by exact hs) (by exact hh) (List.cons_ne_nil _ _)]
  unfold State.answeredAct State.answered State.reply
  rw [hb, hpos]
  have hgone : (s.q.actions ++ ([⟨s.q.nextAct, p.ref, p.axis, kind, [n], [], 0, 0⟩] : List Action)).filter (fun a => a.id ≠ s.q.nextAct)
      = s.q.actions := by
    rw [List.filter_append, hkeep]
    simp
  exact congrArg (fun l => ({ s with q := ({ s.q with
    packets := s.q.packets.filter fun o => o.seq ≠ p.seq
    ring := s.q.ring ++ [⟨p.tag, st, 0, p.axis, BitVec.ofNat 4 p.queue.val, s.axMpos n, w, false⟩]
    actions := l, nextAct := s.q.nextAct + 1 } : Queues).request } : State)) hgone

/-! ### ENABLE (R325) -/

/-- What ENABLE asks of an axis does not look at another axis that waits to be energised. -/
theorem enableChecks_other {s : State} {n k : AxisId} (h : k ≠ n) (f : AxisDrive → AxisDrive) :
    ((s.modDrv n f).addSnap (.energise n)).enableChecks k = s.enableChecks k := by
  have hax : ((s.modDrv n f).addSnap (.energise n)).ax k = s.ax k := modDrv_ax_other _ _ _ _ h
  have hdis : ((s.modDrv n f).addSnap (.energise n)).disablingNow k = s.disablingNow k := by
    unfold State.disablingNow
    rw [hax]
    simp [State.addSnap]
  simp only [State.enableChecks, State.enableBarred, hax, hdis]
  rfl

theorem startEnable_passes {s : State} {n : AxisId} (h : passes (s.enableChecks n)) (h1 : (s.ax n).drv.enabled = false)
    (h2 : (s.ax n).drv.enabling = false) (act : Nat) :
    s.startEnable n act = (s.modDrv n fun d => { d with enabling := true }).addSnap (.energise n) := by
  unfold State.startEnable
  rw [show firstFailure (s.enableChecks n) = none from h]
  simp only [h1, h2]
  rfl

/-- Every axis of a list that passes is marked, and its energising joins what waits for the boundary (R325). -/
theorem forAll_startEnable (act : Nat) {l : List AxisId} (hl : l.Nodup) (s : State)
    (h : ∀ n ∈ l, passes (s.enableChecks n) ∧ (s.ax n).drv.enabled = false ∧ (s.ax n).drv.enabling = false) :
    ∃ t, s.forAll l (fun s n => s.startEnable n act) = t
      ∧ t = { s with axes := t.axes, q := { s.q with snapOps := s.q.snapOps ++ l.map .energise } }
      ∧ (∀ n ∈ l, t.ax n = { s.ax n with drv := { (s.ax n).drv with enabling := true } }) ∧ ∀ n, n ∉ l → t.ax n = s.ax n := by
  induction l generalizing s with
  | nil => exact ⟨s, rfl, by simp, fun n hn => absurd hn List.not_mem_nil, fun _ _ => rfl⟩
  | cons a l ih =>
    obtain ⟨ha, hl⟩ := List.nodup_cons.1 hl
    obtain ⟨hp, h1, h2⟩ := h a List.mem_cons_self
    have hother : ∀ n, n ≠ a → ((s.modDrv a fun d => { d with enabling := true }).addSnap (.energise a)).ax n = s.ax n :=
      fun n hn => modDrv_ax_other s a n (fun d => { d with enabling := true }) hn
    obtain ⟨t, ht, hframe, hin, hout⟩ := ih hl ((s.modDrv a fun d => { d with enabling := true }).addSnap (.energise a)) fun n hn => by
      have hna : n ≠ a := fun e => ha (e ▸ hn)
      rw [enableChecks_other hna, hother n hna]
      exact h n (List.mem_cons_of_mem _ hn)
    refine ⟨t, by rw [forAll_cons, startEnable_passes hp h1 h2, ht], hframe.trans ?_, fun n hn => ?_, fun n hn => ?_⟩
    · simp [State.addSnap, State.modDrv, State.modAxis, List.append_assoc]
    · rcases List.mem_cons.1 hn with rfl | hn
      · rw [hout n ha]
        exact modDrv_ax_self s n fun d => { d with enabling := true }
      · rw [hin n hn, hother n fun e => ha (e ▸ hn)]
    · rw [hout n (fun hm => hn (List.mem_cons_of_mem _ hm)), hother n fun e => hn (e ▸ List.mem_cons_self)]

theorem enableChecks_excluded {s : State} {n : AxisId} (h : passes (s.enableChecks n)) :
    s.dev.safeAct = false ∧ (s.grp (groupOf n)).supplyHold = false ∧ (s.grp (groupOf n)).thermSd = false
      ∧ (s.ax n).prot.latched = false ∧ (s.ax n).prot.shareErr = false ∧ (s.ax n).prot.diagFail = false ∧ s.dev.safeHold = false := by
  have hall := passes_iff.1 h
  simp only [State.enableChecks, List.forall_mem_cons, Bool.or_eq_false_iff] at hall
  obtain ⟨hsafe, hsupply, htherm, ⟨hlatch, hshare⟩, hbar, -⟩ := hall
  simp only [badState, State.enableBarred, Bool.or_eq_false_iff] at hbar
  obtain ⟨⟨⟨⟨⟨⟨⟨⟨⟨⟨-, -⟩, -⟩, hdiag⟩, -⟩, -⟩, -⟩, hhold⟩, -⟩, -⟩, -⟩ := hbar
  exact ⟨hsafe, hsupply, htherm, hlatch, hshare, hdiag, hhold⟩

/-- No condition of ENABLE answers OK. -/
theorem enableChecks_status {s : State} {n : AxisId} {st : Status} {w : Word} (h : firstFailure (s.enableChecks n) = some (st, w)) : st ≠ .ok := by
  obtain ⟨c, hc, he⟩ := Option.map_eq_some_iff.1 h
  have hmem := List.mem_of_find?_eq_some hc
  have hst : c.2.1 = st := by rw [he]
  rw [← hst]
  simp only [State.enableChecks, State.supplyCheck, State.thermalCheck, badState, List.mem_cons, List.not_mem_nil, or_false] at hmem
  rcases hmem with rfl | rfl | rfl | rfl | rfl <;> exact Status.noConfusion

/-! ### The boundary at which an axis is energised (R23, R325) -/

/-- A leg at the energising of its axis: EN rises unless a latch of the interlock holds it (R182, R257). -/
def Leg.energised (l : Leg) (ok : Bool) : Leg :=
  { l with en := ok && !l.intlk && !l.intlkHold, enNew := ok && !l.intlk && !l.intlkHold && !l.en, tripped := false }

theorem forAll_energised (ok : Bool) (l : List LegId) (s : State) :
    (∀ m ∈ l, ((s.forAll l fun s m => s.modLeg m fun x => x.energised ok).leg m).en = (ok && !(s.leg m).intlk && !(s.leg m).intlkHold))
      ∧ ∀ m, m ∉ l → (s.forAll l fun s m => s.modLeg m fun x => x.energised ok).leg m = s.leg m := by
  induction l generalizing s with
  | nil => exact ⟨fun m hm => absurd hm List.not_mem_nil, fun _ _ => rfl⟩
  | cons a l ih =>
    obtain ⟨hin, hout⟩ := ih (s.modLeg a fun x => x.energised ok)
    have hother : ∀ m, m ≠ a → (s.modLeg a fun x => x.energised ok).leg m = s.leg m := fun m hm => modLeg_leg_other _ _ _ _ hm
    have hself : (s.modLeg a fun x => x.energised ok).leg a = (s.leg a).energised ok := modLeg_leg_self _ _ _
    refine ⟨fun m hm => ?_, fun m hm => ?_⟩
    · by_cases hml : m ∈ l
      · rw [forAll_cons, hin m hml]
        by_cases hma : m = a
        · rw [hma, hself]
          rfl
        · rw [hother m hma]
      · obtain rfl := (List.mem_cons.1 hm).resolve_right hml
        rw [forAll_cons, hout m hml, hself]
        rfl
    · obtain ⟨hma, hml⟩ : m ≠ a ∧ m ∉ l := by simpa using hm
      rw [forAll_cons, hout m hml, hother m hma]

/-- The state in which the legs and coils of an axis have been energised, before the axis itself takes note of it. -/
def State.legsOn (s : State) (n : AxisId) : State := s.forAll (s.drivenLegs n) fun t m => t.modLeg m fun x => x.energised (s.enAllowed n)

/-- Coils that are set afresh leave the legs. -/
theorem forAll_modCoil_legs (l : List CoilId) (f : Coil → Coil) (s : State) : (s.forAll l fun t c => t.modCoil c f).legs = s.legs :=
  forAll_same State.legs l (fun t c => t.modCoil c f) (fun _ _ _ => rfl) s

theorem energise_legs (s : State) (n : AxisId) : (s.energise n).legs = (s.legsOn n).legs :=
  forAll_modCoil_legs (s.drivenCoils n) (fun k => { k with integ := 0, clipped := false, openRun := 0 }) (s.legsOn n)

theorem startObserver_legs (s : State) (n : AxisId) : (s.startObserver n).legs = s.legs :=
  forAll_modCoil_legs (s.drivenCoils n) (fun k => { k with ef := 0 }) s

theorem enableReady_endsOn (s : State) (n : AxisId) : ∃ b, s.endsOn (s.enableReady n) n fun x => { x with drv := { x.drv with enabling := b } } := by
  unfold State.enableReady
  extract_lets x
  split
  · exact ⟨false, endEnable_endsOn s n .ok 0⟩
  · exact ⟨(s.ax n).drv.enabling, endsOn_congr (endsOn_of_queues n rfl ⟨rfl, rfl⟩) rfl⟩

/-- The axis takes up its master at `m` and counts as enabled (R49, R325). -/
def State.tookUp (u : State) (n : AxisId) (m : Int) : State :=
  (u.modDrv n fun d => { d with enabled := true }).modMot n fun a => { a with mProg := m, mProgPrev := m, outHist := [], vel := 0, overspeed := false }

theorem tookUp_ax (u : State) (n : AxisId) (m : Int) : ((u.tookUp n m).ax n).drv.enabled = true ∧ ((u.tookUp n m).ax n).mot.mProg = m := by
  unfold State.tookUp
  rw [modMot_ax_self, modDrv_ax_self]
  exact ⟨rfl, rfl⟩

theorem tookUp_legs (u : State) (n : AxisId) (m : Int) : (u.tookUp n m).legs = u.legs := rfl

/-- The axis that an ENABLE takes up at a boundary, before the ENABLE itself completes. -/
def State.takenUp (s : State) (n : AxisId) : State :=
  ((s.energise n).startObserver n).tookUp n s.tb.snap[(s.ax n).mot.master.val]

theorem snapOp_energise {s : State} {n : AxisId} (h : (s.ax n).drv.enabling = true) :
    s.snapOp (.energise n) = if s.enAllowed n then (s.takenUp n).enableReady n else s := by
  show (if !s.enAllowed n then s else if (s.ax n).drv.enabling then s.enableNow n else if (s.ax n).drv.enabled then s.energise n else s) = _
  rw [if_pos h]
  cases s.enAllowed n <;> rfl

theorem snapOp_energise_legs {s : State} {n : AxisId} (h : (s.ax n).drv.enabling = true) (ha : s.enAllowed n = true) (m : LegId) :
    (s.snapOp (.energise n)).leg m = (s.legsOn n).leg m := by
  obtain ⟨b, hready, -⟩ := enableReady_endsOn (s.takenUp n) n
  have htaken : (s.takenUp n).legs = (s.legsOn n).legs := by
    unfold State.takenUp
    rw [tookUp_legs, startObserver_legs, energise_legs]
  have hlegs : (s.snapOp (.energise n)).legs = (s.legsOn n).legs := by
    rw [snapOp_energise h, if_pos ha]
    generalize s.takenUp n = u at hready htaken
    rw [hready]
    exact htaken
  exact congrArg (fun v : Vector Leg 192 => v[m.val]) hlegs

theorem snapOp_energise_ax {s : State} {n : AxisId} (h : (s.ax n).drv.enabling = true) (ha : s.enAllowed n = true) :
    ((s.snapOp (.energise n)).ax n).drv.enabled = true
      ∧ ((s.snapOp (.energise n)).ax n).mot.mProg = s.tb.snap[(s.ax n).mot.master.val] := by
  obtain ⟨b, hready⟩ := enableReady_endsOn (s.takenUp n) n
  have htaken : ((s.takenUp n).ax n).drv.enabled = true ∧ ((s.takenUp n).ax n).mot.mProg = s.tb.snap[(s.ax n).mot.master.val] := by
    unfold State.takenUp
    exact tookUp_ax _ n _
  rw [snapOp_energise h, if_pos ha]
  generalize s.takenUp n = u at hready htaken
  rw [endsOn_ax hready]
  exact htaken

/-! ### DISABLE (R324, R548) -/

theorem disablingNow_other {s : State} {n k : AxisId} (h : k ≠ n) (act : Nat) : (s.addSnap (.disable n act)).disablingNow k = s.disablingNow k := by
  unfold State.disablingNow
  simp [State.addSnap, State.ax, h.symm]

theorem forAll_startDisable (act : Nat) {l : List AxisId} (hl : l.Nodup) (s : State)
    (h : ∀ n ∈ l, (s.ax n).drv.enabled = true ∧ s.disablingNow n = false) :
    s.forAll l (fun s n => s.startDisable n act) = { s with q := { s.q with snapOps := s.q.snapOps ++ l.map fun n => .disable n act } } := by
  induction l generalizing s with
  | nil => simp
  | cons a l ih =>
    obtain ⟨ha, hl⟩ := List.nodup_cons.1 hl
    obtain ⟨hon, hno⟩ := h a List.mem_cons_self
    have hstart : s.startDisable a act = s.addSnap (.disable a act) := by
      unfold State.startDisable
      rw [hno]
      simp only [hon]
      rfl
    have hrest := ih hl (s.addSnap (.disable a act)) fun n hn => by
      have hna : n ≠ a := fun e => ha (e ▸ hn)
      rw [disablingNow_other hna]
      exact h n (List.mem_cons_of_mem _ hn)
    rw [forAll_cons, hstart, hrest]
    simp [State.addSnap, List.append_assoc]

theorem addressed_single {s : State} {p : Packet} {n : AxisId} (hn : axisOfByte p.axis = some n) : s.addressed p = [n] := by
  unfold State.addressed
  rw [hn]

/-- Settles O19: ENABLE is checked on every axis before it answers, also on one that is on, and a latched SHARE_ERR refuses it, the model's
choices (notes/assumptions/52.md, 56.md). -/
theorem enableAndDisableTakeUpTheirAxes : Obligations.EnableAndDisableTakeUpTheirAxes := by
  refine ⟨⟨fun s core p h hall => ?_, fun s n h => enableChecks_excluded h, fun s n h => ⟨fun ha => ?_, fun ha => ?_⟩⟩,
    fun s core p n hfresh h hn => ⟨fun st w hf => ?_, fun hp hon hing => ?_⟩, fun s core p h hstream => ⟨fun hall => ?_,
    fun n hfresh hn hdis hoff hing => ?_⟩⟩
  · obtain ⟨t, ht, hframe, hin, hout⟩ := forAll_startEnable s.q.nextAct (addressed_nodup s p)
      ((s.started p).addAction p.ref p.axis .enable (s.addressed p)) hall
    exact ⟨t, (exec_row enableBody rfl h).trans (congrArg Host.Outcome.next ht), hframe, hin, hout⟩
  · rw [snapOp_energise h, if_neg (by rw [ha]; exact Bool.false_ne_true)]
  · obtain ⟨hen, hprog⟩ := snapOp_energise_ax h ha
    obtain ⟨hin, hout⟩ := forAll_energised (s.enAllowed n) (s.drivenLegs n) s
    refine ⟨hen, hprog, fun m hm => ?_, fun m hm => (snapOp_energise_legs h ha m).trans (hout m hm)⟩
    rw [snapOp_energise_legs h ha]
    refine (hin m hm).trans ?_
    rw [ha, Bool.true_and]
  · have hst := enableChecks_status hf
    have hrow : exec (.enable core) s = .next (((s.started p).addAction p.ref p.axis .enable (s.addressed p)).forAll (s.addressed p)
        fun t n => t.startEnable n s.q.nextAct) := exec_row enableBody rfl h
    rw [hrow, addressed_single hn, forAll_cons, forAll_nil]
    refine congrArg Host.Outcome.next (Eq.trans ?_ (actionAxis_started hfresh h hn (kind := .enable) (w := w) fun e => absurd e hst))
    unfold State.startEnable
    rw [show firstFailure (((s.started p).addAction p.ref p.axis .enable [n]).enableChecks n) = some (st, w) from hf]
  · have hrow : exec (.enable core) s = .next (((s.started p).addAction p.ref p.axis .enable (s.addressed p)).forAll (s.addressed p)
        fun t n => t.startEnable n s.q.nextAct) := exec_row enableBody rfl h
    rw [hrow, addressed_single hn, forAll_cons, forAll_nil]
    refine congrArg Host.Outcome.next (Eq.trans ?_ (actionAxis_started hfresh h hn (kind := .enable) (st := .ok) fun _ _ => rfl))
    unfold State.startEnable
    rw [show firstFailure (((s.started p).addAction p.ref p.axis .enable [n]).enableChecks n) = none from hp]
    exact (if_neg (by rw [show (((s.started p).addAction p.ref p.axis .enable [n]).ax n).drv.enabling = false from hing]; exact Bool.false_ne_true)).trans
      (if_pos hon)
  · have hrow : exec (.disable core) s = .next ((((s.started p).endStreamOn (s.addressed p)).addAction p.ref p.axis .disable (s.addressed p)).forAll
        (s.addressed p) fun t n => t.startDisable n s.q.nextAct) := exec_row disableBody rfl h
    rw [hrow, endStreamOn_none (by exact hstream)]
    exact congrArg Host.Outcome.next (forAll_startDisable s.q.nextAct (addressed_nodup s p)
      ((s.started p).addAction p.ref p.axis .disable (s.addressed p)) hall)
  · have hrow : exec (.disable core) s = .next ((((s.started p).endStreamOn (s.addressed p)).addAction p.ref p.axis .disable (s.addressed p)).forAll
        (s.addressed p) fun t n => t.startDisable n s.q.nextAct) := exec_row disableBody rfl h
    rw [hrow, endStreamOn_none (by exact hstream), addressed_single hn, forAll_cons, forAll_nil]
    refine congrArg Host.Outcome.next (Eq.trans ?_ (actionAxis_started hfresh h hn (kind := .disable) (st := .ok) fun _ _ => rfl))
    unfold State.startDisable
    rw [show ((s.started p).addAction p.ref p.axis .disable [n]).disablingNow n = false from hdis]
    exact (if_neg Bool.false_ne_true).trans ((if_neg (by
      rw [show (((s.started p).addAction p.ref p.axis .disable [n]).ax n).drv.enabled = false from hoff]; exact Bool.false_ne_true)).trans (if_neg (by
      rw [show (((s.started p).addAction p.ref p.axis .disable [n]).ax n).drv.enabling = false from hing]; exact Bool.false_ne_true)))

end Sys2Proof.Machine
end

section
/-! PROOF. DIAGNOSE and IDENTIFY_MOTOR (09_power_stage.md R244 to R247; 12_opcodes.md R328). -/
namespace Sys2Proof.Machine
open Sys2Proof

/-! ### DIAGNOSE (R244) -/

/-- With no DIAGNOSE waiting in a group none begins. -/
theorem nextDiag_empty {s : State} {g : GroupId} (h : (s.grp g).diagQueue = []) (k : Nat) : s.nextDiag k g = s := by
  cases k with
  | zero => rfl
  | succ k =>
    unfold State.nextDiag
    rw [h]

/-- The only DIAGNOSE waiting in a group that is free, of an axis that is off, begins its steps (R244). -/
theorem nextDiag_sole {s : State} {g : GroupId} {n : AxisId} {act : Nat} (h : (s.grp g).diagQueue = [(n, act)]) (hlock : (s.grp g).lockout = 0)
    (hoff : (s.ax n).drv.enabled = false) (hing : (s.ax n).drv.enabling = false) (hpart : s.isPartner n = false) (k : Nat) :
    s.nextDiag (k + 1) g = (s.modGroup g fun x => { x with diagQueue := [] }).modGroup g fun x => { x with diag := some (n, act) } := by
  unfold State.nextDiag
  rw [h]
  refine (if_neg ?_).trans (if_neg ?_)
  · simp [hoff, hing, hpart]
  · simp [hlock]

/-- A DIAGNOSE of an axis that is off, in a free group where none waits, runs (R244). -/
theorem startDiagnose_runs {s : State} {n : AxisId} {act : Nat} (hd : (s.grp (groupOf n)).diag = none)
    (hq : (s.grp (groupOf n)).diagQueue = []) (hlock : (s.grp (groupOf n)).lockout = 0) (hoff : (s.ax n).drv.enabled = false)
    (hing : (s.ax n).drv.enabling = false) (hpart : s.isPartner n = false) :
    s.startDiagnose n act = { s with groups := upd s.groups (groupOf n) fun g => { g with diag := some (n, act) } } := by
  have hself := modGroup_grp_self s (groupOf n) fun x => { x with diagQueue := x.diagQueue ++ [(n, act)] }
  unfold State.startDiagnose
  extract_lets g s1
  have hdiag : (s1.grp g).diag.isNone = true := by
    rw [show s1.grp g = _ from hself]
    exact Option.isNone_iff_eq_none.2 hd
  have hqueue : (s1.grp g).diagQueue = [(n, act)] := by
    rw [show s1.grp g = _ from hself]
    exact congrArg (· ++ [(n, act)]) hq
  have hlock1 : (s1.grp g).lockout = 0 := by
    rw [show s1.grp g = _ from hself]
    exact hlock
  have hpart1 : s1.isPartner n = false := by
    unfold State.isPartner State.ganged at hpart ⊢
    rw [show s1.grp (groupOf n) = _ from hself]
    exact hpart
  rw [if_pos hdiag, nextDiag_sole hqueue hlock1 hoff hing hpart1]
  have hv : upd (upd (upd s.groups (groupOf n) fun x => { x with diagQueue := x.diagQueue ++ [(n, act)] }) (groupOf n)
      fun x => { x with diagQueue := [] }) (groupOf n) (fun x => { x with diag := some (n, act) })
      = upd s.groups (groupOf n) fun g => { g with diag := some (n, act) } := by
    rw [upd_upd, upd_upd]
    exact upd_congr _ _ _ _ (congrArg (fun l => { s.grp (groupOf n) with diagQueue := l, diag := some (n, act) }) hq.symm)
  exact congrArg (fun v => ({ s with groups := v } : State)) hv

/-- A DIAGNOSE in a group where one runs waits for it (R244). -/
theorem startDiagnose_waits {s : State} {n : AxisId} {act : Nat} (hd : (s.grp (groupOf n)).diag.isSome = true) :
    s.startDiagnose n act = { s with groups := upd s.groups (groupOf n) fun g => { g with diagQueue := g.diagQueue ++ [(n, act)] } } := by
  unfold State.startDiagnose
  extract_lets g s1
  refine if_neg ?_
  rw [show s1.grp g = _ from modGroup_grp_self s (groupOf n) fun x => { x with diagQueue := x.diagQueue ++ [(n, act)] }]
  show ¬ (s.grp (groupOf n)).diag.isNone = true
  rw [Option.isNone_iff_eq_none]
  intro hnone
  rw [hnone] at hd
  exact nomatch hd

theorem exec_diagnose {s : State} {core : CoreId} {p : Packet} {n : AxisId} (h : s.Admits core 0x28 p) (hn : axisOfByte p.axis = some n) :
    exec (.diagnose core) s = .next ((s.awaits p .diagnose [n] []).startDiagnose n s.q.nextAct) := by
  have hrow : exec (.diagnose core) s = .next (((s.started p).addAction p.ref p.axis .diagnose (s.addressed p)).forAll (s.addressed p)
      fun t n => t.startDiagnose n s.q.nextAct) := exec_row diagnoseBody rfl h
  rw [hrow, addressed_single hn, forAll_cons, forAll_nil]
  simp only [State.awaits, List.append_nil]
  rfl

/-! ### DIAGNOSE_END (R33, R246, R247) -/

/-- The verdict of a DIAGNOSE stands in its axis, and its group is free. -/
def State.diagnosed (s : State) (n : AxisId) (r : DiagReading) (m : BitVec 16) (bad : Bool) : State :=
  (s.modGroup (groupOf n) fun x => { x with diag := none }).modProt n fun p =>
    { p with verdict := m, ra := r.raMilliohm, rb := r.rbMilliohm, diagFail := bad, gangUntested := p.gangUntested && bad }

theorem diagnosed_mot (s : State) (n : AxisId) (r : DiagReading) (m : BitVec 16) (b : Bool) : ((s.diagnosed n r m b).ax n).mot = (s.ax n).mot := by
  unfold State.diagnosed
  rw [modProt_mot]
  rfl

/-- The verdict mask of a DIAGNOSE of axis `n`. -/
def State.verdictOf (s : State) (n : AxisId) (r : DiagReading) : BitVec 16 :=
  diagMask r (s.ganged n) ((groupAxes (groupOf n)).any fun j => j ≠ n && (s.ax j).drv.enabled)

/-- A reading found a fault (R246). -/
def verdictBad (m : BitVec 16) : Bool := m &&& 0x07FF ≠ 0

theorem diagnoseEnd_ran {s : State} {n : AxisId} {act : Nat} (hd : (s.grp (groupOf n)).diag = some (n, act)) (r : DiagReading) :
    s.diagnoseEnd n r =
      (State.actionAxis (if verdictBad (s.verdictOf n r) then (s.diagnosed n r (s.verdictOf n r) true).shaleAxis n 22
        else s.diagnosed n r (s.verdictOf n r) false) act
        ⟨n, if verdictBad (s.verdictOf n r) then .driveFault else .ok, (s.verdictOf n r).setWidth 32, none⟩ 0 false).nextDiag 64 (groupOf n) := by
  unfold State.diagnoseEnd
  extract_lets g
  rw [show (s.grp g).diag = some (n, act) from hd]
  refine (if_neg (fun hne => hne rfl)).trans ?_
  show State.nextDiag 64 (State.actionAxis (if s.verdictOf n r &&& 0x07FF ≠ 0
      then (s.diagnosed n r (s.verdictOf n r) (decide (s.verdictOf n r &&& 0x07FF ≠ 0))).shaleAxis n 22
      else s.diagnosed n r (s.verdictOf n r) (decide (s.verdictOf n r &&& 0x07FF ≠ 0))) act
    ⟨n, if s.verdictOf n r &&& 0x07FF ≠ 0 then .driveFault else .ok, (s.verdictOf n r).setWidth 32, none⟩ 0 false) (groupOf n) = _
  by_cases hb : s.verdictOf n r &&& 0x07FF ≠ 0
  · have hbad : verdictBad (s.verdictOf n r) = true := decide_eq_true hb
    rw [hbad, decide_eq_true hb, if_pos hb, if_pos hb, if_pos rfl, if_pos rfl]
  · have hbad : verdictBad (s.verdictOf n r) = false := decide_eq_false hb
    rw [hbad, decide_eq_false hb, if_neg hb, if_neg hb, if_neg Bool.false_ne_true, if_neg Bool.false_ne_true]

/-- A diagnosed axis's DIAGNOSE completes with the mask, and where none waits its group stays free (R246, R247). -/
theorem actionAxis_diagnosed {s u : State} {n : AxisId} {act : Nat} {tag : BitVec 16} {q : BitVec 4} {r : DiagReading} {m : BitVec 16} {b : Bool}
    (hq : (s.grp (groupOf n)).diagQueue = []) (hw : s.WaitsFor act .diagnose n tag q)
    (hu : u = (s.diagnosed n r m b).logs u) (st : Status) (w : Word) :
    (u.actionAxis act ⟨n, st, w, none⟩ 0 false).nextDiag 64 (groupOf n) = { u with q := s.actionDone act n tag q st w } := by
  have huq : u.q = s.q := by rw [hu]; rfl
  have hwait : u.WaitsFor act .diagnose n tag q := by
    unfold State.WaitsFor
    rw [huq]
    exact hw
  have hprog : u.axMpos n = s.axMpos n := by
    have hmot : (u.ax n).mot = (s.ax n).mot := by
      rw [hu]
      exact diagnosed_mot s n r m b
    unfold State.axMpos
    rw [hmot]
  have hdone : u.actionDone act n tag q st w = s.actionDone act n tag q st w := by
    unfold State.actionDone State.entered
    rw [hprog, huq]
    rw [hu]
    rfl
  have hqueue : (u.grp (groupOf n)).diagQueue = [] := by
    rw [hu]
    exact (congrArg Group.diagQueue (modGroup_grp_self s (groupOf n) fun x => { x with diag := none })).trans hq
  rw [actionAxis_alone hwait fun _ hk => absurd rfl hk, hdone]
  exact nextDiag_empty (s := { u with q := s.actionDone act n tag q st w }) hqueue 64

/-! ### IDENTIFY_MOTOR (R328) -/

theorem identChecks_excluded {s : State} {par : List Byte} {n : AxisId} (h : passes (s.identChecks par n)) :
    (s.ax n).drv.enabled = true ∧ (s.ax n).cfg.setpoint = false ∧ (s.ax n).mot.runs = [] ∧ (s.ax n).mot.queue = [] := by
  have hall := passes_iff.1 h
  simp only [State.identChecks, List.forall_mem_cons, badState, Bool.or_eq_false_iff, AxisMotion.hasSegments, Bool.not_eq_false',
    List.isEmpty_iff] at hall
  obtain ⟨-, -, -, ⟨⟨⟨⟨hon, hset⟩, hruns, hqueue⟩, -⟩, -⟩, -⟩ := hall
  exact ⟨hon, hset, hruns, hqueue⟩

/-- An IDENTIFY_MOTOR before its first frame (R328). -/
def State.identStart (s : State) (p : Packet) (n : AxisId) : IdentState :=
  { ref := p.ref, itest := uAt p.params 0 2, wgain := (byteAt p.params 2).getLsbD 0, frame := 0, suA := 0, siA := 0, suB := 0, siB := 0
    i0A := 0, i0B := 0, diA := 0, diB := 0, amp := (s.ax n).drv.sel.amp }

/-- Settles O21. -/
theorem diagnosisAndIdentificationRun : Obligations.DiagnosisAndIdentificationRun := by
  refine ⟨fun s core p n h hn => ⟨fun hd hq hlock hoff hing hpart => ?_, fun hd => ?_⟩, fun s n r act tag q hd hq hw => ?_,
    fun s core p n h hn hc => ?_⟩
  · exact (exec_diagnose h hn).trans (congrArg Host.Outcome.next
      (startDiagnose_runs (s := s.awaits p .diagnose [n] []) hd hq hlock hoff hing hpart))
  · exact (exec_diagnose h hn).trans (congrArg Host.Outcome.next (startDiagnose_waits (s := s.awaits p .diagnose [n] []) hd))
  · intro skipped m bad
    have hend := diagnoseEnd_ran hd r
    cases hb : verdictBad (s.verdictOf n r) with
    | true =>
      have hlog : (s.diagnosed n r (s.verdictOf n r) true).shaleAxis n 22 = (s.diagnosed n r (s.verdictOf n r) true).logs
          ((s.diagnosed n r (s.verdictOf n r) true).shaleAxis n 22) := shale_frame ..
      rw [hb, if_pos rfl, if_pos rfl, actionAxis_diagnosed hq hw hlog] at hend
      refine ⟨_, congrArg Host.Outcome.next hend, ?_, fun hf => nomatch hf.symm.trans hb⟩
      rw [show bad = true from hb]
      exact congrArg (fun u : State => ({ u with q := s.actionDone act n tag q .driveFault ((s.verdictOf n r).setWidth 32) } : State)) hlog
    | false =>
      rw [hb, if_neg Bool.false_ne_true, if_neg Bool.false_ne_true, actionAxis_diagnosed hq hw rfl] at hend
      refine ⟨_, congrArg Host.Outcome.next hend, ?_, fun _ => rfl⟩
      rw [show bad = false from hb]
      rfl
  · obtain ⟨hon, hset, hruns, hqueue⟩ := identChecks_excluded hc
    have hrow : exec (.identifyMotor core) s = .next (identifyMotorBody (s.started p) p) := exec_row identifyMotorBody rfl h
    refine ⟨hon, hset, hruns, hqueue, s.identStart p n, hrow.trans (congrArg Host.Outcome.next ?_), rfl, rfl, rfl, rfl, rfl⟩
    unfold identifyMotorBody
    rw [hn]
    exact guarded_passes (s := s.started p) (by exact hc) _

end Sys2Proof.Machine
end

section
/-! SUPPORT. How a word is written through a port, said once, and with it the words with their fields (10_host_port.md R276 to R280;
16_integrity.md R416, R417; 19_registers_device.md R484, R493 to R501; notes/assumptions/76.md, 119.md). -/
namespace Sys2Proof.Machine
open Sys2Proof

/-! ### A word written through a port (R276, R279, R416) -/

/-- A port may write a word: the word is no keyed one, or the port's unlock holds (R417). -/
def State.mayWrite (s : State) (p : Port) (page w : Nat) : Prop :=
  s.dev.ready = true ∧ w ≤ 0xFF ∧ page ≠ 0 ∧ (keyedWord page w = true → s.unlockedBy p = true ∨ p = .sideband ∧ 4 ≤ page)

section
variable {s t : State} {p : Port} {page w : Nat} {v : Word} {tick e : Nat}

/-- What a write that the access rules allow does, pairs and words alike. -/
theorem regWrite_allowed (h : s.mayWrite p page w) : s.regWrite p page w v tick =
    match pairLo page w with
    | some lo =>
      match (s.setUnlock p false).writePair p page w lo v with
      | (.ok s2, _) => s2.healWord page w
      | (.error e, s2) => s2.regError p e
    | none =>
      match (s.setUnlock p false).writeWord p page w v tick with
      | .ok s2 => s2.healWord page w
      | .error e => (s.setUnlock p false).regError p e := by
  obtain ⟨hready, hw, hpage, hkey⟩ := h
  have hopen : ¬ (keyedWord page w && !(s.unlockedBy p || (decide (p = .sideband) && decide (4 ≤ page)))) = true := by
    cases hk : keyedWord page w with
    | false => simp
    | true =>
      rcases hkey hk with ho | ⟨hp, h4⟩
      · simp [ho]
      · simp [hp, h4]
  refine (if_neg (by rw [hready]; decide)).trans ((if_neg (Nat.not_lt.2 hw)).trans ((if_neg fun h => hpage h.1).trans ((if_neg hopen).trans ?_)))
  cases pairLo page w <;> rfl

theorem regWrite_ok (h : s.mayWrite p page w) (hpair : pairLo page w = none)
    (hok : (s.setUnlock p false).writeWord p page w v tick = .ok t) : s.regWrite p page w v tick = t.healWord page w := by
  rw [regWrite_allowed h, hpair]
  simp only [hok]

theorem regWrite_error (h : s.mayWrite p page w) (hpair : pairLo page w = none)
    (herr : (s.setUnlock p false).writeWord p page w v tick = .error e) : s.regWrite p page w v tick = s.wroteError p e := by
  rw [regWrite_allowed h, hpair]
  simp only [herr]
  rfl

theorem regWrite_pair_ok {lo : Nat} {u : State} (h : s.mayWrite p page w) (hpair : pairLo page w = some lo)
    (hok : (s.setUnlock p false).writePair p page w lo v = (.ok t, u)) : s.regWrite p page w v tick = t.healWord page w := by
  rw [regWrite_allowed h, hpair]
  simp only [hok]

theorem regWrite_pair_error {lo : Nat} {u : State} (h : s.mayWrite p page w) (hpair : pairLo page w = some lo)
    (herr : (s.setUnlock p false).writePair p page w lo v = (.error e, u)) : s.regWrite p page w v tick = u.regError p e := by
  rw [regWrite_allowed h, hpair]
  simp only [herr]

theorem mayWrite_unkeyed (hready : s.dev.ready = true) (hw : w ≤ 0xFF) (hpage : page ≠ 0) (hkey : keyedWord page w = false) :
    s.mayWrite p page w := ⟨hready, hw, hpage, fun h => nomatch hkey.symm.trans h⟩

theorem mayWrite_unlocked (hready : s.dev.ready = true) (hw : w ≤ 0xFF) (hpage : page ≠ 0) (hopen : s.unlockedBy p = true) :
    s.mayWrite p page w := ⟨hready, hw, hpage, fun _ => .inl hopen⟩

theorem regWrite_notReady (h : s.dev.ready = false) : s.regWrite p page w v tick = s.wroteError p 5 := if_pos (by rw [h]; rfl)

end

/-! ### Fields of a word -/

theorem bits_low (v : Word) (hi : Nat) : bits v hi 0 = (v.setWidth (hi + 1)).toNat := by
  simp [bits, BitVec.toNat_setWidth]

theorem lookupWord_store (l : List (Nat × Word)) (k : Nat) (v : Word) : lookupWord (storeWord l k v) k = v := by simp [lookupWord, storeWord]

/-! ### Pairs (R280) -/

/-- The _HI word of a pair stands behind its _LO. -/
theorem pairLo_next {page lo : Nat} (h : pairLo page lo = some lo) (hlo : lo ≤ 0xFF) : pairLo page (lo + 1) = some lo ∧ lo + 1 ≤ 0xFF := by
  unfold pairLo at h ⊢
  split_ifs at h with h3 h1 hpos hgrp
  · have hone := Option.some.inj h
    rw [if_pos h3, if_pos (by omega)]
    exact ⟨h, by omega⟩
  · have heven := Option.some.inj h
    rw [if_pos h3, if_neg (by omega), if_pos (by omega)]
    exact ⟨congrArg some (by omega), by omega⟩
  · simp only [] at h
    split_ifs at h with ho
    have heven := Option.some.inj h
    rw [if_neg h3, if_pos (by omega)]
    simp only []
    rw [if_pos (by omega)]
    exact ⟨congrArg some (by omega), by omega⟩

/-- The number that two words hold is that of both together. -/
theorem ofWords_append (lo hi : Word) : ofWords lo hi = (hi ++ lo).toInt := by
  rw [BitVec.toInt_eq_toNat_bmod, toNat_append_eq_add]
  unfold ofWords wrapS
  congr 1
  push_cast
  omega

theorem pairLo_master (m : MasterId) : pairLo 3 (0x10 + 2 * m.val) = some (0x10 + 2 * m.val) := by
  have hm := m.isLt
  unfold pairLo
  rw [if_pos rfl, if_neg (by omega), if_pos (by omega)]
  exact congrArg some (by omega)

theorem pairLo_master_hi (m : MasterId) : pairLo 3 (0x11 + 2 * m.val) = some (0x10 + 2 * m.val) := by
  have hm := m.isLt
  unfold pairLo
  rw [if_pos rfl, if_neg (by omega), if_pos (by omega)]
  exact congrArg some (by omega)

/-! ### The pairs of the masters (R40, R280, R501) -/

section
variable {s : State} {port : Port} {m : MasterId} {v : Word}

theorem mayWrite_page3 {w : Nat} (hready : s.dev.ready = true) (hw : w ≤ 0xFF) : s.mayWrite port 3 w :=
  mayWrite_unkeyed hready hw (by decide) rfl

theorem healWord_setHolding (s : State) (p : Port) (k : Nat) (v : Word) (page w : Nat) :
    (s.setHolding p k v).healWord page w = (s.healWord page w).setHolding p k v := by
  cases p <;> rfl

theorem setUnlock_tb (s : State) (p : Port) (on : Bool) : (s.setUnlock p on).tb = s.tb := by cases p <;> rfl

theorem wrote_eq (s : State) (p : Port) (page w : Nat) : s.wrote p page w = (s.setUnlock p false).healWord page w := by cases p <;> rfl

theorem setHolding_tb (s : State) (p : Port) (k : Nat) (v : Word) (t : TimeBase) :
    State.setHolding { s with tb := t } p k v = { s.setHolding p k v with tb := t } := by
  cases p <;> rfl

theorem regWrite_master_lo (hready : s.dev.ready = true) (tick : Nat) : s.regWrite port 3 (0x10 + 2 * m.val) v tick =
    (s.wrote port 3 (0x10 + 2 * m.val)).setHolding port (pairKey 3 (0x10 + 2 * m.val)) v := by
  have hm := m.isLt
  have hpair : (s.setUnlock port false).writePair port 3 (0x10 + 2 * m.val) (0x10 + 2 * m.val) v =
      (.ok ((s.setUnlock port false).setHolding port (pairKey 3 (0x10 + 2 * m.val)) v),
        (s.setUnlock port false).setHolding port (pairKey 3 (0x10 + 2 * m.val)) v) := by
    unfold State.writePair
    rw [dif_pos (by omega), if_pos rfl]
  rw [regWrite_pair_ok (mayWrite_page3 hready (by omega)) (pairLo_master m) hpair, healWord_setHolding, wrote_eq]

theorem setUnlock_readPage3 (s : State) (p q : Port) (on : Bool) (w : Nat) : (s.setUnlock p on).readWord q 3 w = s.readWord q 3 w := by
  cases p <;> rfl

theorem regError_setHolding (s : State) (p : Port) (k : Nat) (v : Word) (e : Nat) :
    (s.setHolding p k v).regError p e = (s.regError p e).setHolding p k v := by
  cases p <;> rfl

/-- The committed _LO goes back to the holding word without the bits that a preset takes. -/
theorem regWrite_master_hi (hready : s.dev.ready = true) (tick : Nat) : s.regWrite port 3 (0x11 + 2 * m.val) v tick =
    if m.val = 7 ∨ s.boundEnabled m.val = true then
      (s.wroteError port 2).setHolding port (pairKey 3 (0x10 + 2 * m.val)) (s.readWord port 3 (0x10 + 2 * m.val))
    else { (s.wrote port 3 (0x11 + 2 * m.val)).setHolding port (pairKey 3 (0x10 + 2 * m.val))
          (s.holdingOf port (pairKey 3 (0x10 + 2 * m.val)) &&& 0xFFFF0000) with
        tb := { s.tb with
          preset := s.tb.preset.set m.val (some ((v ++ s.holdingOf port (pairKey 3 (0x10 + 2 * m.val))).toInt / 65536))
          index := if m.val = 0 then none else s.tb.index } } := by
  have hm := m.isLt
  have hfin : (⟨(0x10 + 2 * m.val - 0x10) / 2, by omega⟩ : MasterId) = m := Fin.ext (by show (0x10 + 2 * m.val - 0x10) / 2 = m.val; omega)
  have hheld : (s.setUnlock port false).holdingOf port (pairKey 3 (0x10 + 2 * m.val)) = s.holdingOf port (pairKey 3 (0x10 + 2 * m.val)) := by
    cases port <;> rfl
  have hin : 3 = 3 ∧ 0x10 ≤ 0x10 + 2 * m.val ∧ 0x10 + 2 * m.val < 0x20 := by omega
  by_cases hbusy : m.val = 7 ∨ s.boundEnabled m.val = true
  · have hpre : (s.setUnlock port false).presetMaster m (s.holdingOf port (pairKey 3 (0x10 + 2 * m.val))) v = .error 2 := by
      refine if_pos ?_
      cases port <;> exact hbusy
    have hpair : (s.setUnlock port false).writePair port 3 (0x11 + 2 * m.val) (0x10 + 2 * m.val) v =
        (.error 2, (s.setUnlock port false).setHolding port (pairKey 3 (0x10 + 2 * m.val))
          ((s.setUnlock port false).readWord port 3 (0x10 + 2 * m.val))) := by
      unfold State.writePair
      rw [dif_pos hin, if_neg (by omega)]
      simp only [hfin, hheld, hpre]
    rw [if_pos hbusy, regWrite_pair_error (mayWrite_page3 hready (by omega)) (pairLo_master_hi m) hpair, regError_setHolding, setUnlock_readPage3]
    rfl
  · have hpre : (s.setUnlock port false).presetMaster m (s.holdingOf port (pairKey 3 (0x10 + 2 * m.val))) v =
        .ok { s.setUnlock port false with tb := { s.tb with
          preset := s.tb.preset.set m.val (some (ofWords (s.holdingOf port (pairKey 3 (0x10 + 2 * m.val))) v / 65536))
          index := if m.val = 0 then none else s.tb.index } } := by
      cases port <;> exact if_neg hbusy
    have hpair : ∃ u, (s.setUnlock port false).writePair port 3 (0x11 + 2 * m.val) (0x10 + 2 * m.val) v = (.ok (State.setHolding { s.setUnlock port false with
        tb := { s.tb with
          preset := s.tb.preset.set m.val (some (ofWords (s.holdingOf port (pairKey 3 (0x10 + 2 * m.val))) v / 65536))
          index := if m.val = 0 then none else s.tb.index } } port (pairKey 3 (0x10 + 2 * m.val))
          (s.holdingOf port (pairKey 3 (0x10 + 2 * m.val)) &&& 0xFFFF0000)), u) := by
      refine ⟨s.setUnlock port false, ?_⟩
      unfold State.writePair
      rw [dif_pos hin, if_neg (by omega)]
      simp only [hfin, hheld, hpre]
    obtain ⟨u, hpair⟩ := hpair
    rw [if_neg hbusy, regWrite_pair_ok (mayWrite_page3 hready (by omega)) (pairLo_master_hi m) hpair, ofWords_append, healWord_setHolding, wrote_eq,
      ← setHolding_tb, ← setUnlock_tb s port false]
    rfl

end

/-! ### The words of page 3 and the log's index -/

section
variable {s : State} {port : Port} {v : Word}

theorem allEnLow_iff (s : State) : s.allEnLow = true ↔ ∀ m, (s.leg m).en = false := by
  unfold State.allEnLow State.leg
  rw [List.all_eq_true]
  constructor
  · intro h m
    have := h _ (Vector.mem_toList_iff.2 (Vector.getElem_mem m.isLt))
    simpa using this
  · intro h l hl
    obtain ⟨i, hi, rfl⟩ := Vector.getElem_of_mem (Vector.mem_toList_iff.1 hl)
    simpa using h ⟨i, hi⟩

theorem anyEnabled_iff (s : State) : s.anyEnabled = true ↔ ∃ n, (s.ax n).drv.enabled = true := by
  simp [State.anyEnabled, allAxes]

theorem boundEnabled_iff (s : State) (m : Nat) : s.boundEnabled m = true ↔ ∃ n, (s.ax n).drv.enabled = true ∧ (s.ax n).mot.master.val = m := by
  simp [State.boundEnabled, allAxes]

theorem setUnlock_allEnLow (s : State) (p : Port) (on : Bool) : (s.setUnlock p on).allEnLow = s.allEnLow := by cases p <;> rfl

theorem setUnlock_anyEnabled (s : State) (p : Port) (on : Bool) : (s.setUnlock p on).anyEnabled = s.anyEnabled := by cases p <;> rfl

theorem exec_frameCfg (hready : s.dev.ready = true) : exec (.frameCfg port v) s = .next
    (if 6 ≤ (v.setWidth 3).toNat then s.wroteError port 3 else if s.allEnLow then { s.wrote port 3 0 with tb := { s.tb with flen := v.setWidth 3 } }
      else s.wroteError port 2) := by
  have hmay : s.mayWrite port 3 0 := mayWrite_page3 hready (by decide)
  have hword : (s.setUnlock port false).writeWord port 3 0 v 0 = if 6 ≤ (v.setWidth 3).toNat then .error 3
      else if !s.allEnLow then .error 2 else .ok { s.setUnlock port false with tb := { s.tb with flen := v.setWidth 3 } } := by
    rw [← bits_low v 2, ← setUnlock_allEnLow s port false, ← setUnlock_tb s port false]
    rfl
  refine congrArg Host.Outcome.next ?_
  by_cases h6 : 6 ≤ (v.setWidth 3).toNat
  · rw [if_pos h6] at hword ⊢
    exact regWrite_error hmay rfl hword
  · rw [if_neg h6] at hword ⊢
    cases hen : s.allEnLow with
    | true =>
      rw [hen] at hword
      rw [regWrite_ok hmay rfl hword, if_pos rfl]
      cases port <;> rfl
    | false =>
      rw [hen] at hword
      exact regWrite_error hmay rfl hword

theorem exec_vmRate (hready : s.dev.ready = true) (i : Fin 2) : exec (.vmRate port i v) s = .next { s.wrote port 3 (5 + i.val) with
    tb := { s.tb with virt := upd s.tb.virt i fun x => { x with reg := v, pend := true } } } := by
  have hword : (s.setUnlock port false).writeWord port 3 (5 + i.val) v 0 = .ok ((s.setUnlock port false).writeRate i v) := by
    fin_cases i <;> rfl
  have hpair : pairLo 3 (5 + i.val) = none := by fin_cases i <;> rfl
  have hw := i.isLt
  refine congrArg Host.Outcome.next ((regWrite_ok (mayWrite_page3 hready (by omega)) hpair hword).trans ?_)
  cases port <;> rfl

theorem exec_syncCfg (hready : s.dev.ready = true) : exec (.syncCfg port v) s = .next
    (if v.setWidth 2 = (3 : BitVec 2) then s.wroteError port 3
      else if v.setWidth 2 ≠ s.tb.role ∧ s.anyEnabled = true then s.wroteError port 2
      else { s.wrote port 3 7 with tb := { s.tb with role := v.setWidth 2, trim := (v >>> 8).setWidth 8 } }) := by
  have hmay : s.mayWrite port 3 7 := mayWrite_page3 hready (by decide)
  have hword : (s.setUnlock port false).writeWord port 3 7 v 0 = if v.setWidth 2 = (3 : BitVec 2) then .error 3
      else if v.setWidth 2 ≠ s.tb.role ∧ s.anyEnabled = true then .error 2
      else .ok { s.setUnlock port false with tb := { s.tb with role := v.setWidth 2, trim := (v >>> 8).setWidth 8 } } := by
    rw [← setUnlock_anyEnabled s port false, ← setUnlock_tb s port false]
    rfl
  refine congrArg Host.Outcome.next ?_
  by_cases h3 : v.setWidth 2 = (3 : BitVec 2)
  · rw [if_pos h3] at hword ⊢
    exact regWrite_error hmay rfl hword
  rw [if_neg h3] at hword ⊢
  by_cases hbusy : v.setWidth 2 ≠ s.tb.role ∧ s.anyEnabled = true
  · rw [if_pos hbusy] at hword ⊢
    exact regWrite_error hmay rfl hword
  · rw [if_neg hbusy] at hword ⊢
    rw [regWrite_ok hmay rfl hword]
    cases port <;> rfl

theorem setUnlock_shaleWords (s : State) (p : Port) (on : Bool) (i : Nat) : (s.setUnlock p on).shaleWords i = s.shaleWords i := by
  cases p <;> rfl

theorem exec_shaleIdx (hready : s.dev.ready = true) : exec (.shaleIdx port v) s = .next { s.wrote port 1 8 with
    dev := { (s.wrote port 1 8).dev with shaleIdx := v.setWidth 12, shaleD := s.shaleWords (v.setWidth 12).toNat } } := by
  have hword : (s.setUnlock port false).writeWord port 1 8 v 0 = .ok ((s.setUnlock port false).selectShale (v.setWidth 12)) := rfl
  refine congrArg Host.Outcome.next ((regWrite_ok (mayWrite_unkeyed hready (by decide) (by decide) rfl) rfl hword).trans ?_)
  unfold State.selectShale
  rw [setUnlock_shaleWords]
  cases port <;> rfl

theorem shaleWords_some {i : Nat} {e : ShaleEntry} (h : s.shaleValid[i]? = some e) (k : Fin 4) :
    (s.shaleWords i)[k.val] = wordAt e.bytes (4 * k.val) := by
  unfold State.shaleWords
  rw [h]
  exact Vector.getElem_ofFn ..

theorem shaleWords_none {i : Nat} (h : s.shaleValid.length ≤ i) : s.shaleWords i = Vector.replicate 4 0 := by
  unfold State.shaleWords
  rw [List.getElem?_eq_none h]

end

/-! ### Words loaded for output (R280) -/

section
variable {s : State} {port : Port} {page lo : Nat}

theorem regRead_lo (hpair : pairLo page lo = some lo) (hlo : lo ≤ 0xFF) (hlc : s.nvm.lc ≠ .retired) :
    (s.regRead port page lo).2 = s.setShadow port (pairKey page lo) (s.readWord port page (lo + 1)) := by
  unfold State.regRead
  rw [if_neg (by omega), if_neg (fun h => hlc h.1), hpair]
  simp only [if_true]

theorem regRead_hi (hpair : pairLo page lo = some lo) (hlo : lo ≤ 0xFF) (hlc : s.nvm.lc ≠ .retired) :
    (s.regRead port page (lo + 1)).1 = s.shadowOf port (pairKey page lo) := by
  obtain ⟨hnext, hle⟩ := pairLo_next hpair hlo
  unfold State.regRead
  rw [if_neg (by omega), if_neg (fun h => hlc h.1), hnext]
  simp

/-- The shadow of a pair holds what was latched. -/
theorem shadowOf_latched {u : State} {k : Nat} {v : Word} (hhost : u.hp.shadow = (s.setShadow port k v).hp.shadow)
    (hside : u.sb.shadow = (s.setShadow port k v).sb.shadow) : u.shadowOf port k = v := by
  cases port with
  | host =>
    unfold State.shadowOf
    rw [hhost]
    exact lookupWord_store ..
  | sideband =>
    unfold State.shadowOf
    rw [hside]
    exact lookupWord_store ..

end

/-- Settles O36: SHALE_IDX gives its entry in the write itself (notes/assumptions/119.md), and a code out of range comes before a state
that forbids it (notes/assumptions/76.md), the model's choices. -/
theorem registerWordsCommitTheirFields : Obligations.RegisterWordsCommitTheirFields := by
  refine ⟨⟨fun s port page lo hpair hlc => ?_, fun s port m v hready => ?_⟩, fun s port v hready => ?_⟩
  · have hlo : lo.toNat ≤ 0xFF := by have := lo.isLt; omega
    refine ⟨congrArg Host.Outcome.next (regRead_lo hpair hlo hlc), fun u hu hhost hside => ?_⟩
    rw [regRead_hi hpair hlo hu]
    exact shadowOf_latched hhost hside
  · intro key
    have hm := m.isLt
    have hlo : (BitVec.ofNat 8 (0x10 + 2 * m.val)).toNat = 0x10 + 2 * m.val := by rw [BitVec.toNat_ofNat]; omega
    have hhi : (BitVec.ofNat 8 (0x11 + 2 * m.val)).toNat = 0x11 + 2 * m.val := by rw [BitVec.toNat_ofNat]; omega
    have hrow : ∀ c ∈ ([.mposPreset port m v, .hiWriteCommit port 3 (BitVec.ofNat 8 (0x11 + 2 * m.val)) v] : List Instr),
        exec c s = .next (s.regWrite port 3 (0x11 + 2 * m.val) v 0) := by
      intro c hc
      rcases List.mem_cons.1 hc with rfl | hc
      · rfl
      · rw [List.mem_singleton.1 hc]
        exact congrArg (fun w => Host.Outcome.next (s.regWrite port 3 w v 0)) hhi
    refine ⟨?_, fun c hc => ⟨fun h7 hfree => ?_, fun hbusy => ?_⟩⟩
    · refine Eq.trans (congrArg (fun w => Host.Outcome.next (s.regWrite port 3 w v 0)) hlo) ?_
      exact congrArg Host.Outcome.next (regWrite_master_lo hready 0)
    · have hno : ¬ (m.val = 7 ∨ s.boundEnabled m.val = true) := by
        rintro (h | h)
        · exact h7 h
        · obtain ⟨n, hn, hb⟩ := (boundEnabled_iff s _).1 h
          exact hfree n hn (Fin.ext hb)
      rw [hrow c hc, regWrite_master_hi hready, if_neg hno]
    · have hyes : m.val = 7 ∨ s.boundEnabled m.val = true :=
        hbusy.imp_right fun ⟨n, hn, hb⟩ => (boundEnabled_iff s _).2 ⟨n, hn, congrArg Fin.val hb⟩
      rw [hrow c hc, regWrite_master_hi hready, if_pos hyes]
  · refine ⟨fun h6 => ?_, fun h6 hen => ?_, fun h6 ⟨m, hm⟩ => ?_, exec_vmRate hready, fun h3 => ?_, fun h3 hfree => ?_, fun h3 hrole hon => ?_,
      _, exec_shaleIdx hready, rfl, fun e he k => shaleWords_some he k, shaleWords_none⟩
    · rw [exec_frameCfg hready, if_pos h6]
    · rw [exec_frameCfg hready, if_neg (by omega), if_pos ((allEnLow_iff s).2 hen)]
    · have hno : ¬ s.allEnLow = true := fun h => Bool.false_ne_true (((allEnLow_iff s).1 h m).symm.trans hm)
      rw [exec_frameCfg hready, if_neg (by omega), if_neg hno]
    · rw [exec_syncCfg hready, if_pos h3]
    · have hno : ¬ (v.setWidth 2 ≠ s.tb.role ∧ s.anyEnabled = true) := by
        rintro ⟨hrole, hany⟩
        obtain ⟨n, hn⟩ := (anyEnabled_iff s).1 hany
        exact Bool.false_ne_true ((hfree hrole n).symm.trans hn)
      rw [exec_syncCfg hready, if_neg h3, if_neg hno]
    · rw [exec_syncCfg hready, if_neg h3, if_pos ⟨hrole, (anyEnabled_iff s).2 hon⟩]

end Sys2Proof.Machine
end

section
/-! PROOF. HOSTEDGE, the edge words, COMMIT and HB_DIRECT (06_pwm_mica.md R171, R193 to R195; 09_power_stage.md R257, R258;
13_sideband.md R352; notes/assumptions/75.md). -/
namespace Sys2Proof.Machine
open Sys2Proof

/-! ### The legs of a group, one after another -/

theorem legAt_injective {g : GroupId} {a b : Fin 16} (h : legAt g a = legAt g b) : a = b := by
  have := congrArg Fin.val h
  simp only [legAt] at this
  exact Fin.ext (by omega)

/-- Each leg of a group is changed by its own rule, and the legs of the other groups stand. -/
theorem forAll_legAt {g : GroupId} {f : State → Fin 16 → State} {F : Fin 16 → Leg → Leg}
    (hf : ∀ s m, (f s m).legs = upd s.legs (legAt g m) (F m)) (s : State) :
    (∀ k, (s.forAll (List.finRange 16) f).leg (legAt g k) = F k (s.leg (legAt g k)))
      ∧ ∀ l, groupOfLeg l ≠ g → (s.forAll (List.finRange 16) f).leg l = s.leg l := by
  have hself : ∀ (t : State) (m : Fin 16), (f t m).leg (legAt g m) = F m (t.leg (legAt g m)) := fun t m =>
    (congrArg (fun v : Vector Leg 192 => v[(legAt g m).val]) (hf t m)).trans (upd_self ..)
  have hother : ∀ (t : State) (m : Fin 16) (l : LegId), l ≠ legAt g m → (f t m).leg l = t.leg l := fun t m l hl =>
    (congrArg (fun v : Vector Leg 192 => v[l.val]) (hf t m)).trans (upd_other _ _ _ _ hl)
  have hlist : ∀ (l : List (Fin 16)), l.Nodup → ∀ t : State,
      (∀ k ∈ l, (t.forAll l f).leg (legAt g k) = F k (t.leg (legAt g k)))
        ∧ ∀ m, (∀ k ∈ l, m ≠ legAt g k) → (t.forAll l f).leg m = t.leg m := by
    intro l
    induction l with
    | nil => exact fun _ t => ⟨fun k hk => absurd hk List.not_mem_nil, fun _ _ => rfl⟩
    | cons a l ih =>
      intro hl t
      obtain ⟨ha, hl⟩ := List.nodup_cons.1 hl
      obtain ⟨hin, hout⟩ := ih hl (f t a)
      refine ⟨fun k hk => ?_, fun m hm => ?_⟩
      · rcases List.mem_cons.1 hk with hka | hk
        · rw [hka, forAll_cons, hout _ (fun j hj e => ha (by rw [legAt_injective e]; exact hj)), hself]
        · have hka : legAt g k ≠ legAt g a := fun e => ha (legAt_injective e ▸ hk)
          rw [forAll_cons, hin k hk, hother t a _ hka]
      · rw [forAll_cons, hout m fun k hk => hm k (List.mem_cons_of_mem _ hk), hother t a m (hm a List.mem_cons_self)]
  obtain ⟨hin, hout⟩ := hlist _ (List.nodup_finRange 16) s
  refine ⟨fun k => hin k (List.mem_finRange k), fun l hl => hout l fun k _ e => hl ?_⟩
  rw [e]
  exact groupOfLeg_legAt g k

/-- A leg is changed where a condition holds. -/
theorem modLeg_if (c : Prop) [Decidable c] (s : State) (m : LegId) (F : Leg → Leg) :
    (if c then s.modLeg m F else s) = s.modLeg m fun l => if c then F l else l := by
  by_cases h : c
  · simp only [if_pos h]
  · simp only [if_neg h]
    exact (congrArg (fun v => ({ s with legs := v } : State)) (upd_same s.legs m (fun l => l) rfl)).symm

/-! ### The words of a group's page (R504, R352) -/

section
variable {s : State} {g : GroupId} {p : Port} {w : Nat} {v : Word} {tick : Nat}

theorem writeWord_group (s : State) (p : Port) (g : GroupId) (w : Nat) (v : Word) (tick : Nat) :
    s.writeWord p (4 + g.val) w v tick = s.writeGroup p g w v tick := by
  have hg := g.isLt
  have hword : ∀ k, s.writeWord p (k + 4) w v tick = if h : 4 ≤ k + 4 ∧ k + 4 < 16 then s.writeGroup p ⟨k + 4 - 4, by omega⟩ w v tick else .ok s :=
    fun _ => rfl
  rw [Nat.add_comm, hword, dif_pos (by omega)]
  exact congrArg (fun g => s.writeGroup p g w v tick) (Fin.ext (by show g.val + 4 - 4 = g.val; omega))

theorem pairLo_group (g : GroupId) (hw : w < 0x40) : pairLo (4 + g.val) w = none := by
  unfold pairLo
  rw [if_neg (by omega), if_neg (by omega)]

theorem mayWrite_group (hready : s.dev.ready = true) (hw : w < 0x40) (hkey : w = 0x0A → s.unlockedBy p = true ∨ p = .sideband) :
    s.mayWrite p (4 + g.val) w := by
  refine ⟨hready, by omega, by omega, fun hk => ?_⟩
  have hw10 : w = 0x0A := by
    have h1 : ¬ 4 + g.val = 1 := by omega
    simpa [keyedWord, h1] using hk
  exact (hkey hw10).imp_right fun h => ⟨h, by omega⟩

/-- A word of a group's own part that the port may write, the group being in operation. -/
theorem writeWord_own (hres : (s.grp g).resetting = false) (hw : w < 0x40) (hp : p = .sideband → hostOnly w = false) :
    (s.setUnlock p false).writeWord p (4 + g.val) w v tick = (s.setUnlock p false).writeGroupWord g w v tick := by
  have hres' : ((s.setUnlock p false).grp g).resetting = false := by
    cases p <;> exact hres
  rw [writeWord_group]
  refine (if_neg (by rw [hres']; exact Bool.false_ne_true)).trans ((if_neg ?_).trans (if_pos hw))
  rintro ⟨hside, honly⟩
  exact Bool.false_ne_true ((hp hside).symm.trans honly)

theorem regWrite_group_ok {t : State} (hready : s.dev.ready = true) (hres : (s.grp g).resetting = false) (hw : w < 0x40)
    (hkey : w = 0x0A → s.unlockedBy p = true ∨ p = .sideband) (hp : p = .sideband → hostOnly w = false)
    (hok : (s.setUnlock p false).writeGroupWord g w v tick = .ok t) : s.regWrite p (4 + g.val) w v tick = t.healWord (4 + g.val) w :=
  regWrite_ok (mayWrite_group hready hw hkey) (pairLo_group g hw) ((writeWord_own hres hw hp).trans hok)

theorem regWrite_group_error {e : Nat} (hready : s.dev.ready = true) (hres : (s.grp g).resetting = false) (hw : w < 0x40)
    (hkey : w = 0x0A → s.unlockedBy p = true ∨ p = .sideband) (hp : p = .sideband → hostOnly w = false)
    (herr : (s.setUnlock p false).writeGroupWord g w v tick = .error e) : s.regWrite p (4 + g.val) w v tick = s.wroteError p e :=
  regWrite_error (mayWrite_group hready hw hkey) (pairLo_group g hw) ((writeWord_own hres hw hp).trans herr)

/-- The side-band host cannot write the edge words, COMMIT and HB_DIRECT (R352). -/
theorem regWrite_group_hostOnly (hready : s.dev.ready = true) (hres : (s.grp g).resetting = false) (hw : w < 0x40) (honly : hostOnly w = true) :
    s.regWrite .sideband (4 + g.val) w v tick = s.wroteError .sideband 2 := by
  refine regWrite_error (mayWrite_group hready hw fun _ => .inr rfl) (pairLo_group g hw) ((writeWord_group ..).trans ?_)
  exact (if_neg (by rw [show ((s.setUnlock .sideband false).grp g).resetting = false from hres]; exact Bool.false_ne_true)).trans
    (if_pos ⟨rfl, honly⟩)

end

/-! ### HOSTEDGE (R193) -/

/-- The axes of a group are off. -/
theorem groupIdle_iff (s : State) (g : GroupId) : ((groupAxes g).any fun n => (s.ax n).drv.enabled || (s.ax n).drv.enabling) = true
    ↔ ∃ n ∈ groupAxes g, (s.ax n).drv.enabled = true ∨ (s.ax n).drv.enabling = true := by simp

section
variable {s : State} {g : GroupId} {port : Port} {v : Word}

theorem exec_hostedge (hready : s.dev.ready = true) (hres : (s.grp g).resetting = false) : exec (.hostedge port g v) s = .next
    (if v.getLsbD 8 = true ∧ (s.nvm.lc ≠ .service ∨ ∃ n ∈ groupAxes g, (s.ax n).drv.enabled = true ∨ (s.ax n).drv.enabling = true)
      then s.wroteError port 2
      else { s.wrote port (4 + g.val) 0 with groups := upd s.groups g fun x => { x with hostedge := v.getLsbD 8 } }) := by
  have hword : (s.setUnlock port false).writeGroupWord g 0 v 0 = (s.setUnlock port false).writeHostedge g v := rfl
  have hcond : (bitOf v 8 && !(decide ((s.setUnlock port false).nvm.lc = .service)
      && !(groupAxes g).any fun n => ((s.setUnlock port false).ax n).drv.enabled || ((s.setUnlock port false).ax n).drv.enabling)) = true
      ↔ v.getLsbD 8 = true ∧ (s.nvm.lc ≠ .service ∨ ∃ n ∈ groupAxes g, (s.ax n).drv.enabled = true ∨ (s.ax n).drv.enabling = true) := by
    rw [← groupIdle_iff]
    have hnvm : (s.setUnlock port false).nvm = s.nvm := by cases port <;> rfl
    have hax : ∀ n, (s.setUnlock port false).ax n = s.ax n := fun n => by cases port <;> rfl
    simp only [hnvm, hax, bitOf, Bool.and_eq_true, Bool.not_eq_true', Bool.and_eq_false_iff, decide_eq_false_iff_not, Bool.not_eq_false']
  refine congrArg Host.Outcome.next ?_
  by_cases hc : v.getLsbD 8 = true ∧ (s.nvm.lc ≠ .service ∨ ∃ n ∈ groupAxes g, (s.ax n).drv.enabled = true ∨ (s.ax n).drv.enabling = true)
  · rw [if_pos hc]
    exact regWrite_group_error hready hres (by decide) (fun h => absurd h (by decide)) (fun _ => rfl) (hword.trans (if_pos (hcond.2 hc)))
  · rw [if_neg hc]
    refine (regWrite_group_ok hready hres (by decide) (fun h => absurd h (by decide)) (fun _ => rfl) (hword.trans (if_neg fun h => hc (hcond.1 h)))).trans ?_
    cases port <;> rfl

end

/-! ### The edge words (R171, R195) -/

section
variable {s : State} {g : GroupId} {m : Fin 16} {off : Bool} {v : Word}

/-- The number of an edge word in its page. -/
def edgeWord (off : Bool) (m : Fin 16) : Nat := (if off then 0x30 else 0x20) + m.val

theorem edgeWord_bounds (off : Bool) (m : Fin 16) : 0x20 ≤ edgeWord off m ∧ edgeWord off m < 0x40 := by
  have hm := m.isLt
  cases off <;> simp only [edgeWord, Bool.false_eq_true, if_true, if_false] <;> omega

theorem edgeWord_hostOnly (off : Bool) (m : Fin 16) : hostOnly (edgeWord off m) = true := by
  obtain ⟨h1, h2⟩ := edgeWord_bounds off m
  simp [hostOnly, h1, h2]

theorem writeGroupWord_edge (s : State) (g : GroupId) (off : Bool) (m : Fin 16) (v : Word) (tick : Nat) :
    s.writeGroupWord g (edgeWord off m) v tick = s.writeEdge g m off v := by
  cases off <;> fin_cases m <;> rfl

theorem exec_edgeWordWrite_host (hready : s.dev.ready = true) (hres : (s.grp g).resetting = false) : exec (.edgeWordWrite .host g m off v) s = .next
    (if 16 * s.len < (v.setWidth 20 : BitVec 20).toNat then s.wroteError .host 3
      else if (!(s.grp g).hostDriven || (s.leg (legAt g m)).commitBit) = true then s.wroteError .host 2
      else { s.wrote .host (4 + g.val) (edgeWord off m) with
        legs := upd s.legs (legAt g m) fun l => if off then { l with offS := v.setWidth 20 } else { l with onS := v.setWidth 20, henS := v.getLsbD 31 } }) := by
  obtain ⟨hlo, hhi⟩ := edgeWord_bounds off m
  have hkey : edgeWord off m = 0x0A → s.unlockedBy .host = true ∨ Port.host = .sideband := fun h => by omega
  have hp : Port.host = .sideband → hostOnly (edgeWord off m) = false := fun h => nomatch h
  have hword := writeGroupWord_edge (s.setUnlock .host false) g off m v 0
  refine congrArg Host.Outcome.next ?_
  by_cases hrange : 16 * s.len < (v.setWidth 20 : BitVec 20).toNat
  · rw [if_pos hrange]
    exact regWrite_group_error hready hres hhi hkey hp (hword.trans (if_pos hrange))
  rw [if_neg hrange]
  by_cases hbusy : (!(s.grp g).hostDriven || (s.leg (legAt g m)).commitBit) = true
  · rw [if_pos hbusy]
    exact regWrite_group_error hready hres hhi hkey hp (hword.trans ((if_neg hrange).trans (if_pos hbusy)))
  · rw [if_neg hbusy]
    exact (regWrite_group_ok hready hres hhi hkey hp (hword.trans ((if_neg hrange).trans (if_neg hbusy)))).trans rfl

end

/-! ### COMMIT (R194) -/

section
variable {s : State} {g : GroupId} {v : Word} {tick : Nat}

/-- A leg that COMMIT names is marked, late in the last tick of the frame (R194). -/
def Leg.commitMarked (l : Leg) (late : Bool) : Leg := if l.commitBit then l else { l with commitBit := true, commitLate := late }

/-- The legs that a COMMIT names are marked. -/
def State.commitLegs (s : State) (g : GroupId) (v : Word) (tick : Nat) : State :=
  s.forAll (List.finRange 16) fun t m => if bitOf v m.val then t.modLeg (legAt g m) fun l => l.commitMarked (s.len ≤ tick + 1) else t

theorem commitLegs_legs (s : State) (g : GroupId) (v : Word) (tick : Nat) :
    (∀ k : Fin 16, (s.commitLegs g v tick).leg (legAt g k) = if v.getLsbD k.val && !(s.leg (legAt g k)).commitBit
        then { s.leg (legAt g k) with commitBit := true, commitLate := decide (s.len ≤ tick + 1) } else s.leg (legAt g k))
      ∧ ∀ l, groupOfLeg l ≠ g → (s.commitLegs g v tick).leg l = s.leg l := by
  obtain ⟨hin, hout⟩ := forAll_legAt (g := g)
    (f := fun t m => if bitOf v m.val then t.modLeg (legAt g m) fun l => l.commitMarked (s.len ≤ tick + 1) else t)
    (F := fun m l => if bitOf v m.val then l.commitMarked (s.len ≤ tick + 1) else l) (fun t m => by rw [modLeg_if]; rfl) s
  refine ⟨fun k => (hin k).trans ?_, hout⟩
  unfold Leg.commitMarked bitOf
  cases v.getLsbD k.val <;> cases (s.leg (legAt g k)).commitBit <;> rfl

theorem commitLegs_frame (s : State) (g : GroupId) (v : Word) (tick : Nat) : s.commitLegs g v tick = { s with legs := (s.commitLegs g v tick).legs } :=
  forAll_legs _ _ (fun t m _ => by rw [modLeg_if]; rfl) s

/-- With no bit set COMMIT marks no leg. -/
theorem commitLegs_none (h : bits v 15 0 = 0) : s.commitLegs g v tick = s := by
  have hbit : ∀ m : Fin 16, bitOf v m.val = false := by
    intro m
    have hz : v.setWidth 16 = (0 : BitVec 16) := BitVec.eq_of_toNat_eq ((bits_low v 15).symm.trans h)
    have := congrArg (fun x : BitVec 16 => x.getLsbD m.val) hz
    simpa [bitOf, BitVec.getLsbD_setWidth] using this
  refine forAll_keeps (fun t => t = s) _ _ (fun t m _ ht => ?_) s rfl
  rw [hbit m]
  exact ht

theorem exec_commit_host (hready : s.dev.ready = true) (hres : (s.grp g).resetting = false) (hedge : (s.grp g).hostedge = true) :
    exec (.commit .host g v tick) s = .next (((s.setUnlock .host false).commitLegs g v tick).healWord (4 + g.val) 0x0B) := by
  have hword : (s.setUnlock .host false).writeGroupWord g 0x0B v tick = .ok ((s.setUnlock .host false).commitLegs g v tick) := by
    by_cases h0 : bits v 15 0 = 0
    · rw [commitLegs_none h0]
      exact if_pos h0
    · refine (if_neg h0).trans ((if_neg ?_).trans rfl)
      rw [show ((s.setUnlock .host false).grp g).hostedge = true from hedge]
      decide
  exact congrArg Host.Outcome.next
    (regWrite_group_ok hready hres (by decide) (fun h => absurd h (by decide)) (fun h => nomatch h) hword)

theorem exec_commit_refused (hready : s.dev.ready = true) (hres : (s.grp g).resetting = false) (hedge : (s.grp g).hostedge = false)
    (hv : v.setWidth 16 ≠ (0 : BitVec 16)) : exec (.commit .host g v tick) s = .next (s.wroteError .host 2) := by
  have h0 : bits v 15 0 ≠ 0 := by
    rw [bits_low]
    exact fun h => hv (BitVec.eq_of_toNat_eq h)
  have hword : (s.setUnlock .host false).writeGroupWord g 0x0B v tick = .error 2 := by
    refine (if_neg h0).trans (if_pos ?_)
    rw [show ((s.setUnlock .host false).grp g).hostedge = false from hedge]
    rfl
  exact congrArg Host.Outcome.next
    (regWrite_group_error hready hres (by decide) (fun h => absurd h (by decide)) (fun h => nomatch h) hword)

end

/-! ### HB_DIRECT (R257, R258, R513) -/

/-- A leg under the HB_DIRECT word of its group: with both switches asked for it is held off by the interlock; with none it is let go. -/
def Leg.directed (l : Leg) (v : Word) (m : Nat) : Leg :=
  if bitOf v (2 * m) && bitOf v (2 * m + 1) then { l with intlk := true, intlkHold := true }
  else if !bitOf v (2 * m) && !bitOf v (2 * m + 1) then { l with intlkHold := false, tripped := false }
  else l

/-- One leg of a group takes up HB_DIRECT, with the log entry of an interlock that holds it off for the first time (R258, R424). -/
def State.directLeg (s : State) (g : GroupId) (v : Word) (m : Fin 16) : State :=
  let both := bitOf v (2 * m.val) && bitOf v (2 * m.val + 1)
  let none' := !bitOf v (2 * m.val) && !bitOf v (2 * m.val + 1)
  let m' := legAt g m
  if both then
    let was := (s.leg m').intlk
    let s1 := State.noteFault (s.modLeg m' fun l => { l with intlk := true, intlkHold := true })
    if was then s1 else s1.shale 4 (Config.powerStageCode m.val).toNat g.val (pageWord (4 + g.val) 2)
  else if none' then s.modLeg m' fun l => { l with intlkHold := false, tripped := false }
  else s

/-- `t` is `s` but for its legs, its log and the alert causes of the side-band port. -/
def State.legsLog (s t : State) : Prop :=
  t = { s with legs := t.legs, sb := t.sb, dev := { s.dev with shalePend := t.dev.shalePend, shaleDropped := t.dev.shaleDropped } }

theorem directLeg_frame (s : State) (g : GroupId) (v : Word) (m : Fin 16) : s.legsLog (s.directLeg g v m)
    ∧ (s.directLeg g v m).legs = upd s.legs (legAt g m) fun l => l.directed v m.val := by
  unfold State.directLeg State.legsLog
  extract_lets both none' m' was s1
  cases hb : both with
  | true =>
    have hF : (fun l : Leg => l.directed v m.val) = fun l => { l with intlk := true, intlkHold := true } := funext fun l => if_pos hb
    rw [hF, if_pos rfl]
    cases was with
    | true => exact ⟨rfl, rfl⟩
    | false =>
      rw [if_neg Bool.false_ne_true, shale_frame]
      exact ⟨rfl, rfl⟩
  | false =>
    rw [if_neg Bool.false_ne_true]
    cases hn : none' with
    | true =>
      have hF : (fun l : Leg => l.directed v m.val) = fun l => { l with intlkHold := false, tripped := false } :=
        funext fun l => (if_neg (by rw [show (bitOf v (2 * m.val) && bitOf v (2 * m.val + 1)) = false from hb]; exact Bool.false_ne_true)).trans (if_pos hn)
      rw [hF, if_pos rfl]
      exact ⟨rfl, rfl⟩
    | false =>
      have hF : (fun l : Leg => l.directed v m.val) = fun l => l := funext fun l =>
        (if_neg (by rw [show (bitOf v (2 * m.val) && bitOf v (2 * m.val + 1)) = false from hb]; exact Bool.false_ne_true)).trans
          (if_neg (by rw [show (!bitOf v (2 * m.val) && !bitOf v (2 * m.val + 1)) = false from hn]; exact Bool.false_ne_true))
      rw [hF, if_neg Bool.false_ne_true, upd_same _ _ _ rfl]
      exact ⟨rfl, rfl⟩

/-- The legs of a group after HB_DIRECT, before the EN rule. -/
def State.directLegs (s : State) (g : GroupId) (v : Word) : State :=
  (s.modGroup g fun x => { x with hbDirect := v }).forAll (List.finRange 16) fun t m => t.directLeg g v m

theorem directLegs_frame (s : State) (g : GroupId) (v : Word) : (s.modGroup g fun x => { x with hbDirect := v }).legsLog (s.directLegs g v) := by
  refine forAll_keeps (fun t => (s.modGroup g fun x => { x with hbDirect := v }).legsLog t) _ _ (fun t m _ ht => ?_) _ rfl
  obtain ⟨hstep, -⟩ := directLeg_frame t g v m
  unfold State.legsLog at *
  generalize t.directLeg g v m = u at hstep
  rw [hstep, ht]

theorem directLegs_legs (s : State) (g : GroupId) (v : Word) :
    (∀ k : Fin 16, (s.directLegs g v).leg (legAt g k) = (s.leg (legAt g k)).directed v k.val)
      ∧ ∀ l, groupOfLeg l ≠ g → (s.directLegs g v).leg l = s.leg l :=
  forAll_legAt (F := fun m l => l.directed v m.val) (fun t m => (directLeg_frame t g v m).2) (s.modGroup g fun x => { x with hbDirect := v })

/-- Nothing forbids EN in a host-driven group (R22, R242, R390). -/
def State.hostGo (s : State) (g : GroupId) : Bool :=
  let x := s.grp g
  s.dev.safeA && s.dev.safeB && x.lockout = 0 && !x.link && !x.par && !s.dev.safeHold && !s.dev.gfault.getLsbD 0

theorem hostGo_iff {s : State} {g : GroupId} (hrun : s.dev.stage = .running) : s.hostGo g = true ↔ s.enPermitted g := by
  simp [State.hostGo, State.enPermitted, hrun, and_assoc]

/-- A leg of a host-driven group at the EN that its rule gives (R193). -/
def Leg.hostSet (l : Leg) (en : Bool) : Leg :=
  { l with en := en, enNew := l.enNew && en || en && !l.en, offTicks := if l.en && !en then 0 else l.offTicks }

theorem hostEnables_legs (s : State) (g : GroupId) :
    (∀ k : Fin 16, ((s.hostEnables g).leg (legAt g k)).en = (s.hostGo g && (s.leg (legAt g k)).hostEn (s.grp g) k.val)
        ∧ ((s.hostEnables g).leg (legAt g k)).intlk = (s.leg (legAt g k)).intlk)
      ∧ ∀ l, groupOfLeg l ≠ g → (s.hostEnables g).leg l = s.leg l := by
  obtain ⟨hin, hout⟩ := forAll_legAt (g := g) (f := fun t m => t.modLeg (legAt g m) fun l => l.hostSet (s.hostGo g && l.hostEn (s.grp g) m.val))
    (F := fun m l => l.hostSet (s.hostGo g && l.hostEn (s.grp g) m.val)) (fun _ _ => rfl) s
  exact ⟨fun k => ⟨(congrArg Leg.en (hin k) :), (congrArg Leg.intlk (hin k) :)⟩, hout⟩

theorem hostEnables_frame (s : State) (g : GroupId) : s.hostEnables g = { s with legs := (s.hostEnables g).legs } := by
  unfold State.hostEnables
  extract_lets x ok
  exact forAll_legs _ _ (fun _ _ _ => rfl) s

section
variable {s : State} {g : GroupId} {v : Word}

theorem exec_hbDirect_refused (hready : s.dev.ready = true) (hres : (s.grp g).resetting = false) (hopen : s.hp.unlocked = true)
    (hno : s.nvm.lc ≠ .service ∨ (s.grp g).hostDriven = false) : exec (.hbDirect .host g v) s = .next (s.wroteError .host 2) := by
  have hword : (s.setUnlock .host false).writeGroupWord g 0x0A v 0 = .error 2 := by
    refine if_pos ?_
    rintro ⟨hlc, hdriven⟩
    rcases hno with h | h
    · exact h hlc
    · exact Bool.false_ne_true (h.symm.trans hdriven)
  exact congrArg Host.Outcome.next (regWrite_group_error hready hres (by decide) (fun _ => .inl hopen) (fun h => nomatch h) hword)

theorem exec_hbDirect (hready : s.dev.ready = true) (hres : (s.grp g).resetting = false) (hopen : s.hp.unlocked = true)
    (hlc : s.nvm.lc = .service) (hdriven : (s.grp g).hostDriven = true) : exec (.hbDirect .host g v) s = .next
      (State.healWord (((s.setUnlock .host false).directLegs g v).hostEnables g) (4 + g.val) 0x0A) := by
  have hword : (s.setUnlock .host false).writeGroupWord g 0x0A v 0 = .ok (((s.setUnlock .host false).directLegs g v).hostEnables g) :=
    if_neg (not_not.2 ⟨hlc, hdriven⟩)
  exact congrArg Host.Outcome.next (regWrite_group_ok hready hres (by decide) (fun _ => .inl hopen) (fun h => nomatch h) hword)

/-- A leg held by HB_DIRECT in a group where EN may be high (R257, R258). -/
theorem directed_held {l : Leg} {m : Nat} (h0 : v.getLsbD (2 * m) = true) (h1 : v.getLsbD (2 * m + 1) = true) (x : Group) :
    (l.directed v m).intlk = true ∧ (l.directed v m).hostEn x m = false := by
  have hd : l.directed v m = { l with intlk := true, intlkHold := true } := if_pos (by simp [bitOf, h0, h1])
  rw [hd]
  exact ⟨rfl, rfl⟩

theorem directed_high {l : Leg} {m : Nat} {x : Group} (hx : x.hbDirect = v) (h0 : v.getLsbD (2 * m) = false) (h1 : v.getLsbD (2 * m + 1) = true)
    (hi : l.intlk = false) (hh : l.intlkHold = false) (ht : l.tripped = false) : (l.directed v m).hostEn x m = true := by
  have hd : l.directed v m = l := (if_neg (by simp [bitOf, h0])).trans (if_neg (by simp [bitOf, h1]))
  rw [hd]
  simp [Leg.hostEn, Group.direct, hx, bitOf, h0, h1, hi, hh, ht]

end

/-- Settles O37: an edge word needs its group host-driven and COMMIT needs HOSTEDGE, and a tripped leg stays off under HB_DIRECT, the model's
choices (notes/assumptions/75.md). -/
theorem hostDrivenGroupsTakeEdgesAndDirectControl : Obligations.HostDrivenGroupsTakeEdgesAndDirectControl := by
  refine ⟨fun s g m off v tick hready hres => ?_, fun s g v hready hrun hres hopen => ⟨exec_hbDirect_refused hready hres hopen, fun hlc hdriven => ?_⟩⟩
  · intro page word
    refine ⟨fun port => ⟨fun h8 hidle => ?_, fun h8 hbusy => ?_, fun h8 => ?_⟩, fun hrange hdriven hfree => ?_, fun hrange => ?_, fun hrange hbusy => ?_,
      ⟨?_, ?_, ?_⟩, fun hedge => ?_, exec_commit_refused hready hres⟩
    · have hno : ¬ (v.getLsbD 8 = true ∧ (s.nvm.lc ≠ .service ∨ ∃ n ∈ groupAxes g, (s.ax n).drv.enabled = true ∨ (s.ax n).drv.enabling = true)) := by
        rintro ⟨-, hlc | ⟨n, hn, hon⟩⟩
        · exact hlc hidle.1
        · obtain ⟨h1, h2⟩ := hidle.2 n hn
          rw [h1, h2] at hon
          simp at hon
      rw [exec_hostedge hready hres, if_neg hno, h8]
    · rw [exec_hostedge hready hres, if_pos ⟨h8, hbusy⟩]
    · rw [exec_hostedge hready hres, if_neg (fun h => Bool.false_ne_true (h8.symm.trans h.1)), h8]
    · rw [exec_edgeWordWrite_host hready hres, if_neg (by omega), if_neg (by rw [hdriven, hfree]; decide)]
      rfl
    · rw [exec_edgeWordWrite_host hready hres, if_pos hrange]
    · rw [exec_edgeWordWrite_host hready hres, if_neg (by omega), if_pos (by rcases hbusy with h | h <;> simp [h])]
    · exact congrArg Host.Outcome.next (regWrite_group_hostOnly hready hres (edgeWord_bounds off m).2 (edgeWord_hostOnly off m))
    · exact congrArg Host.Outcome.next (regWrite_group_hostOnly hready hres (by decide) rfl)
    · exact congrArg Host.Outcome.next (regWrite_group_hostOnly hready hres (by decide) rfl)
    · obtain ⟨hin, hout⟩ := commitLegs_legs (s.setUnlock .host false) g v tick
      refine ⟨_, exec_commit_host hready hres hedge, ?_, hin, hout⟩
      exact congrArg (fun u : State => u.healWord (4 + g.val) 0x0B) (commitLegs_frame (s.setUnlock .host false) g v tick)
  · have hframe := directLegs_frame (s.setUnlock .host false) g v
    obtain ⟨hdin, hdout⟩ := directLegs_legs (s.setUnlock .host false) g v
    refine ⟨_, exec_hbDirect hready hres hopen hlc hdriven, ?_⟩
    generalize State.directLegs (s.setUnlock .host false) g v = u at hframe hdin hdout
    have hgrp : u.grp g = { s.grp g with hbDirect := v } := by
      rw [hframe]
      exact modGroup_grp_self (s.setUnlock .host false) g _
    have hgo : u.hostGo g = true ↔ s.enPermitted g := by
      rw [← hostGo_iff hrun]
      unfold State.hostGo
      rw [hgrp, hframe]
      exact Iff.rfl
    obtain ⟨hin, hout⟩ := hostEnables_legs u g
    have hlast := hostEnables_frame u g
    generalize u.hostEnables g = t at hlast hin hout
    have hleg : ∀ m, (t.healWord (4 + g.val) 0x0A).leg m = t.leg m := fun _ => rfl
    refine ⟨?_, fun m h0 h1 => ?_, fun m hen => ?_, fun m hperm hi hh h0 h1 ht => ?_, fun l hl => (hout l hl).trans (hdout l hl), fun k hk => ?_, ?_, ?_, ?_, ?_, ?_⟩
    · rw [← hgrp, hlast]
      rfl
    · obtain ⟨hheld, hoff⟩ := directed_held h0 h1 (l := s.leg (legAt g m)) (u.grp g)
      rw [hleg, (hin m).1, (hin m).2, hdin m]
      exact ⟨hheld, by rw [show ((s.setUnlock .host false).leg (legAt g m)) = s.leg (legAt g m) from rfl, hoff, Bool.and_false]⟩
    · rw [hleg, (hin m).1] at hen
      exact hgo.1 (Bool.and_eq_true_iff.1 hen).1
    · rw [hleg, (hin m).1, hgo.2 hperm, hdin m, Bool.true_and]
      exact directed_high (by rw [hgrp]) h0 h1 hi hh ht
    · rw [hlast, hframe]
      exact modGroup_grp_other (s.setUnlock .host false) g k _ hk
    · rw [hlast, hframe]
      rfl
    · rw [hlast, hframe]
      rfl
    · rw [hlast, hframe]
      rfl
    · rw [hlast, hframe]
      rfl
    · rw [hlast, hframe]
      rfl

end Sys2Proof.Machine
end

section
/-! PROOF. Keyed words, and the commands of OPT_CTL (16_integrity.md R417; 10_host_port.md R276; 15_reset_lifecycle.md R389, R402;
notes/assumptions/77.md). -/
namespace Sys2Proof.Machine
open Sys2Proof

/-! ### A keyed word without its unlock (R417) -/

section
variable {s : State} {port : Port} {w : Nat} {v : Word}

/-- A keyed word written through a port that is not unlocked (R417). -/
theorem regWrite_locked_keyed (hready : s.dev.ready = true) (hkey : keyedWord 1 w = true) (hw : w ≤ 0xFF) (hlock : s.unlockedBy port = false)
    (tick : Nat) : s.regWrite port 1 w v tick = (s.setUnlock port false).keyViolation port := by
  refine (if_neg (by rw [hready]; decide)).trans ((if_neg (Nat.not_lt.2 hw)).trans ((if_neg fun h => absurd h.1 (by decide)).trans (if_pos ?_)))
  rw [hkey, hlock]
  simp

/-- `t` is `s` with KEY_VIOL and its error code; what a log entry and an alert change is left open (R417, R424). -/
def State.KeyViolated (s : State) (port : Port) (t : State) : Prop :=
  t = { s.wroteError port 4 with
    dev := { s.dev with gfault := s.dev.gfault ||| 0x40, shalePend := t.dev.shalePend, shaleDropped := t.dev.shaleDropped }
    hp := { (s.wroteError port 4).hp with keyFrame := t.hp.keyFrame }
    sb := { (s.wroteError port 4).sb with faultSeen := t.sb.faultSeen, causes := t.sb.causes, announced := t.sb.announced, keyFrame := t.sb.keyFrame } }

/-- The frame of the last log entry of a port's key violations is noted. -/
def State.setKeyFrame (s : State) (port : Port) (f : Nat) : State :=
  match port with
  | .host => { s with hp := { s.hp with keyFrame := some f } }
  | .sideband => { s with sb := { s.sb with keyFrame := some f } }

theorem KeyViolated.logged {t : State} {f : Nat} (h : s.KeyViolated port t) (cls code src : Nat) (data : BitVec 24) :
    s.KeyViolated port ((t.shale cls code src data).setKeyFrame port f) := by
  unfold State.KeyViolated at h ⊢
  rw [shale_frame]
  cases port <;> (rw [h]; rfl)

theorem keyViolation_violates (s : State) (port : Port) : s.KeyViolated port ((s.setUnlock port false).keyViolation port) := by
  have hflag : s.KeyViolated port (((s.setUnlock port false).accessFlag 6).regError port 4) := by cases port <;> rfl
  have hlog := KeyViolated.logged (f := (s.setUnlock port false).tb.count) hflag 9 1 255 (portData port)
  unfold State.keyViolation
  cases port <;> dsimp only
  case host =>
    split_ifs
    · exact hlog
    · exact hflag
  case sideband =>
    split_ifs
    · exact hlog
    · exact hflag

end

/-! ### OPT_CTL (R389, R402, R481) -/

section
variable {s : State} {p : Port}

/-- CMD 1 writes staged options that are all in range (R389). -/
theorem optCtl_write (hbusy : s.dev.optBusy = false) (hoff : s.anyEnabled = false) (hlc : s.nvm.lc ≠ .retired) :
    s.optCtl p 1 = if optionsOk s.dev.staging then .ok (s.writeOptions s.dev.staging) else .error 3 :=
  (if_neg (by rw [hbusy]; decide)).trans (if_neg (by simp [hoff, hlc]))

theorem optCtl_write_enabled (hbusy : s.dev.optBusy = false) (hon : s.anyEnabled = true) : s.optCtl p 1 = .error 2 :=
  (if_neg (by rw [hbusy]; decide)).trans (if_pos (by simp [hon]))

theorem optCtl_devKey (hbusy : s.dev.optBusy = false) : s.optCtl p 2 = .ok (s.loadKey p false) := if_neg (by rw [hbusy]; decide)

theorem optCtl_fwKey (hbusy : s.dev.optBusy = false) : s.optCtl p 3 = .ok (s.loadKey p true) := if_neg (by rw [hbusy]; decide)

theorem loadKey_device (hlc : s.nvm.lc = .manufacture) (hkey : s.nvm.devKey = none) :
    s.loadKey p false = State.clearStaging { s with nvm := { s.nvm with devKey := some ((optBytes s.dev.staging).take 16) } } :=
  if_pos ⟨hlc, by simp [hkey]⟩

theorem loadKey_firmware (hlc : s.nvm.lc = .manufacture) (hkey : s.nvm.fwKey = none) :
    s.loadKey p true = State.clearStaging { s with nvm := { s.nvm with fwKey := some ((optBytes s.dev.staging).take 64) } } :=
  if_pos ⟨hlc, by simp [hkey]⟩

/-- A key load that is refused (R402). -/
def State.KeyRefused (s : State) (port : Port) (t : State) : Prop :=
  t.nvm = s.nvm ∧ t.dev.staging = s.dev.staging ∧ t.dev.gfault = s.dev.gfault ||| 0x80 ∧ t.axes = s.axes ∧ t.q = s.q ∧ t.tb = s.tb ∧ t.mp = s.mp
    ∧ (match port with
      | .host => t.hp.regErr = 2
      | .sideband => t.sb.regErr = 2)

theorem wonceViol_keyRefused (s : State) (p : Port) :
    s.KeyRefused p ((((s.setUnlock p false).wonceViol p).regError p 2).healWord 1 4) := by
  rw [wonceViol_flagged]
  cases p <;> exact ⟨rfl, rfl, rfl, rfl, rfl, rfl, rfl, rfl⟩

theorem loadKey_refused {fw : Bool} (h : s.nvm.lc ≠ .manufacture ∨ (if fw then s.nvm.fwKey.isSome else s.nvm.devKey.isSome) = true) :
    s.loadKey p fw = (s.wonceViol p).regError p 2 := by
  refine if_neg fun ⟨hlc, hnone⟩ => ?_
  rcases h with h | h
  · exact h hlc
  · cases fw
    · exact absurd ((Option.isSome_iff_ne_none.1 h)) (not_not.2 (Option.isNone_iff_eq_none.1 hnone))
    · exact absurd ((Option.isSome_iff_ne_none.1 h)) (not_not.2 (Option.isNone_iff_eq_none.1 hnone))

end

/-! ### The rows -/

section
variable {s : State} {port : Port}

/-- A row that writes a keyed word of page 1, without the unlock or while READY is 0 (R276, R417). -/
theorem keyedRow (c : Instr) (w : Nat) (v : Word) (hkey : keyedWord 1 w = true) (hw : w ≤ 0xFF)
    (hrow : ∀ s, exec c s = .next (s.regWrite port 1 w v 0)) :
    (s.dev.ready = false → exec c s = .next (s.wroteError port 5))
    ∧ (s.dev.ready = true → s.unlockedBy port = false → ∃ t, exec c s = .next t ∧ s.KeyViolated port t) :=
  ⟨fun h => (hrow s).trans (congrArg Host.Outcome.next (regWrite_notReady h)),
    fun h hlock => ⟨_, (hrow s).trans (congrArg Host.Outcome.next (regWrite_locked_keyed h hkey hw hlock 0)), keyViolation_violates s port⟩⟩

theorem exec_keyedRow_locked {c : Instr} (hc : c ∈ ([.mportBlockReset port, .quartzBlockReset port, .syncBlockReset port, .sbandBlockReset port,
      .optionsWrite port, .deviceKeyLoad port, .firmwareKeyLoad port] : List Instr) ++ allGroups.map (fun g => Instr.groupBlockReset port g)) :
    (s.dev.ready = false → exec c s = .next (s.wroteError port 5))
    ∧ (s.dev.ready = true → s.unlockedBy port = false → ∃ t, exec c s = .next t ∧ s.KeyViolated port t) := by
  simp only [List.mem_append, List.mem_cons, List.not_mem_nil, or_false, List.mem_map] at hc
  rcases hc with (rfl | rfl | rfl | rfl | rfl | rfl | rfl) | ⟨g, -, rfl⟩
  · exact keyedRow _ 1 0x00010000 rfl (by decide) fun _ => rfl
  · exact keyedRow _ 1 0x00020000 rfl (by decide) fun _ => rfl
  · exact keyedRow _ 1 0x00040000 rfl (by decide) fun _ => rfl
  · exact keyedRow _ 1 0x00080000 rfl (by decide) fun _ => rfl
  · exact keyedRow _ 4 1 rfl (by decide) fun _ => rfl
  · exact keyedRow _ 4 2 rfl (by decide) fun _ => rfl
  · exact keyedRow _ 4 3 rfl (by decide) fun _ => rfl
  · exact keyedRow _ 1 (BitVec.ofNat 32 (2 ^ g.val)) rfl (by decide) fun _ => rfl

variable {v : Word} {t : State} {e : Nat}

theorem regWrite_optCtl_ok (hready : s.dev.ready = true) (hopen : s.unlockedBy port = true) (h : (s.setUnlock port false).optCtl port v = .ok t) :
    s.regWrite port 1 4 v 0 = t.healWord 1 4 :=
  regWrite_ok (mayWrite_unlocked hready (by decide) (by decide) hopen) rfl h

theorem regWrite_optCtl_error (hready : s.dev.ready = true) (hopen : s.unlockedBy port = true)
    (h : (s.setUnlock port false).optCtl port v = .error e) : s.regWrite port 1 4 v 0 = s.wroteError port e :=
  regWrite_error (mayWrite_unlocked hready (by decide) (by decide) hopen) rfl h

theorem setUnlock_nvm (s : State) (p : Port) (on : Bool) : (s.setUnlock p on).nvm = s.nvm := by cases p <;> rfl

theorem anyEnabled_off (h : ∀ n, (s.ax n).drv.enabled = false) : s.anyEnabled = false :=
  Bool.eq_false_iff.2 fun hon => by
    obtain ⟨n, hn⟩ := (anyEnabled_iff s).1 hon
    exact absurd hn (by rw [h n]; decide)

theorem exec_optionsWrite (hready : s.dev.ready = true) (hopen : s.unlockedBy port = true) (hbusy : s.dev.optBusy = false)
    (hoff : ∀ n, (s.ax n).drv.enabled = false) (hlc : s.nvm.lc ≠ .retired) :
    (optionsOk s.dev.staging = true → exec (.optionsWrite port) s = .next { s.wrote port 1 4 with
      dev := { (s.wrote port 1 4).dev with optBusy := true, optWrite := some s.dev.staging }
      nvm := { s.nvm with pulse := s.nvm.pulse || s.sb.vdd } })
    ∧ (optionsOk s.dev.staging = false → exec (.optionsWrite port) s = .next (s.wroteError port 3)) := by
  have hw := optCtl_write (s := s.setUnlock port false) (p := port) (by rw [setUnlock_dev]; exact hbusy)
    (by rw [setUnlock_anyEnabled]; exact anyEnabled_off hoff) (by rw [setUnlock_nvm]; exact hlc)
  rw [setUnlock_dev] at hw
  constructor
  · intro hin
    refine congrArg Host.Outcome.next ((regWrite_optCtl_ok hready hopen (hw.trans (if_pos hin))).trans ?_)
    cases port <;> rfl
  · exact fun hin => congrArg Host.Outcome.next (regWrite_optCtl_error hready hopen (hw.trans (if_neg (by rw [hin]; decide))))

theorem exec_optionsWrite_enabled (hready : s.dev.ready = true) (hopen : s.unlockedBy port = true) (hbusy : s.dev.optBusy = false)
    (hon : ∃ n, (s.ax n).drv.enabled = true) : exec (.optionsWrite port) s = .next (s.wroteError port 2) :=
  congrArg Host.Outcome.next (regWrite_optCtl_error hready hopen (optCtl_write_enabled (by rw [setUnlock_dev]; exact hbusy)
    (by rw [setUnlock_anyEnabled]; exact (anyEnabled_iff s).2 hon)))

theorem exec_deviceKeyLoad (hready : s.dev.ready = true) (hopen : s.unlockedBy port = true) (hbusy : s.dev.optBusy = false) :
    exec (.deviceKeyLoad port) s = .next (((s.setUnlock port false).loadKey port false).healWord 1 4) :=
  congrArg Host.Outcome.next (regWrite_optCtl_ok hready hopen (optCtl_devKey (by rw [setUnlock_dev]; exact hbusy)))

theorem exec_firmwareKeyLoad (hready : s.dev.ready = true) (hopen : s.unlockedBy port = true) (hbusy : s.dev.optBusy = false) :
    exec (.firmwareKeyLoad port) s = .next (((s.setUnlock port false).loadKey port true).healWord 1 4) :=
  congrArg Host.Outcome.next (regWrite_optCtl_ok hready hopen (optCtl_fwKey (by rw [setUnlock_dev]; exact hbusy)))

theorem exec_deviceKeyLoad_first (hready : s.dev.ready = true) (hopen : s.unlockedBy port = true) (hbusy : s.dev.optBusy = false)
    (hlc : s.nvm.lc = .manufacture) (hkey : s.nvm.devKey = none) : exec (.deviceKeyLoad port) s = .next { s.wrote port 1 4 with
      dev := { (s.wrote port 1 4).dev with staging := Vector.replicate 64 0 }
      nvm := { s.nvm with devKey := some ((optBytes s.dev.staging).take 16) } } := by
  rw [exec_deviceKeyLoad hready hopen hbusy, loadKey_device (by rw [setUnlock_nvm]; exact hlc) (by rw [setUnlock_nvm]; exact hkey)]
  cases port <;> rfl

theorem exec_firmwareKeyLoad_first (hready : s.dev.ready = true) (hopen : s.unlockedBy port = true) (hbusy : s.dev.optBusy = false)
    (hlc : s.nvm.lc = .manufacture) (hkey : s.nvm.fwKey = none) : exec (.firmwareKeyLoad port) s = .next { s.wrote port 1 4 with
      dev := { (s.wrote port 1 4).dev with staging := Vector.replicate 64 0 }
      nvm := { s.nvm with fwKey := some ((optBytes s.dev.staging).take 64) } } := by
  rw [exec_firmwareKeyLoad hready hopen hbusy, loadKey_firmware (by rw [setUnlock_nvm]; exact hlc) (by rw [setUnlock_nvm]; exact hkey)]
  cases port <;> rfl

theorem exec_keyLoad_refused (hready : s.dev.ready = true) (hopen : s.unlockedBy port = true) (hbusy : s.dev.optBusy = false) {c : Instr}
    (hc : (c = Instr.deviceKeyLoad port ∧ (s.nvm.lc ≠ .manufacture ∨ s.nvm.devKey.isSome = true))
      ∨ (c = Instr.firmwareKeyLoad port ∧ (s.nvm.lc ≠ .manufacture ∨ s.nvm.fwKey.isSome = true))) :
    ∃ t, exec c s = .next t ∧ s.KeyRefused port t := by
  refine ⟨_, ?_, wonceViol_keyRefused s port⟩
  rcases hc with ⟨rfl, h⟩ | ⟨rfl, h⟩
  · rw [exec_deviceKeyLoad hready hopen hbusy, loadKey_refused (by rw [setUnlock_nvm]; exact h)]
  · rw [exec_firmwareKeyLoad hready hopen hbusy, loadKey_refused (by rw [setUnlock_nvm]; exact h)]

end

/-- Settles O35: every row of a keyed word is one write of page 1, which finds the port locked or hands the word to OPT_CTL. A refused
key load leaves the staging words as they are: the model's choice (notes/assumptions/77.md). -/
theorem keyedWordsNeedTheirUnlock : Obligations.KeyedWordsNeedTheirUnlock := by
  unfold Obligations.KeyedWordsNeedTheirUnlock
  refine ⟨fun s port c hc => exec_keyedRow_locked hc, fun s port hready hopen hbusy =>
    ⟨exec_optionsWrite hready hopen hbusy, exec_optionsWrite_enabled hready hopen hbusy, exec_deviceKeyLoad_first hready hopen hbusy,
      exec_firmwareKeyLoad_first hready hopen hbusy, fun c hc => ?_⟩⟩
  obtain ⟨t, hex, href⟩ := exec_keyLoad_refused hready hopen hbusy hc
  obtain ⟨h1, h2, h3, h4, h5, h6, h7, h8⟩ := href
  refine ⟨t, hex, h1, h2, h3, h4, h5, h6, h7, ?_⟩
  cases port <;> exact h8

end Sys2Proof.Machine
end

section
/-! PROOF. The resets of one block (12_opcodes.md R338; 15_reset_lifecycle.md R396 to R399; 19_registers_device.md R478, R490, R497;
notes/assumptions/74.md, 122.md). -/
namespace Sys2Proof.Machine
open Sys2Proof

/-! ### What the reset of each block does -/

theorem mem_groupAxes (g : GroupId) (n : AxisId) : n ∈ groupAxes g ↔ groupOf n = g := by
  simp only [groupAxes, List.mem_map, List.mem_finRange, true_and]
  refine ⟨?_, fun h => ⟨⟨n.val % 4, by omega⟩, ?_⟩⟩
  · rintro ⟨k, rfl⟩
    exact Fin.ext (by simp only [groupOf, axisAt]; omega)
  · rw [← h]
    exact Fin.ext (by simp only [groupOf, axisAt]; omega)

/-- An axis whose group is reset (R396). -/
def State.axisReset (s : State) (m7 : Int) (n : AxisId) : State := (s.dropAll n .flushed none).modAxis n fun x => x.reset m7

/-- The reset keeps nothing of what the end of the segments has changed. -/
theorem axisReset_endsOn (s : State) (m7 : Int) (n : AxisId) : s.endsOn (s.axisReset m7 n) n fun x => x.reset m7 :=
  endsOn_congr (endsOn_trans (dropAll_endsOn s n .flushed none) (modAxis_endsOn _ n fun x => x.reset m7)) rfl

/-- `t` is `s` but for the axes, coils, legs, converters, groups, queues and the side-band port. -/
def State.onlyUnits (s t : State) : Prop :=
  t = { s with axes := t.axes, coils := t.coils, legs := t.legs, adcs := t.adcs, groups := t.groups, q := t.q, sb := t.sb }
    ∧ t.q.packets = s.q.packets

theorem onlyUnits_trans {s t u : State} (h : s.onlyUnits t) (k : t.onlyUnits u) : s.onlyUnits u := by
  obtain ⟨h1, h2⟩ := h
  obtain ⟨k1, k2⟩ := k
  exact ⟨by rw [k1, h1], k2.trans h2⟩

theorem onlyUnits_forAll {α : Type} {s : State} (l : List α) (f : State → α → State) (hf : ∀ t a, State.onlyUnits t (f t a)) : s.onlyUnits (s.forAll l f) :=
  forAll_keeps (fun t => s.onlyUnits t) l f (fun t a _ h => onlyUnits_trans h (hf t a)) s ⟨rfl, rfl⟩

/-- What the reset of a group does to its axes, legs and page, before the parity of its words is forgotten. -/
structure State.GroupReset (s : State) (g : GroupId) (t : State) : Prop where
  units : t = { s with dev := t.dev, axes := t.axes, coils := t.coils, legs := t.legs, adcs := t.adcs, groups := t.groups, q := t.q, sb := t.sb }
  packets : t.q.packets = s.q.packets
  cmds : t.dev.blkCmds = s.dev.blkCmds
  axes : ∀ n, t.ax n = if groupOf n = g then (s.ax n).reset s.m7 else s.ax n
  legs : ∀ m, t.leg m = if groupOfLeg m = g then (s.leg m).reset else s.leg m
  group : t.grp g = (s.grp g).reset
  others : ∀ k, k ≠ g → t.grp k = s.grp k

theorem resetGroup_resets (s : State) (g : GroupId) : s.GroupReset g (s.resetGroup g) := by
  unfold State.resetGroup
  extract_lets m7 s1 s2 s3 s4
  have h1 : s.onlyUnits s1 := onlyUnits_forAll _ _ fun t n => by
    obtain ⟨h, hp, -⟩ := axisReset_endsOn t m7 n
    exact ⟨by rw [show (t.dropAll n .flushed none).modAxis n (fun x => x.reset m7) = t.axisReset m7 n from rfl, h], hp⟩
  have h2 : s1.onlyUnits s2 := onlyUnits_forAll _ _ fun _ _ => ⟨rfl, rfl⟩
  have h3 : s2.onlyUnits s3 := onlyUnits_forAll _ _ fun _ _ => ⟨rfl, rfl⟩
  have h4 : s3.onlyUnits s4 := onlyUnits_forAll _ _ fun t a => by
    by_cases ha : groupOfAdc a = g
    · rw [if_pos ha]
      exact ⟨rfl, rfl⟩
    · rw [if_neg ha]
      exact ⟨rfl, rfl⟩
  have hunits : s.onlyUnits s4 := onlyUnits_trans (onlyUnits_trans (onlyUnits_trans h1 h2) h3) h4
  have hadc {β : Type} (f : State → β) (hf : ∀ (t : State) a F, f (t.modAdc a F) = f t) : f s4 = f s3 :=
    forAll_same f _ _ (fun t a _ => by
      by_cases ha : groupOfAdc a = g
      · rw [if_pos ha]
        exact hf ..
      · rw [if_neg ha]) s3
  have hcoil {β : Type} (f : State → β) (hf : ∀ (t : State) c F, f (t.modCoil c F) = f t) : f s3 = f s2 :=
    forAll_same f _ (fun t c => t.modCoil c fun _ => {}) (fun t c _ => hf ..) s2
  have haxes : s4.axes = s1.axes :=
    ((hadc State.axes fun _ _ _ => rfl).trans (hcoil State.axes fun _ _ _ => rfl)).trans
      (forAll_same State.axes _ (fun t m => t.modLeg m Leg.reset) (fun _ _ _ => rfl) s1)
  have hlegs : s4.legs = s2.legs := (hadc State.legs fun _ _ _ => rfl).trans (hcoil State.legs fun _ _ _ => rfl)
  have hlegs1 : s1.legs = s.legs := forAll_same State.legs _ (fun (t : State) n => t.axisReset m7 n) (fun t n _ => by
    obtain ⟨h, -, -⟩ := axisReset_endsOn t m7 n
    rw [h]) s
  have hgroups : s4.groups = s.groups :=
    (((hadc State.groups fun _ _ _ => rfl).trans (hcoil State.groups fun _ _ _ => rfl)).trans
      (forAll_same State.groups _ (fun t m => t.modLeg m Leg.reset) (fun _ _ _ => rfl) s1)).trans
      (forAll_same State.groups _ (fun (t : State) n => t.axisReset m7 n) (fun t n _ => by
        obtain ⟨h, -, -⟩ := axisReset_endsOn t m7 n
        rw [h]) s)
  obtain ⟨hu, hpk⟩ := hunits
  have hdev : s4.dev = s.dev := (congrArg State.dev hu :)
  refine ⟨?_, hpk, (congrArg (fun d => d.blkCmds) hdev :), fun n => ?_, fun m => ?_, ?_, fun k hk => ?_⟩
  · clear_value s4
    rw [hu]
    rfl
  · have h := forAll_ax (groupAxes_nodup g) (f := fun (t : State) n => t.axisReset m7 n) (F := fun _ x => x.reset m7)
      (fun t n => congrArg State.axes (axisReset_endsOn t m7 n).1) s n
    exact (congrArg (fun v : Vector Axis 48 => v[n]) haxes).trans (h.trans (if_congr (mem_groupAxes g n) rfl rfl))
  · have h := forAll_modLeg ((List.finRange 16).map (legAt g)) Leg.reset (fun _ => rfl) s1 m
    exact (congrArg (fun v : Vector Leg 192 => v[m]) hlegs).trans (h.trans (if_congr (mem_groupLegs g m)
      (congrArg (fun v : Vector Leg 192 => v[m].reset) hlegs1) (congrArg (fun v : Vector Leg 192 => v[m]) hlegs1)))
  · exact (upd_self s4.groups g Group.reset).trans (congrArg (fun v : Vector Group 12 => Group.reset v[g]) hgroups)
  · exact (upd_other s4.groups g k Group.reset hk).trans (congrArg (fun v : Vector Group 12 => v[k]) hgroups)

/-! ### The bits of BLK_RST (R398, R478) -/

theorem getLsbD_setBit : ∀ (x : BitVec 4) (i : Fin 4), (x ||| BitVec.ofNat 4 (2 ^ i.val)).getLsbD i.val = true := by decide

theorem getLsbD_clearBit : ∀ (x : BitVec 4) (i k : Fin 4),
    (x &&& ~~~ BitVec.ofNat 4 (2 ^ i.val)).getLsbD k.val = (x.getLsbD k.val && decide (k ≠ i)) := by decide

/-- A block that the reset of `s` leaves running, with the commands and packets as they were. -/
theorem startBlock_runs (s : State) {b : Nat} (hb : b < 12 ∨ (16 ≤ b ∧ b < 20)) :
    (s.startBlock b).blockRunning b = true ∧ (s.startBlock b).dev.blkCmds = s.dev.blkCmds ∧ (s.startBlock b).q.packets = s.q.packets := by
  rcases hb with hb | hb
  · have h := resetGroup_resets s ⟨b, hb⟩
    rw [show s.startBlock b = s.resetGroup ⟨b, hb⟩ from dif_pos hb]
    exact ⟨(dif_pos hb).trans (congrArg Group.resetting h.group), h.cmds, h.packets⟩
  · have hn : ¬ b < 12 := by omega
    have hrun (t : State) : State.blockRunning { t with mp := { t.mp with blkRst := t.mp.blkRst ||| BitVec.ofNat 4 (2 ^ (b - 16)) } } b = true :=
      (dif_neg hn).trans (getLsbD_setBit t.mp.blkRst ⟨b - 16, by omega⟩)
    rw [show s.startBlock b = _ from dif_neg hn]
    refine ⟨hrun _, ?_⟩
    obtain rfl | rfl | rfl | rfl : b = 16 ∨ b = 17 ∨ b = 18 ∨ b = 19 := by omega
    · exact ⟨rfl, rfl⟩
    · exact ⟨rfl, rfl⟩
    · change s.resetSync.dev.blkCmds = s.dev.blkCmds ∧ s.resetSync.q.packets = s.q.packets
      unfold State.resetSync
      extract_lets t u
      cases t.epoch with
      | none => exact ⟨rfl, rfl⟩
      | some e =>
        change (u.complete e.ref .rejectState 0 0xFF u.m7pos noField).dev.blkCmds = u.dev.blkCmds
          ∧ (u.complete e.ref .rejectState 0 0xFF u.m7pos noField).q.packets = u.q.packets
        exact ⟨by rw [complete_frame], (complete_kept ..).1⟩
    · exact ⟨rfl, rfl⟩

theorem requestBlock_busy {s : State} {b r : Nat} {own : Bool} (h : s.blockBusy b own = some r) :
    s.requestBlock b own = { s with dev := { s.dev with refReason := BitVec.ofNat 8 r, refBit := BitVec.ofNat 5 b } } := by
  unfold State.requestBlock
  rw [h]

theorem requestBlock_idle {s : State} {b : Nat} {own : Bool} (h : s.blockBusy b own = none) : s.requestBlock b own = s.startBlock b := by
  unfold State.requestBlock
  rw [h]

/-! ### BLOCK_RESET and BLOCK_RESET_END (R338) -/

section
variable {s : State} {core : CoreId} {p : Packet} {b : Nat}

theorem blockReset_passes (hkey : uAt p.params 0 2 = 0xC3A5) (hres : uAt p.params 3 1 = 0)
    (hb : b < 12 ∨ (16 ≤ b ∧ b < 20)) : passes [badKey p.params 0, badField 2 (!blockBit b), reserved p.params 3 1] := by
  have hblock : blockBit b = true := by simpa [blockBit] using hb
  rw [hblock]
  unfold passes
  simp [firstFailure_cons, firstFailure_nil, badKey, badField, reserved, hkey, hres]

theorem exec_blockReset_busy (h : s.Admits core 0x50 p) (hkey : uAt p.params 0 2 = 0xC3A5) (hbit : uAt p.params 2 1 = b)
    (hres : uAt p.params 3 1 = 0) (hb : b < 12 ∨ (16 ≤ b ∧ b < 20)) {r : Nat} (hr : s.blockBusy b false = some r) :
    exec (.blockReset core) s = .next { s.answered p .rejectState p.axis (BitVec.ofNat 32 r) with
      dev := { s.dev with refReason := BitVec.ofNat 8 r, refBit := BitVec.ofNat 5 b } } := by
  have hbusy : (s.started p).blockBusy b false = some r := hr
  rw [exec_row blockResetBody rfl h]
  unfold blockResetBody
  simp only [hbit]
  rw [guarded_passes (blockReset_passes hkey hres hb), hbusy]
  simp only [requestBlock_busy hbusy]
  have hs : s.dev.suspended = false := Admits.susp h
  have hh : s.dev.safeHold = false := Admits.hold h
  exact congrArg Host.Outcome.next (answer_changed (s := s) (p := p)
    (t := { s.started p with dev := { s.dev with refReason := BitVec.ofNat 8 r, refBit := BitVec.ofNat 5 b } })
    hs hh rfl (fun _ => rfl) rfl .rejectState (BitVec.ofNat 32 r))

theorem exec_blockReset_idle (h : s.Admits core 0x50 p) (hkey : uAt p.params 0 2 = 0xC3A5) (hbit : uAt p.params 2 1 = b)
    (hres : uAt p.params 3 1 = 0) (hb : b < 12 ∨ (16 ≤ b ∧ b < 20)) (hidle : s.blockBusy b false = none) :
    ∃ t, exec (.blockReset core) s = .next t ∧ t.blockRunning b = true ∧ t.dev.blkCmds = s.dev.blkCmds ++ [(p.ref, b)]
      ∧ t.q.packets = (s.started p).q.packets := by
  obtain ⟨hrun, hcmds, hpackets⟩ := startBlock_runs (s.started p) hb
  have hnone : (s.started p).blockBusy b false = none := hidle
  rw [exec_row blockResetBody rfl h]
  unfold blockResetBody
  simp only [hbit]
  rw [guarded_passes (blockReset_passes hkey hres hb), hnone]
  simp only [requestBlock_idle hnone]
  exact ⟨_, rfl, hrun, congrArg (· ++ [(p.ref, b)]) hcmds, hpackets⟩

end

/-- A block is in operation again. -/
def State.blockFreed (s : State) (b : Fin 20) : State :=
  if h : b.val < 12 then s.modGroup ⟨b.val, h⟩ fun x => { x with resetting := false }
  else if b.val < 16 then s
  else { s with mp := { s.mp with blkRst := s.mp.blkRst &&& ~~~ BitVec.ofNat 4 (2 ^ (b.val - 16)) } }

section
variable {s : State} {b : Fin 20}

theorem blockFreed_frame (s : State) (b : Fin 20) : s.blockFreed b = { s with
    groups := (s.blockFreed b).groups
    mp := { s.mp with blkRst := (s.blockFreed b).mp.blkRst } } := by
  unfold State.blockFreed
  split
  · rfl
  split <;> rfl

theorem blockFreed_running (s : State) (hb : b.val < 12 ∨ 16 ≤ b.val) (k : Fin 20) (hk : k.val < 12 ∨ 16 ≤ k.val) :
    (s.blockFreed b).blockRunning k.val = (s.blockRunning k.val && decide (k ≠ b)) := by
  unfold State.blockFreed State.blockRunning
  by_cases hb' : b.val < 12
  · rw [dif_pos hb']
    by_cases hk' : k.val < 12
    · rw [dif_pos hk', dif_pos hk']
      by_cases heq : k = b
      · subst heq
        rw [show (s.modGroup ⟨k.val, hb'⟩ fun x => { x with resetting := false }).grp ⟨k.val, hk'⟩ = _ from upd_self ..]
        simp
      · rw [show (s.modGroup ⟨b.val, hb'⟩ fun x => { x with resetting := false }).grp ⟨k.val, hk'⟩ = s.grp ⟨k.val, hk'⟩ from
          upd_other _ _ _ _ fun h => heq (Fin.ext (Fin.mk.inj h))]
        simp [heq]
    · rw [dif_neg hk', dif_neg hk']
      have hne : k ≠ b := fun h => hk' (h ▸ hb')
      simp [hne]
  · rw [dif_neg hb', if_neg (by omega)]
    by_cases hk' : k.val < 12
    · rw [dif_pos hk', dif_pos hk']
      have hne : k ≠ b := fun h => hb' (h ▸ hk')
      rw [decide_eq_true hne, Bool.and_true]
      rfl
    · rw [dif_neg hk', dif_neg hk']
      have hne : k ≠ b ↔ (⟨k.val - 16, by omega⟩ : Fin 4) ≠ ⟨b.val - 16, by omega⟩ :=
        not_congr ⟨fun h => by subst h; rfl, fun h => Fin.ext (by have := congrArg Fin.val h; simp only [] at this; omega)⟩
      rw [decide_eq_decide.2 hne]
      exact getLsbD_clearBit s.mp.blkRst ⟨b.val - 16, by omega⟩ ⟨k.val - 16, by omega⟩

/-- The command that asked for the reset completes OK (R338). -/
theorem blockEnd_entered {tag : BitVec 16} {q : BitVec 4} (hc : s.dev.blkCmds = [(.host tag q, b.val)]) :
    s.blockEnd b = { s.blockFreed b with
      dev := { s.dev with blkCmds := [] }, q := s.entered [⟨tag, .ok, 0, 0xFF, q, s.m7pos, 0, false⟩] } := by
  have hframe := blockFreed_frame s b
  change State.forAll { s.blockFreed b with dev := { (s.blockFreed b).dev with blkCmds := s.dev.blkCmds.filter fun c => c.2 ≠ b.val } }
    (s.dev.blkCmds.filter fun c => c.2 = b.val) (fun t c => t.complete c.1 .ok 0 0xFF t.m7pos 0) = _
  rw [hc]
  have h1 : ([(CmdRef.host tag q, b.val)].filter fun c => c.2 ≠ b.val) = [] := by simp
  have h2 : ([(CmdRef.host tag q, b.val)].filter fun c => c.2 = b.val) = [(CmdRef.host tag q, b.val)] := by simp
  rw [h1, h2, forAll_cons]
  generalize s.blockFreed b = u at hframe
  rw [hframe]
  exact complete_entered ..

theorem discover_frame (s : State) : s.discover = { s with mp := { s.mp with
    dev0 := s.discover.mp.dev0, dev1 := s.discover.mp.dev1, cfgErr := s.discover.mp.cfgErr } } := rfl

theorem discover_dev0 (s : State) : s.discover.mp.dev0 = true ↔ ∃ x, s.mp.chip0 = some x ∧ qualifies x = true := by
  change (s.mp.chip0.map qualifies).getD false = true ↔ _
  cases s.mp.chip0 <;> simp

theorem discover_dev1 (s : State) : s.discover.mp.dev1 = true ↔ ∃ x, s.mp.chip1 = some x ∧ qualifies x = true := by
  change (s.mp.chip1.map qualifies).getD false = true ↔ _
  cases s.mp.chip1 <;> simp

/-- The state whose block is freed: the memory port's, after its discovery (R364). -/
def State.rediscovered (s : State) (b : Fin 20) : State := if b = 16 && s.mp.blkRst.getLsbD 0 then s.discover else s

theorem rediscovered_frame (s : State) (b : Fin 20) : s.rediscovered b = { s with mp := { s.mp with
    dev0 := (s.rediscovered b).mp.dev0, dev1 := (s.rediscovered b).mp.dev1, cfgErr := (s.rediscovered b).mp.cfgErr } } := by
  unfold State.rediscovered
  split
  · exact discover_frame s
  · rfl

theorem exec_blockResetEnd {tag : BitVec 16} {q : BitVec 4} (hb : b.val < 12 ∨ 16 ≤ b.val) (hc : s.dev.blkCmds = [(.host tag q, b.val)]) :
    ∃ t, exec (.blockResetEnd b) s = .next t ∧ t.blockRunning b.val = false ∧ t.dev.blkCmds = []
      ∧ t.q = s.entered [⟨tag, .ok, 0, 0xFF, q, s.m7pos, 0, false⟩]
      ∧ (∀ k : Fin 20, k ≠ b → (k.val < 12 ∨ 16 ≤ k.val) → t.blockRunning k.val = s.blockRunning k.val) ∧ t.axes = s.axes ∧ t.legs = s.legs
      ∧ t.tb = s.tb ∧ t.sb = s.sb ∧ t.nvm = s.nvm
      ∧ (b = 16 → s.blockRunning 16 = true →
          (t.mp.dev0 = true ↔ ∃ x, s.mp.chip0 = some x ∧ qualifies x = true)
          ∧ (t.mp.dev1 = true ↔ ∃ x, s.mp.chip1 = some x ∧ qualifies x = true) ∧ t.mp.flash = s.mp.flash) := by
  have hu := rediscovered_frame s b
  have hport : b = 16 → s.blockRunning 16 = true → s.rediscovered b = s.discover := fun h hrun =>
    if_pos (by rw [h]; exact hrun)
  refine ⟨(s.rediscovered b).blockEnd b, rfl, ?_⟩
  generalize s.rediscovered b = u at hu hport
  have hrun (k : Nat) : u.blockRunning k = s.blockRunning k := by rw [hu]; rfl
  have hf := blockFreed_frame u b
  have hfree (k : Fin 20) := blockFreed_running (b := b) u hb k
  rw [blockEnd_entered (s := u) (by rw [hu]; exact hc)]
  have hent (l : List Completion) : u.entered l = s.entered l := by rw [hu]; rfl
  refine ⟨?_, rfl, ?_, fun k hk hk' => ?_, ?_, ?_, ?_, ?_, ?_, fun h hr => ?_⟩
  · exact (hfree b hb).trans (by simp)
  · rw [hu]; rfl
  · exact (hfree k hk').trans (by rw [hrun]; simp [hk])
  · rw [hf, hu]
  · rw [hf, hu]
  · rw [hf, hu]
  · rw [hf, hu]
  · rw [hf, hu]
  · have hd := hport h hr
    rw [hf, hd]
    exact ⟨discover_dev0 s, discover_dev1 s, rfl⟩

end

/-! ### Resets through BLK_RST (R396, R398, R399) -/

section
variable {s : State} {port : Port}

theorem namedBlocks : ∀ b : Fin 20, blockBit b.val = true →
    ((List.range 20).filter fun k => blockBit k && bitOf (BitVec.ofNat 32 (2 ^ b.val)) k) = [b.val] := by decide

theorem regWrite_blkRst (hready : s.dev.ready = true) (hopen : s.unlockedBy port = true) (b : Fin 20) (hb : blockBit b.val = true) :
    s.regWrite port 1 1 (BitVec.ofNat 32 (2 ^ b.val)) 0
      = ((s.setUnlock port false).requestBlock b.val (port = .sideband)).healWord 1 1 := by
  refine (regWrite_ok (mayWrite_unlocked hready (by decide) (by decide) hopen) rfl
    (t := (s.setUnlock port false).writeBlkRst (BitVec.ofNat 32 (2 ^ b.val)) (port = .sideband)) rfl).trans ?_
  unfold State.writeBlkRst
  rw [namedBlocks b hb]
  rfl

theorem setUnlock_blockBusy (s : State) (p : Port) (on : Bool) (b : Nat) (own : Bool) : (s.setUnlock p on).blockBusy b own = s.blockBusy b own := by
  cases p <;> rfl

theorem regWrite_blkRst_busy (hready : s.dev.ready = true) (hopen : s.unlockedBy port = true) (b : Fin 20) (hb : blockBit b.val = true) {r : Nat}
    (hr : s.blockBusy b.val (port = .sideband) = some r) : s.regWrite port 1 1 (BitVec.ofNat 32 (2 ^ b.val)) 0 = { s.wrote port 1 1 with
      dev := { (s.wrote port 1 1).dev with refReason := BitVec.ofNat 8 r, refBit := BitVec.ofNat 5 b.val } } := by
  rw [regWrite_blkRst hready hopen b hb, requestBlock_busy (by rw [setUnlock_blockBusy]; exact hr)]
  cases port <;> rfl

theorem regWrite_blkRst_idle (hready : s.dev.ready = true) (hopen : s.unlockedBy port = true) (b : Fin 20) (hb : blockBit b.val = true)
    (hidle : s.blockBusy b.val (port = .sideband) = none) :
    s.regWrite port 1 1 (BitVec.ofNat 32 (2 ^ b.val)) 0 = ((s.setUnlock port false).startBlock b.val).healWord 1 1 := by
  rw [regWrite_blkRst hready hopen b hb, requestBlock_idle (by rw [setUnlock_blockBusy]; exact hidle)]

/-- The rows that write BLK_RST. -/
theorem exec_blockResets {c : Instr} {b : Nat} (hc : (c, b) ∈ ([(.mportBlockReset port, 16), (.quartzBlockReset port, 17), (.syncBlockReset port, 18),
      (.sbandBlockReset port, 19)] : List (Instr × Nat)) ++ allGroups.map (fun g => (Instr.groupBlockReset port g, g.val))) :
    ∃ h : b < 20, blockBit b = true ∧ exec c s = .next (s.regWrite port 1 1 (BitVec.ofNat 32 (2 ^ (⟨b, h⟩ : Fin 20).val)) 0) := by
  simp only [List.mem_append, List.mem_cons, List.not_mem_nil, or_false, List.mem_map, Prod.mk.injEq] at hc
  rcases hc with (⟨rfl, rfl⟩ | ⟨rfl, rfl⟩ | ⟨rfl, rfl⟩ | ⟨rfl, rfl⟩) | ⟨g, -, rfl, rfl⟩
  · exact ⟨by decide, by decide, rfl⟩
  · exact ⟨by decide, by decide, rfl⟩
  · exact ⟨by decide, by decide, rfl⟩
  · exact ⟨by decide, by decide, rfl⟩
  · exact ⟨by omega, by simp [blockBit], rfl⟩

theorem exec_mportBlockReset (hready : s.dev.ready = true) (hopen : s.unlockedBy port = true) (hidle : s.blockBusy 16 (port = .sideband) = none) :
    exec (.mportBlockReset port) s = .next { s.wrote port 1 1 with
      mp := { s.mp with flErr := false, dev0 := false, dev1 := false, cfgErr := true, lines := [], cont0 := false, cont1 := false
                        running := none, blkRst := s.mp.blkRst ||| 1 } } := by
  refine congrArg Host.Outcome.next ((regWrite_blkRst_idle hready hopen 16 rfl hidle).trans ?_)
  cases port <;> rfl

theorem exec_sbandBlockReset (hready : s.dev.ready = true) (hopen : s.unlockedBy port = true) (hidle : s.blockBusy 19 (port = .sideband) = none) :
    exec (.sbandBlockReset port) s = .next { s.wrote port 1 1 with
      sb := { (s.wrote port 1 1).sb with causes := 0, announced := 0, shadow := [], holding := [], unlocked := false, regErr := 0
                                         lastCmd := 0, result := 0, dataOut := [] }
      mp := { s.mp with blkRst := s.mp.blkRst ||| 8 } } := by
  refine congrArg Host.Outcome.next ((regWrite_blkRst_idle hready hopen 19 rfl hidle).trans ?_)
  cases port <;> rfl

theorem resetQuartz_leg (s : State) (m : LegId) : s.resetQuartz.leg m =
    { (s.leg m).forgetTerms with os := (s.legTrim m).os, gs := (s.legTrim m).gs0 } := by
  unfold State.leg State.resetQuartz State.loadTrims
  simp only [Fin.getElem_fin, Vector.getElem_ofFn, Vector.getElem_map]
  rfl

theorem resetQuartz_adc (s : State) (a : AdcId) : s.resetQuartz.adc a = { oa := (s.adcTrim a).oa, ga := (s.adcTrim a).ga } := by
  unfold State.adc State.resetQuartz State.loadTrims
  simp only [Fin.getElem_fin, Vector.getElem_ofFn, Vector.getElem_replicate]
  rfl

theorem resetQuartz_grp (s : State) (g : GroupId) : s.resetQuartz.grp g = { (s.grp g).forgetTaps with taps := s.tapTrim g } := by
  unfold State.grp State.resetQuartz State.loadTrims
  simp only [Fin.getElem_fin, Vector.getElem_ofFn, Vector.getElem_map]
  rfl

theorem resetQuartz_frame (s : State) : s.resetQuartz = { s with legs := s.resetQuartz.legs, adcs := s.resetQuartz.adcs, groups := s.resetQuartz.groups } := rfl

theorem exec_quartzBlockReset (hready : s.dev.ready = true) (hopen : s.unlockedBy port = true) (hidle : s.blockBusy 17 (port = .sideband) = none) :
    ∃ t, exec (.quartzBlockReset port) s = .next t ∧ t.mp = { s.mp with blkRst := s.mp.blkRst ||| 2 }
      ∧ (∀ m, (t.leg m).os = (s.legTrim m).os ∧ (t.leg m).gs = (s.legTrim m).gs0 ∧ (t.leg m).zring = [] ∧ (t.leg m).en = (s.leg m).en
          ∧ (t.leg m).on = (s.leg m).on ∧ (t.leg m).off = (s.leg m).off)
      ∧ (∀ a, (t.adc a).oa = (s.adcTrim a).oa ∧ (t.adc a).ga = (s.adcTrim a).ga)
      ∧ (∀ g, (t.grp g).taps = s.tapTrim g ∧ (t.grp g).fineLost = false) ∧ t.axes = s.axes ∧ t.tb = s.tb ∧ t.q = s.q := by
  have hblock : (s.setUnlock port false).startBlock 17 = { (s.setUnlock port false).resetQuartz with
      mp := { (s.setUnlock port false).resetQuartz.mp with blkRst := (s.setUnlock port false).resetQuartz.mp.blkRst ||| 2 } } := rfl
  have hframe := resetQuartz_frame (s.setUnlock port false)
  have hleg := resetQuartz_leg (s.setUnlock port false)
  have hadc := resetQuartz_adc (s.setUnlock port false)
  have hgrp := resetQuartz_grp (s.setUnlock port false)
  refine ⟨_, congrArg Host.Outcome.next ((regWrite_blkRst_idle hready hopen 17 rfl hidle).trans (congrArg (fun t : State => t.healWord 1 1) hblock)), ?_⟩
  generalize (s.setUnlock port false).resetQuartz = t at hframe hleg hadc hgrp
  refine ⟨?_, fun m => ?_, fun a => ?_, fun g => ?_, ?_, ?_, ?_⟩
  · exact (congrArg (fun u : State => { u.mp with blkRst := u.mp.blkRst ||| 2 }) hframe :).trans (by cases port <;> rfl)
  · change (t.leg m).os = _ ∧ (t.leg m).gs = _ ∧ (t.leg m).zring = _ ∧ (t.leg m).en = _ ∧ (t.leg m).on = _ ∧ (t.leg m).off = _
    rw [hleg m]
    cases port <;> exact ⟨rfl, rfl, rfl, rfl, rfl, rfl⟩
  · change (t.adc a).oa = _ ∧ (t.adc a).ga = _
    rw [hadc a]
    cases port <;> exact ⟨rfl, rfl⟩
  · change (t.grp g).taps = _ ∧ (t.grp g).fineLost = _
    rw [hgrp g]
    cases port <;> exact ⟨rfl, rfl⟩
  · exact (congrArg State.axes hframe :).trans (by cases port <;> rfl)
  · exact (congrArg State.tb hframe :).trans (setUnlock_tb ..)
  · exact (congrArg State.q hframe :).trans (by cases port <;> rfl)

theorem exec_syncBlockReset (hready : s.dev.ready = true) (hopen : s.unlockedBy port = true) (hidle : s.blockBusy 18 (port = .sideband) = none)
    (hepoch : s.tb.epoch = none) : ∃ t, exec (.syncBlockReset port) s = .next t
      ∧ t.mp = { s.mp with blkRst := s.mp.blkRst ||| 4 }
      ∧ t.tb = { s.tb with role := 0, roleEff := 0, trim := 0, slew := 0, pherr := 0, lockRun := 0, sincePulse := 0, syncLock := false
                           tsyncLow := false, pulseNow := false, pulseNext := false }
      ∧ t.axes = s.axes ∧ t.legs = s.legs ∧ t.q = s.q := by
  have hsync : (s.setUnlock port false).resetSync = { s.setUnlock port false with tb := { s.tb with
      role := 0, roleEff := 0, trim := 0, slew := 0, pherr := 0, lockRun := 0, sincePulse := 0, syncLock := false, tsyncLow := false
      pulseNow := false, pulseNext := false } } := by
    unfold State.resetSync
    rw [setUnlock_tb]
    simp only [hepoch]
  have hblock : (s.setUnlock port false).startBlock 18 = { (s.setUnlock port false).resetSync with
      mp := { (s.setUnlock port false).resetSync.mp with blkRst := (s.setUnlock port false).resetSync.mp.blkRst ||| 4 } } := rfl
  refine ⟨_, congrArg Host.Outcome.next (regWrite_blkRst_idle hready hopen 18 rfl hidle), ?_⟩
  change (((s.setUnlock port false).startBlock 18).healWord 1 1).mp = _ ∧ (((s.setUnlock port false).startBlock 18).healWord 1 1).tb = _
    ∧ (((s.setUnlock port false).startBlock 18).healWord 1 1).axes = _ ∧ (((s.setUnlock port false).startBlock 18).healWord 1 1).legs = _
    ∧ (((s.setUnlock port false).startBlock 18).healWord 1 1).q = _
  rw [hblock, hsync]
  cases port <;> exact ⟨rfl, rfl, rfl, rfl, rfl⟩

theorem exec_groupBlockReset (hready : s.dev.ready = true) (hopen : s.unlockedBy port = true) (g : GroupId)
    (hidle : s.blockBusy g.val (port = .sideband) = none) : ∃ t, exec (.groupBlockReset port g) s = .next t
      ∧ (t.grp g).resetting = true ∧ (t.grp g).lockout = (s.grp g).lockout ∧ (t.grp g).hbDirect = 0 ∧ (t.grp g).dt = 5
      ∧ (∀ n, groupOf n = g → t.ax n = {
          mot := { mProg := s.m7, mProgPrev := s.m7 }
          enc := { a := (s.ax n).enc.a, b := (s.ax n).enc.b }
          prot := { owner := (s.ax n).prot.owner } })
      ∧ (∀ n, groupOf n ≠ g → t.ax n = s.ax n)
      ∧ (∀ m, groupOfLeg m = g → (t.leg m).en = false ∧ (t.leg m).on = 0 ∧ (t.leg m).off = 0 ∧ (t.leg m).gs = (s.leg m).gs)
      ∧ (∀ m, groupOfLeg m ≠ g → t.leg m = s.leg m) ∧ (∀ k, k ≠ g → t.grp k = s.grp k) ∧ t.tb = s.tb ∧ t.nvm = s.nvm := by
  have hb : blockBit g.val = true := by simp [blockBit]
  have hstart : (s.setUnlock port false).startBlock g.val = (s.setUnlock port false).resetGroup g := dif_pos g.isLt
  have hreset := resetGroup_resets (s.setUnlock port false) g
  have hax (n : AxisId) : (s.setUnlock port false).ax n = s.ax n := by cases port <;> rfl
  have hleg (m : LegId) : (s.setUnlock port false).leg m = s.leg m := by cases port <;> rfl
  have hgrp (k : GroupId) : (s.setUnlock port false).grp k = s.grp k := by cases port <;> rfl
  have hm7 : (s.setUnlock port false).m7 = s.m7 := by cases port <;> rfl
  refine ⟨_, congrArg Host.Outcome.next (regWrite_blkRst_idle hready hopen ⟨g.val, by omega⟩ hb hidle), ?_⟩
  simp only [hstart]
  obtain ⟨hunits, -, -, haxes, hlegs, hgroup, hothers⟩ := hreset
  generalize (s.setUnlock port false).resetGroup g = t at hunits haxes hlegs hgroup hothers
  simp only [hax, hleg, hgrp, hm7] at haxes hlegs hgroup hothers
  have hg : (t.healWord 1 1).grp g = (s.grp g).reset := hgroup
  refine ⟨?_, ?_, ?_, ?_, fun n hn => (haxes n).trans (if_pos hn), fun n hn => (haxes n).trans (if_neg hn), fun m hm => ?_,
    fun m hm => (hlegs m).trans (if_neg hm), hothers, ?_, ?_⟩
  · rw [hg]; rfl
  · rw [hg]; rfl
  · rw [hg]; rfl
  · rw [hg]; rfl
  · rw [show (t.healWord 1 1).leg m = (s.leg m).reset from (hlegs m).trans (if_pos hm)]
    exact ⟨rfl, rfl, rfl, rfl⟩
  · exact (congrArg State.tb hunits :).trans (setUnlock_tb ..)
  · exact (congrArg State.nvm hunits :).trans (setUnlock_nvm ..)

end

/-- Settles O33: the command and BLK_RST ask for one block's reset, whose effect is that of the block alone. The reset of a group keeps the
owner, the lock-outs and the gains, that of Quartz clears FINE_LOST and that of the side-band port keeps SB_CFG (notes/assumptions/74.md); while the
memory port resets, its devices are absent and the layout reads as bad (notes/assumptions/122.md): the model's choices. -/
theorem blockResetsTakePlace : Obligations.BlockResetsTakePlace := by
  unfold Obligations.BlockResetsTakePlace
  refine ⟨⟨fun s core p b h hkey hbit hres hb => ⟨fun r hr => exec_blockReset_busy h hkey hbit hres hb hr,
      exec_blockReset_idle h hkey hbit hres hb⟩, fun s b tag q hb hc => exec_blockResetEnd hb hc⟩, fun s port hready hopen => ?_⟩
  refine ⟨fun c b hc r hr => ?_, exec_mportBlockReset hready hopen, exec_quartzBlockReset hready hopen, exec_syncBlockReset hready hopen,
    exec_sbandBlockReset hready hopen, exec_groupBlockReset hready hopen⟩
  obtain ⟨hlt, hbit, hexec⟩ := exec_blockResets (s := s) hc
  exact hexec.trans (congrArg Host.Outcome.next (regWrite_blkRst_busy hready hopen ⟨b, hlt⟩ hbit hr))

end Sys2Proof.Machine
end

section
/-! PROOF. The rows of the time base: the edges of the masters (02_master_time.md R35, R42 to R47, R55; notes/assumptions/40.md, 99.md), rates
and frame lengths (R53, R57; notes/assumptions/20.md), and TSYNC (R64 to R67; notes/assumptions/78.md, 104.md). -/
namespace Sys2Proof.Machine
open Sys2Proof

theorem gfaultSet_flagged (s : State) (i : Nat) : s.gfaultSet i = s.flagged (s.gfaultSet i) i := by
  unfold State.gfaultSet
  rw [shale_frame]
  rfl

/-! ### Edges of the masters (R35, R42 to R47) -/

section
variable {s : State} {a b : Bool} {t : Nat}

/-- A valid step counts M0, upward where MSA leads. -/
theorem m0Edge_step (h : (a ≠ s.tb.msa) ≠ (b ≠ s.tb.msb)) :
    s.m0Edge a b t = State.masterEdge { s with tb := { s.tb with msa := a, msb := b } } 0 (decide (a ≠ s.tb.msa) == decide (a ≠ b)) t := by
  have hboth : ¬(a ≠ s.tb.msa ∧ b ≠ s.tb.msb) := fun ⟨h1, h2⟩ => h (propext ⟨fun _ => h2, fun _ => h1⟩)
  have hstep : quadStep s.tb.msa s.tb.msb a b ≠ 0 ∧ decide (0 < quadStep s.tb.msa s.tb.msb a b) = (decide (a ≠ s.tb.msa) == decide (a ≠ b)) := by
    clear hboth
    revert h
    generalize s.tb.msa = x
    generalize s.tb.msb = y
    revert a b x y
    decide
  refine (if_neg hboth).trans ((if_neg hstep.1).trans ?_)
  rw [hstep.2]

theorem m0Edge_still (s : State) (t : Nat) : s.m0Edge s.tb.msa s.tb.msb t = s := by
  have hstep : quadStep s.tb.msa s.tb.msb s.tb.msa s.tb.msb = 0 := by simp [quadStep]
  exact (if_neg fun h => h.1 rfl).trans (if_pos hstep)

/-- M0 without its interval history. -/
def State.quadForgotten (s : State) : State := { s with tb := { s.tb with edge := upd s.tb.edge 0 EdgeMaster.forget } }

/-- Both inputs at once are an error, and count nothing (R42). -/
theorem quadError_flagged (s : State) : s.quadError = { s.flagged s.quadError 1 with
    tb := { s.tb with quadFrame := s.quadError.tb.quadFrame, edge := upd s.tb.edge 0 EdgeMaster.forget } } := by
  have hcases : s.quadError = { s.quadForgotten.gfaultSet 1 with tb := { (s.quadForgotten.gfaultSet 1).tb with quadFrame := some s.tb.count } }
      ∨ s.quadError = State.noteFault { s.quadForgotten with dev := { s.quadForgotten.dev with gfault := s.quadForgotten.dev.gfault ||| 2 } } :=
    ite_eq_or_eq ..
  rcases hcases with h | h
  · rw [h, gfaultSet_flagged]
    rfl
  · rw [h]
    rfl

theorem m0Edge_both (s : State) (t : Nat) : s.m0Edge (!s.tb.msa) (!s.tb.msb) t =
    State.quadError { s with tb := { s.tb with msa := !s.tb.msa, msb := !s.tb.msb } } := if_pos ⟨by simp, by simp⟩

/-! ### The index of M0 (R43, R55) -/

/-- The state whose index edge of M0 has been captured. -/
def State.indexTaken (s : State) (t : Nat) : State := s.capture 96 t t (s.masterAt 0 t)

theorem indexCheck_off (h : s.tb.cprEff = 0) : s.indexCheck = s := if_pos h

theorem indexCheck_true (h : s.tb.cprEff ≠ 0) (hp : ∀ p, s.tb.index = some p → wrapS 48 (s.tb.edge[0].c - p) % (s.tb.cprEff.toNat : Int) = 0) :
    s.indexCheck = { s with tb := { s.tb with index := some s.tb.edge[0].c } } := by
  refine (if_neg h).trans ?_
  cases hi : s.tb.index with
  | none => rfl
  | some p => exact if_pos (hp p hi)

theorem indexCheck_slip (h : s.tb.cprEff ≠ 0) {p : Int} (hi : s.tb.index = some p) (hp : wrapS 48 (s.tb.edge[0].c - p) % (s.tb.cprEff.toNat : Int) ≠ 0) :
    s.indexCheck = State.gfaultSet { s with tb := { s.tb with index := some s.tb.edge[0].c } } 2 := by
  refine (if_neg h).trans ?_
  rw [hi]
  exact if_neg hp

end

/-- Settles O45: each row is one function of the time base. That the first edge after a reset ends no interval, and none the first after
QUAD_ERR, is the model's choice (notes/assumptions/40.md, 99.md). -/
theorem edgesCountTheirMaster : Obligations.EdgesCountTheirMaster := by
  unfold Obligations.EdgesCountTheirMaster
  refine ⟨fun s t => ⟨fun i dir => rfl, fun a b h => congrArg Host.Outcome.next (m0Edge_step h), congrArg Host.Outcome.next (m0Edge_still s t), ?_,
      fun m => rfl⟩,
    fun s t => ⟨rfl, fun h => congrArg Host.Outcome.next (indexCheck_off (s := s.indexTaken t) h),
      fun h hp => congrArg Host.Outcome.next (indexCheck_true (s := s.indexTaken t) h hp), fun p h hi hp => ?_⟩⟩
  · refine ⟨_, rfl, ?_⟩
    rw [m0Edge_both, quadError_flagged]
    rfl
  · refine ⟨_, congrArg Host.Outcome.next (indexCheck_slip (s := s.indexTaken t) h hi hp), ?_⟩
    rw [gfaultSet_flagged]
    rfl

/-! ### Rates and frame lengths (R53, R57, R178, R214) -/

/-- A re-based master stands where it stood. -/
theorem rebase_posAt (v : VirtMaster) (l f : Nat) (l' : Nat) : (v.rebase l f).posAt l' f 0 = v.posAt l f 0 := by
  simp [VirtMaster.rebase, VirtMaster.posAt]

theorem rateDue_applied {s : State} {v : Fin 2} (h : s.rateDue v = true) : exec (.rateEpochApply v) s = .next { s with tb := { s.tb with
    virt := upd s.tb.virt v fun x => { x.rebase s.len s.frameNat with rate := x.reg.toInt, pend := false } } } :=
  congrArg Host.Outcome.next (if_pos h)

theorem newLength_leg (s : State) (m : LegId) : s.newLength.leg m = { (s.leg m).newLength with zring := [] } := by
  unfold State.leg State.newLength State.clearRings
  simp only [Vector.getElem_map]

theorem newLength_adc (s : State) (a : AdcId) : s.newLength.adc a =
    { s.adc a with slot := none, slotPlan := none, forced := none, forcedPlan := none, zero := [], plus := [], neg := [], noSlot := 0 } := by
  unfold State.adc State.newLength State.clearRings
  simp only [Vector.getElem_map]

theorem newLength_virt (s : State) (k : Fin 2) : s.newLength.tb.virt[k.val] = s.tb.virt[k.val].rebase s.len s.frameNat := Vector.getElem_map ..

/-- Settles O46: a re-based master stands where it stood, and the new length clears what the old one had computed. Where nothing is pending the
rows do nothing: the model's choice (notes/assumptions/20.md). -/
theorem rateAndLengthChangesKeepPositions : Obligations.RateAndLengthChangesKeepPositions := by
  unfold Obligations.RateAndLengthChangesKeepPositions
  refine fun s => ⟨fun v => ⟨fun h => congrArg Host.Outcome.next (if_neg (by rw [h]; decide)), fun h => ⟨_, rateDue_applied h, rfl, ?_⟩⟩,
    fun h => congrArg Host.Outcome.next (if_pos h), fun h => ⟨_, congrArg Host.Outcome.next (if_neg h), ?_⟩⟩
  · have hself := upd_self s.tb.virt v fun x => { x.rebase s.len s.frameNat with rate := x.reg.toInt, pend := false }
    refine ⟨?_, ?_, ?_, ?_, fun k hk => upd_other _ _ _ _ hk⟩
    · exact (congrArg VirtMaster.rate hself :)
    · exact (congrArg VirtMaster.pend hself :)
    · exact (congrArg VirtMaster.reg hself :)
    · refine (congrArg (fun x : VirtMaster => x.posAt s.len s.frameNat 0) hself :).trans ?_
      simp [VirtMaster.rebase, VirtMaster.posAt]
  · refine ⟨rfl, rfl, fun k => ?_, rebase_posAt .., rfl, fun m => ?_, fun a => ?_, rfl, rfl, rfl, rfl, rfl⟩
    · rw [newLength_virt]
      exact ⟨rebase_posAt .., rfl⟩
    · rw [newLength_leg]
      exact ⟨rfl, rfl, rfl, rfl, rfl, rfl, rfl, rfl⟩
    · rw [newLength_adc]
      exact ⟨rfl, rfl, rfl, rfl, rfl⟩

/-! ### TSYNC (R64 to R67) -/

section
variable {s : State}

theorem len_pos (s : State) : 0 < s.len := by
  unfold State.len frameTicks
  split <;> decide

/-- The phase error is that to the nearest boundary (R65). -/
theorem phaseError_nearest (s : State) (x : Int) : (x - s.tb.tick - s.phaseError x) % (s.len : Int) = 0 ∧ 2 * |s.phaseError x| ≤ (s.len : Int) := by
  have hlen := len_pos s
  unfold State.phaseError
  simp only []
  have h0 := Int.emod_nonneg (x - s.tb.tick) (by omega : (s.len : Int) ≠ 0)
  have h1 := Int.emod_lt_of_pos (x - s.tb.tick) (by omega : (0 : Int) < s.len)
  have hd : (x - s.tb.tick - (x - s.tb.tick) % (s.len : Int)) % (s.len : Int) = 0 := by
    rw [Int.sub_emod, Int.emod_emod_of_dvd _ dvd_rfl, sub_self, Int.zero_emod]
  split
  · refine ⟨?_, ?_⟩
    · rw [show x - s.tb.tick - ((x - s.tb.tick) % (s.len : Int) - s.len) = x - s.tb.tick - (x - s.tb.tick) % (s.len : Int) + s.len by ring,
        Int.add_emod_right]
      exact hd
    · rw [abs_of_nonpos (by omega)]
      omega
  · exact ⟨hd, by rw [abs_of_nonneg h0]; omega⟩

theorem clearLow_eq (f : BitVec 64) : f &&& ~~~ (0xFF : BitVec 64) = (f >>> 8) <<< 8 := by
  have hmask : ∀ i : Fin 64, (~~~ (0xFF : BitVec 64)).getLsbD i.val = decide (8 ≤ i.val) := by decide
  refine BitVec.eq_of_getLsbD_eq fun i hi => ?_
  rw [BitVec.getLsbD_and, hmask ⟨i, hi⟩, BitVec.getLsbD_shiftLeft, BitVec.getLsbD_ushiftRight]
  by_cases h : 8 ≤ i
  · simp [h, hi]
  · simp [h]

theorem clearLow_toNat (f : BitVec 64) : (f &&& ~~~ (0xFF : BitVec 64)).toNat = f.toNat / 256 * 256 := by
  have hf := f.isLt
  rw [clearLow_eq, BitVec.toNat_shiftLeft, BitVec.toNat_ushiftRight, Nat.shiftRight_eq_div_pow, Nat.shiftLeft_eq]
  omega

theorem setLow_toNat (f : BitVec 64) : (f &&& ~~~ (0xFF : BitVec 64) ||| 0xFF).toNat = f.toNat / 256 * 256 + 255 := by
  rw [BitVec.toNat_or, clearLow_toNat, show f.toNat / 256 * 256 = (f.toNat / 256) <<< 8 from (Nat.shiftLeft_eq (f.toNat / 256) 8).symm]
  exact (Nat.shiftLeft_add_eq_or_of_lt (by decide) _).symm

variable {tick : Nat}

theorem tsyncEdge_slews (hrole : s.tb.roleEff = 2) (hon : s.anyEnabled = true) {e : Int} (he : s.phaseError ((tick : Int) - s.tb.trim.toNat) = e) :
    s.tsyncEdge tick = { s with tb := { s.tb with
      pherr := limitMag 127 e, sincePulse := 0, lockRun := if |e| ≤ 16 then min 4 (s.tb.lockRun + 1) else 0
      syncLock := s.tb.syncLock || (if |e| ≤ 16 then min 4 (s.tb.lockRun + 1) else 0) = 4, pulseNow := 0 ≤ e, pulseNext := e < 0, slew := e } } := by
  subst he
  exact (if_neg (not_not.2 hrole)).trans (if_pos hon)

theorem tsyncEdge_steps (hrole : s.tb.roleEff = 2) (hoff : s.anyEnabled = false) {e : Int} (he : s.phaseError ((tick : Int) - s.tb.trim.toNat) = e) :
    s.tsyncEdge tick = { s with tb := { s.tb with
      pherr := limitMag 127 e, sincePulse := 0, lockRun := if |e| ≤ 16 then min 4 (s.tb.lockRun + 1) else 0
      syncLock := s.tb.syncLock || (if |e| ≤ 16 then min 4 (s.tb.lockRun + 1) else 0) = 4, pulseNow := 0 ≤ e, pulseNext := e < 0, slew := 0
      tick := ((s.tb.tick : Int) + e).toNat
      frame := if e < 0 then s.tb.frame &&& ~~~ (0xFF : BitVec 64) ||| 0xFF else s.tb.frame &&& ~~~ (0xFF : BitVec 64) } } := by
  subst he
  exact (if_neg (not_not.2 hrole)).trans (if_neg (by rw [hoff]; decide))

/-- A follower takes the phase error: while an axis is enabled it slews, else it steps onto the pulse (R65). -/
theorem tsyncEdge_follows (hrole : s.tb.roleEff = 2) (tick : Nat) : ∃ (t : State) (e : Int), exec (.tsyncEdge tick) s = .next t
    ∧ t = { s with tb := { s.tb with
        pherr := limitMag 127 e, sincePulse := 0, lockRun := if |e| ≤ 16 then min 4 (s.tb.lockRun + 1) else 0
        syncLock := s.tb.syncLock || t.tb.lockRun = 4, pulseNow := 0 ≤ e, pulseNext := e < 0, slew := t.tb.slew
        tick := t.tb.tick, frame := t.tb.frame } }
    ∧ ((tick : Int) - s.tb.trim.toNat - s.tb.tick - e) % (s.len : Int) = 0 ∧ 2 * |e| ≤ (s.len : Int)
    ∧ (s.anyEnabled = true → t.tb.slew = e ∧ t.tb.tick = s.tb.tick ∧ t.tb.frame = s.tb.frame)
    ∧ (s.anyEnabled = false → t.tb.slew = 0 ∧ t.tb.tick = ((s.tb.tick : Int) + e).toNat
        ∧ (0 ≤ e → t.tb.frame.toNat % 256 = 0) ∧ (e < 0 → (t.tb.frame + 1).toNat % 256 = 0)
        ∧ t.tb.frame.toNat / 256 = s.tb.frame.toNat / 256) := by
  obtain ⟨hmod, hnear⟩ := phaseError_nearest s ((tick : Int) - s.tb.trim.toNat)
  generalize he : s.phaseError ((tick : Int) - s.tb.trim.toNat) = e at hmod hnear
  cases hon : s.anyEnabled with
  | true =>
    exact ⟨_, e, congrArg Host.Outcome.next (tsyncEdge_slews hrole hon he), rfl, hmod, hnear, fun _ => ⟨rfl, rfl, rfl⟩, fun h => nomatch h⟩
  | false =>
    refine ⟨_, e, congrArg Host.Outcome.next (tsyncEdge_steps hrole hon he), rfl, hmod, hnear, fun h => (nomatch h), fun _ => ⟨rfl, rfl, fun h => ?_, fun h => ?_, ?_⟩⟩
    · rw [if_neg (by omega), clearLow_toNat]
      omega
    · rw [if_pos h, BitVec.toNat_add, setLow_toNat]
      change (_ + 1) % 2 ^ 64 % 256 = 0
      omega
    · by_cases h : e < 0
      · rw [if_pos h, setLow_toNat]
        omega
      · rw [if_neg h, clearLow_toNat]
        omega

theorem tsyncPulse_iff (s : State) : (decide (s.tb.roleEff = 1) && decide (s.frameNat % 256 = 0)) = true ↔ s.tb.roleEff = 1 ∧ s.tb.frame.toNat % 256 = 0 := by
  rw [Bool.and_eq_true, decide_eq_true_iff, decide_eq_true_iff]
  rfl

theorem syncLost_iff (s : State) : (decide (s.tb.roleEff = 2) && (decide (768 ≤ s.tb.sincePulse) || decide (64 < |s.tb.pherr|))) = true
    ↔ s.tb.roleEff = 2 ∧ (768 ≤ s.tb.sincePulse ∨ 64 < |s.tb.pherr|) := by
  rw [Bool.and_eq_true, Bool.or_eq_true, decide_eq_true_iff, decide_eq_true_iff, decide_eq_true_iff]

end

/-- Settles O47: a follower takes the error to its nearest boundary; with no axis enabled it steps there, and a pulse before the boundary to
come leaves the low 8 bits at 0xFF, the model's choice (notes/assumptions/104.md). The guard of SYNC_LOST is taken literally
(notes/assumptions/78.md). -/
theorem followersAlignToTheTimeMaster : Obligations.FollowersAlignToTheTimeMaster := by
  unfold Obligations.FollowersAlignToTheTimeMaster
  refine fun s => ⟨congrArg Host.Outcome.next (if_congr (tsyncPulse_iff s) rfl rfl), fun tick h => congrArg Host.Outcome.next (if_pos h),
    fun tick h => tsyncEdge_follows h tick, fun h => ⟨_, congrArg Host.Outcome.next (if_pos ((syncLost_iff s).2 h)), ?_⟩,
    fun h => congrArg Host.Outcome.next (if_neg fun hc => h ((syncLost_iff s).1 hc)),
    fun h => ⟨_, congrArg Host.Outcome.next (if_pos h), gfaultSet_flagged s 4⟩, fun h => congrArg Host.Outcome.next (if_neg h)⟩
  rw [gfaultSet_flagged]
  rfl

end Sys2Proof.Machine
end

section
/-! SUPPORT. What the work of an axis leaves of the module: its settings in NVM, its time base, pins, coils, legs, converters, groups and tables
(03_motion_segments.md; 04_axio_homing.md). -/
namespace Sys2Proof.Machine
open Sys2Proof

/-- `t` is `s` but for the device flags, the axes, the queues, the side-band port and the memory port. -/
def State.AxisWork (s t : State) : Prop := t = { s with dev := t.dev, axes := t.axes, q := t.q, sb := t.sb, mp := t.mp }

namespace State.AxisWork

section
variable {s0 s t : State} {n : AxisId}

theorem refl (s : State) : s.AxisWork s := rfl

theorem trans {u : State} (h : s.AxisWork t) (k : t.AxisWork u) : s.AxisWork u := by
  unfold State.AxisWork at h k ⊢
  rw [k, h]

theorem ite {c : Prop} [Decidable c] (h1 : c → s0.AxisWork s) (h2 : ¬c → s0.AxisWork t) : s0.AxisWork (if c then s else t) := by
  split
  · exact h1 ‹c›
  · exact h2 ‹¬c›

theorem forAll {α : Type} {l : List α} {f : State → α → State} (h : s0.AxisWork s) (hf : ∀ t a, s0.AxisWork t → s0.AxisWork (f t a)) :
    s0.AxisWork (s.forAll l f) := forAll_keeps (fun t => s0.AxisWork t) l f (fun t a _ ht => hf t a ht) s h

theorem queues (h : s0.AxisWork s) (hq : t = { s with q := t.q, sb := t.sb }) : s0.AxisWork t := h.trans (by unfold State.AxisWork; rw [hq])

theorem endsOn {f : Axis → Axis} (h : s0.AxisWork s) (he : s.endsOn t n f) : s0.AxisWork t := h.trans (by unfold State.AxisWork; rw [he.1])

theorem modAxis {f} (h : s0.AxisWork s) : s0.AxisWork (s.modAxis n f) := h.trans rfl
theorem modMot {f} (h : s0.AxisWork s) : s0.AxisWork (s.modMot n f) := h.trans rfl
theorem modProt {f} (h : s0.AxisWork s) : s0.AxisWork (s.modProt n f) := h.trans rfl
theorem countDisable {k} (h : s0.AxisWork s) : s0.AxisWork (s.countDisable n k) := h.trans rfl
theorem complete {ref st fl ax mp w} (h : s0.AxisWork s) : s0.AxisWork (s.complete ref st fl ax mp w) := h.queues (complete_frame ..)
theorem completeSeg {g st mp w d a e} (h : s0.AxisWork s) : s0.AxisWork (s.completeSeg n g st mp w d a e) := h.queues (completeSeg_frame ..)
theorem actionAxis {id o k b} (h : s0.AxisWork s) : s0.AxisWork (s.actionAxis id o k b) := h.queues (actionAxis_frame ..)
theorem endActs {ks st w k} (h : s0.AxisWork s) : s0.AxisWork (s.endActs n ks st w k) := h.queues (endActs_frame ..)
theorem flushQueue {st} (h : s0.AxisWork s) : s0.AxisWork (s.flushQueue n st) := h.endsOn (flushQueue_endsOn ..)
theorem completeRuns {l b st w} (h : s0.AxisWork s) : s0.AxisWork (s.completeRuns n l b st w) := h.endsOn (completeRuns_endsOn ..)
theorem stopsDone {k} (h : s0.AxisWork s) : s0.AxisWork (s.stopsDone n k) := h.endsOn (stopsDone_endsOn ..)

theorem shale {c k i d} (h : s0.AxisWork s) : s0.AxisWork (s.shale c k i d) := h.trans (by unfold State.AxisWork; rw [shale_frame])
theorem shaleAxis {k} (h : s0.AxisWork s) : s0.AxisWork (s.shaleAxis n k) := h.shale

/-! ### Ends of segments and stops -/

theorem endFirst {r rest} (h : s0.AxisWork s) : s0.AxisWork (s.endFirst n r rest) := h.modMot.completeSeg
theorem endSecond {r r2} (h : s0.AxisWork s) : s0.AxisWork (s.endSecond n r r2) := h.modMot.completeSeg
theorem endBoth {r r2} (h : s0.AxisWork s) : s0.AxisWork (s.endBoth n r r2) := by
  unfold State.endBoth
  exact h.endFirst.endFirst.modMot

theorem endStop {st} (h : s0.AxisWork s) : s0.AxisWork (s.endStop n st) := by
  unfold State.endStop
  extract_lets a away e d fin s1 s2 bad cnt s3
  have h2 : s0.AxisWork s2 := h.modMot.forAll fun _ _ h => h.completeSeg
  have h3 : s0.AxisWork s3 := (ite (fun _ => h2.flushQueue) fun _ => h2).countDisable
  exact h3.forAll fun _ _ h => h.actionAxis

theorem endDone (h : s0.AxisWork s) : s0.AxisWork (s.endDone n) := by
  refine ite (fun _ => h) fun _ => ?_
  split
  · exact ite (fun _ => h.endStop) fun _ => h
  · split
    · exact h
    · exact ite (fun _ => h.endFirst) fun _ => h
    · split
      · exact h.endBoth
      · exact h.endFirst
      · exact h.endSecond
      · exact h

theorem stopHold {r st w} (h : s0.AxisWork s) : s0.AxisWork (s.stopHold n r st w) :=
  ite (fun _ => h.modMot.completeSeg.flushQueue) fun _ => h.modMot.completeSeg

theorem stopAxis {q st act rate} (h : s0.AxisWork s) : s0.AxisWork (s.stopAxis n q st act rate) := by
  have hd : s0.AxisWork (s.endDone n) := h.endDone
  unfold State.stopAxis
  simp only []
  split
  · exact ite (fun _ => hd.modMot) fun _ => hd
  · split
    · exact hd
    · split
      · exact hd.stopHold
      · exact hd.modMot
    · exact hd.modMot

theorem endHeld {st w} (h : s0.AxisWork s) : s0.AxisWork (s.endHeld n st w) :=
  (ite (fun _ => h.modMot.completeRuns.flushQueue) fun _ => h.modMot.completeRuns).countDisable.stopsDone

theorem endStream (h : s0.AxisWork s) : s0.AxisWork s.endStream := by
  unfold State.endStream
  split
  · exact h
  · next st _ =>
    have h1 : s0.AxisWork { s with mp := { s.mp with stream := none } } := h.trans rfl
    exact ((h1.forAll fun _ _ h => h.complete).complete).trans rfl

theorem endStreamOn {l} (h : s0.AxisWork s) : s0.AxisWork (s.endStreamOn l) := by
  unfold State.endStreamOn
  split
  · exact h
  · exact ite (fun _ => h.endStream) fun _ => h

theorem turnOff {st w} (h : s0.AxisWork s) : s0.AxisWork (s.turnOff n st w) :=
  h.trans (by unfold State.AxisWork; rw [(turnOff_changes s n st w).1])

/-! ### Jogs, plug sense and evaluation -/

theorem stopFlush (h : s0.AxisWork s) : s0.AxisWork (s.stopFlush n) :=
  (ite (fun _ => h.endDone.endHeld) fun _ => h.endDone.stopAxis).flushQueue.endStreamOn

theorem startJog {d} (h : s0.AxisWork s) : s0.AxisWork (s.startJog n d) := h.trans rfl

theorem jogStep (h : s0.AxisWork s) : s0.AxisWork (s.jogStep n) := by
  refine ite (fun _ => ?_) fun _ => h
  split
  · exact ite (fun _ => h.startJog) fun _ => h
  · exact ite (fun _ => h.startJog) fun _ => h
  · exact h

theorem jogEdge {b} (h : s0.AxisWork s) : s0.AxisWork (s.jogEdge n b) := by
  unfold State.jogEdge
  extract_lets x up dn blocked s1
  have h1 : s0.AxisWork s1 := h.modMot
  split
  · exact h1
  · exact ite (fun _ => h1.modProt.stopFlush.jogStep) fun _ => h1
  · split
    · exact ite (fun _ => h1.stopAxis) fun _ => h1
    · exact h1.jogStep

theorem setPlug {p} (h : s0.AxisWork s) : s0.AxisWork (s.setPlug n p) := ite (fun _ => h) fun _ => h.modProt.shaleAxis

theorem setUnsure (h : s0.AxisWork s) : s0.AxisWork (s.setUnsure n) := ite (fun _ => h) fun _ => h.modMot

theorem unplug {w} (h : s0.AxisWork s) : s0.AxisWork (s.unplug n w) := h.turnOff.modProt.shaleAxis.setUnsure

theorem plugPinOff (h : s0.AxisWork s) : s0.AxisWork (s.plugPinOff n) := ite (fun _ => h.unplug) fun _ => h.setPlug

theorem refresh (h : s0.AxisWork s) : s0.AxisWork (s.refresh n) :=
  h.trans (by unfold State.AxisWork; rw [(refresh_evaluates s n).moved.1])

end

end State.AxisWork

end Sys2Proof.Machine
end

section
/-! PROOF. Pins: raw levels, qualification, chatter, ownership and outputs (04_axio_homing.md R110, R115 to R118, R133; 02_master_time.md R55;
notes/assumptions/20.md, 28.md, 46.md). -/
namespace Sys2Proof.Machine
open Sys2Proof

/-! ### Raw levels (R115, R116) -/

section
variable {s : State} {i : PinId} {t : Nat}

theorem axioTransition_same (s : State) (i : PinId) (t : Nat) : s.axioTransition i (s.pin i).raw t = s := if_pos rfl

theorem axioTransition_output (h : isOutput (s.pin i).func = true) : s.axioTransition i (!(s.pin i).raw) t =
    { s with pins := upd s.pins i fun p => { p with raw := !(s.pin i).raw, tLast := t } } :=
  (if_neg (by simp)).trans (if_pos h)

/-- The position of the bound master where a pin belongs to an axis (R127). -/
def State.pinMaster (s : State) (i : PinId) (t : Nat) : Int := ((s.pin i).axis?.map fun n => s.masterAt (s.ax n).mot.master t).getD 0

theorem axioTransition_input (h : isOutput (s.pin i).func = false) : s.axioTransition i (!(s.pin i).raw) t =
    { s with pins := upd s.pins i fun p => { p with
        raw := !(s.pin i).raw, tLast := t, tFirst := if (s.pin i).raw = (s.pin i).qual ∧ (s.pin i).tFirst = none then some t else p.tFirst
        posFirst := if (s.pin i).raw = (s.pin i).qual ∧ (s.pin i).tFirst = none then s.pinMaster i t else p.posFirst } } := by
  have hfirst : (decide ((!(s.pin i).raw) ≠ (s.pin i).qual) && (s.pin i).tFirst.isNone) = true
      ↔ (s.pin i).raw = (s.pin i).qual ∧ (s.pin i).tFirst = none := by
    rw [Bool.and_eq_true, decide_eq_true_iff, Option.isNone_iff_eq_none]
    cases (s.pin i).raw <;> cases (s.pin i).qual <;> simp
  refine (if_neg (by simp)).trans ((if_neg (by rw [h]; decide)).trans ?_)
  simp only [hfirst]
  unfold State.pinMaster
  cases (s.pin i).axis? <;> rfl

/-! ### Qualification (R116, R117) -/

/-- A pin whose change has qualified at `t`. -/
def Pin.qualified (p : Pin) (t : Nat) : Pin := { p with qual := p.raw, tFirst := none, edges := (t :: p.edges).take 9 }

/-- The change of a pin is over its debounce time. -/
structure State.Debounced (s : State) (i : PinId) (t t0 : Nat) : Prop where
  first : (s.pin i).tFirst = some t0
  time : entryDeb (s.pin i).entry * 160000 ≤ t - (s.pin i).tLast
  input : isOutput (s.pin i).func = false

theorem axioQualify_idle (h : (s.pin i).tFirst = none ∨ t - (s.pin i).tLast < entryDeb (s.pin i).entry * 160000 ∨ isOutput (s.pin i).func = true) :
    s.axioQualify i t = s := by
  refine if_pos ?_
  rw [Bool.or_eq_true, Bool.or_eq_true, Option.isNone_iff_eq_none, decide_eq_true_iff, or_assoc]
  exact h

variable {t0 : Nat}

theorem State.Debounced.open (h : s.Debounced i t t0) :
    ¬((s.pin i).tFirst.isNone || decide (t - (s.pin i).tLast < entryDeb (s.pin i).entry * 160000) || isOutput (s.pin i).func) = true := by
  simp [h.first, h.input, Nat.not_lt.2 h.time]

theorem axioQualify_back (h : s.Debounced i t t0) (hraw : (s.pin i).raw = (s.pin i).qual) :
    s.axioQualify i t = { s with pins := upd s.pins i fun p => { p with tFirst := none } } :=
  (if_neg h.open).trans (if_pos hraw)

/-- A pin without an axis has no function. -/
theorem func_of_noAxis {p : Pin} (h : p.axis? = none) : p.func = 0 := by
  unfold Pin.axis? at h
  unfold Pin.func
  split at h
  · cases h
  · next hlt => exact if_neg hlt

/-- A change of a pin that is neither an encoder's nor a capture's waits for step 3 (R117). -/
theorem axioQualify_waits (h : s.Debounced i t t0) (hraw : (s.pin i).raw ≠ (s.pin i).qual) (henc : isEncoder (s.pin i).func = false)
    (hcap : (s.pin i).func ≠ 12) : s.axioQualify i t = State.waitStep3 { s with pins := upd s.pins i fun p => p.qualified t } t0
      (if (s.pin i).func = 11 then 3 else 4) (.edge i (s.pin i).raw (s.pin i).posFirst (chatters ((s.pin i).qualified t).edges)) := by
  have hraw0 : (s.pin i).tFirst.getD t = t0 := by rw [h.first]; rfl
  refine (if_neg h.open).trans ((if_neg hraw).trans ?_)
  simp only [hraw0]
  cases hax : (s.pin i).axis? with
  | none => rw [func_of_noAxis hax]; rfl
  | some n => exact (if_neg (by rw [henc]; decide)).trans (if_neg hcap)

theorem noteChatter_quiet (s : State) (i : PinId) : s.noteChatter i false = s := if_neg (by simp)

/-- The pins where a qualified change has been acted on. -/
theorem acted_pins (s : State) (i : PinId) (t : Nat) :
    State.modPin { s with pins := upd s.pins i fun p => p.qualified t } i (fun p => { p with acted := p.raw })
      = { s with pins := upd s.pins i fun p => { p.qualified t with acted := p.raw } } :=
  congrArg (fun v => ({ s with pins := v } : State)) (upd_upd s.pins i (fun p => p.qualified t) fun p => { p with acted := p.raw })

/-- A capture is taken at once (R55). -/
theorem axioQualify_capture (h : s.Debounced i t t0) (hraw : (s.pin i).raw ≠ (s.pin i).qual) (hcap : (s.pin i).func = 12)
    (hquiet : chatters ((s.pin i).qualified t).edges = false) : s.axioQualify i t =
      State.capture { s with pins := upd s.pins i fun p => { p.qualified t with acted := p.raw } } i.val t0 t (s.pin i).posFirst := by
  have hraw0 : (s.pin i).tFirst.getD t = t0 := by rw [h.first]; rfl
  have hquiet' : chatters ((t :: (s.pin i).edges).take 9) = false := hquiet
  refine (if_neg h.open).trans ((if_neg hraw).trans ?_)
  simp only [hraw0]
  cases hax : (s.pin i).axis? with
  | none => exact absurd ((func_of_noAxis hax).symm.trans hcap) (by decide)
  | some n =>
    refine (if_neg (by rw [hcap]; decide)).trans ((if_pos hcap).trans ?_)
    rw [hquiet', noteChatter_quiet]
    exact congrArg (fun u : State => u.capture i.val t0 t (s.pin i).posFirst) (acted_pins s i t)

/-- An encoder counts at once (R114). -/
theorem axioQualify_encoder (h : s.Debounced i t t0) (hraw : (s.pin i).raw ≠ (s.pin i).qual) {n : AxisId} (hn : (s.pin i).axis? = some n)
    (hfunc : (s.pin i).func = 1) (hquiet : chatters ((s.pin i).qualified t).edges = false) : s.axioQualify i t =
      State.encoderEdge { s with pins := upd s.pins i fun p => { p.qualified t with acted := p.raw } } n 1
        ((s.pin i).raw != entryInv (s.pin i).entry) := by
  have hquiet' : chatters ((t :: (s.pin i).edges).take 9) = false := hquiet
  refine (if_neg h.open).trans ((if_neg hraw).trans ?_)
  rw [hn]
  refine (if_pos (by rw [hfunc]; rfl)).trans ?_
  rw [hquiet', noteChatter_quiet, hfunc]
  exact congrArg (fun u : State => u.encoderEdge n 1 ((s.pin i).raw != entryInv (s.pin i).entry)) (acted_pins s i t)

/-- Input A of an encoder counts up where it leads input B (R114). -/
theorem quadA_step (e : AxisEnc) {a : Bool} (ha : e.a ≠ a) :
    ({ e with a := a, count := wrapS 48 (e.count + quadStep e.a e.b a e.b) } : AxisEnc) =
      { e with a := !e.a, count := wrapS 48 (e.count + if e.a = e.b then 1 else -1) } := by
  have hstep : quadStep e.a e.b a e.b = if e.a = e.b then 1 else -1 := by
    revert ha
    generalize e.a = x
    generalize e.b = y
    revert a x y
    decide
  have hnot : a = !e.a := by
    revert ha
    cases a <;> cases e.a <;> simp
  rw [hstep, ← hnot]

theorem encoderEdge_a {n : AxisId} {a : Bool} (ha : (s.ax n).enc.a ≠ a) : s.encoderEdge n 1 a = { s with
    axes := upd s.axes n fun x => { x with enc := { x.enc with
      a := !x.enc.a, count := wrapS 48 (x.enc.count + if x.enc.a = x.enc.b then 1 else -1) } } } :=
  congrArg (fun v => ({ s with axes := v } : State))
    (upd_congr s.axes n _ _ (congrArg (fun e => ({ s.ax n with enc := e } : Axis)) (quadA_step (s.ax n).enc ha)))

/-! ### Chatter, ownership and outputs (R110, R118, R133) -/

theorem chatterEnd_lasts (h : (s.pin i).chatter = false ∨ t - (s.pin i).edges.headD 0 < 200 * 160000) : s.chatterEnd i t = s := by
  refine if_neg ?_
  rw [Bool.and_eq_true, decide_eq_true_iff, not_and_or, Bool.not_eq_true, Nat.not_le]
  exact h

/-- The pin whose condition has ended. -/
def State.calmed (s : State) (i : PinId) : State := { s with pins := upd s.pins i fun p => { p with chatter := false, edges := [] } }

theorem calmed_func (s : State) (i : PinId) : ((s.calmed i).pin i).func = (s.pin i).func :=
  (congrArg Pin.func (upd_self s.pins i fun p => { p with chatter := false, edges := [] }) :)

theorem chatterEnd_open (hc : (s.pin i).chatter = true) (ht : 200 * 160000 ≤ t - (s.pin i).edges.headD 0) :
    ((s.pin i).chatter && decide (200 * 160000 ≤ t - (s.pin i).edges.headD 0)) = true := by
  rw [hc, decide_eq_true ht]
  rfl

theorem chatterEnd_quiet (hc : (s.pin i).chatter = true) (ht : 200 * 160000 ≤ t - (s.pin i).edges.headD 0) (h9 : (s.pin i).func ≠ 9)
    (h10 : (s.pin i).func ≠ 10) (h11 : (s.pin i).func ≠ 11) : s.chatterEnd i t = s.calmed i := by
  have hf := calmed_func s i
  refine (if_pos (chatterEnd_open hc ht)).trans ?_
  change (match (s.pin i).axis? with
    | none => s.calmed i
    | some n => if (decide (((s.calmed i).pin i).func = 9) || decide (((s.calmed i).pin i).func = 10)) = true
        then ((s.calmed i).jogEdge n ((s.calmed i).pin i).isOn).refresh n
      else if (decide (((s.calmed i).pin i).func = 11) && (s.pin i).isOn && !((s.calmed i).pin i).isOn) = true
        then (s.calmed i).plugPinOff n
      else s.calmed i) = s.calmed i
  rw [hf]
  cases (s.pin i).axis? with
  | none => rfl
  | some n => exact (if_neg (by simp [h9, h10])).trans (if_neg (by simp [h11]))

/-- Whatever the end of the condition means to an axis, of the pins it changes this one alone. -/
theorem chatterEnd_pins (hc : (s.pin i).chatter = true) (ht : 200 * 160000 ≤ t - (s.pin i).edges.headD 0) :
    (s.chatterEnd i t).pins = upd s.pins i fun p => { p with chatter := false, edges := [] } := by
  have hwork : (s.calmed i).AxisWork (s.chatterEnd i t) := by
    rw [show s.chatterEnd i t = _ from if_pos (chatterEnd_open hc ht)]
    simp only []
    split
    · exact .refl _
    · exact .ite (fun _ => (State.AxisWork.refl _).jogEdge.refresh) fun _ => .ite (fun _ => (State.AxisWork.refl _).plugPinOff) fun _ => .refl _
  exact (congrArg State.pins hwork :)

theorem localReturn_iff (s : State) (n : AxisId) : (decide ((s.ax n).prot.owner = .localJog) && (s.ax n).mot.jog.isNone && !s.button n 1 && !s.button n (-1)) = true
    ↔ (s.ax n).prot.owner = .localJog ∧ (s.ax n).mot.jog = none ∧ s.button n 1 = false ∧ s.button n (-1) = false := by
  rw [Bool.and_eq_true, Bool.and_eq_true, Bool.and_eq_true, decide_eq_true_iff, Option.isNone_iff_eq_none, Bool.not_eq_true', Bool.not_eq_true',
    and_assoc, and_assoc]

theorem outputRetry_idle (h : (s.pin i).overloaded = false) : exec (.axioOutputRetry i) s = .next s :=
  congrArg Host.Outcome.next (congrArg (fun v => ({ s with pins := v } : State))
    (upd_same s.pins i _ (if_neg (by rw [show s.pins[i.val].overloaded = false from h]; decide))))

theorem outputRetry_tries (h : (s.pin i).overloaded = true) : exec (.axioOutputRetry i) s = .next { s with
    pins := upd s.pins i fun p => { p with overloaded := false, sink := isOutput (s.pin i).func && ((s.pin i).active != entryInv (s.pin i).entry) } } :=
  congrArg Host.Outcome.next (congrArg (fun v => ({ s with pins := v } : State)) (upd_congr s.pins i _ _ (if_pos h)))

end

/-- Settles O48: each row is a case of one function of the pin. A chatter counts the times of qualification (notes/assumptions/46.md), quadrature
counts up where A leads B (notes/assumptions/28.md), and LOCAL_RETURN takes the 2 s of R133 from its row (notes/assumptions/20.md): the
model's choices. -/
theorem pinsQualifyAndReact : Obligations.PinsQualifyAndReact := by
  unfold Obligations.PinsQualifyAndReact
  refine fun s i t => ⟨congrArg Host.Outcome.next (axioTransition_same s i t), fun h => congrArg Host.Outcome.next ((axioTransition_input h).trans ?_),
    fun h => congrArg Host.Outcome.next ((axioTransition_output h).trans ?_), fun h => congrArg Host.Outcome.next (axioQualify_idle h),
    fun t0 hf ht hin => ?_, fun h => congrArg Host.Outcome.next (chatterEnd_lasts h), fun hc ht =>
      ⟨fun h9 h10 h11 => congrArg Host.Outcome.next (chatterEnd_quiet hc ht h9 h10 h11), ⟨_, rfl, chatterEnd_pins hc ht⟩⟩,
    fun n => congrArg Host.Outcome.next (if_congr (localReturn_iff s n) rfl rfl), rfl, outputRetry_idle, fun h => (outputRetry_tries h).trans ?_⟩
  · exact congrArg (fun v => ({ s with pins := v } : State)) (upd_congr _ _ _ _ rfl)
  · exact congrArg (fun v => ({ s with pins := v } : State)) (upd_congr _ _ _ _ rfl)
  · have h : s.Debounced i t t0 := ⟨hf, ht, hin⟩
    refine ⟨fun hraw => congrArg Host.Outcome.next (axioQualify_back h hraw), fun hraw => ⟨fun henc hcap =>
      congrArg Host.Outcome.next (axioQualify_waits h hraw henc hcap), fun hcap hquiet =>
        congrArg Host.Outcome.next (axioQualify_capture h hraw hcap hquiet), fun n hn hfunc hquiet ha =>
          congrArg Host.Outcome.next ((axioQualify_encoder h hraw hn hfunc hquiet).trans (encoderEdge_a ha))⟩⟩
  · exact congrArg (fun v => Host.Outcome.next ({ s with pins := v } : State)) (upd_congr _ _ _ _ rfl)

end Sys2Proof.Machine
end

section
/-! PROOF. The brake delay, boost, standstill, and the settling of an encoder (04_axio_homing.md R121; 05_current_control.md R143 to R150, R166;
08_stall.md R234; 09_power_stage.md R252; notes/assumptions/107.md). -/
namespace Sys2Proof.Machine
open Sys2Proof

/-! ### The one command that waits for an axis (R304) -/

section
variable {s : State} {n : AxisId} {act : Nat} {kind : ActKind} {tag : BitVec 16} {q : BitVec 4}

theorem State.SoleAction.waitsFor (h : s.SoleAction n act kind tag q) : s.WaitsFor act kind n tag q := by
  unfold State.WaitsFor
  rw [h]
  simp

theorem State.SoleAction.waitingActs (h : s.SoleAction n act kind tag q) {ks : List ActKind} (hk : ks.contains kind = true) :
    s.waitingActs n ks = [⟨act, .host tag q, axByte n, kind, [n], [], 0, 0⟩] := by
  unfold State.waitingActs
  rw [h]
  simp only [List.filter_cons, List.filter_nil, hk, List.contains_cons, beq_self_eq_true, Bool.true_or, Bool.and_self, if_true]

theorem State.SoleAction.endActs (h : s.SoleAction n act kind tag q) {ks : List ActKind} (hk : ks.contains kind = true) {st : Status} {w : Word}
    (hw : st = .ok → kind ≠ .diagnose → w = 0) : s.endActs n ks st w 0 = { s with q := s.soleDone n tag q st w } := by
  have hgone : s.q.actions.filter (fun a => a.id ≠ act) = [] := by
    rw [h]
    simp
  have hdone : s.actionDone act n tag q st w = s.soleDone n tag q st w :=
    congrArg (fun l => State.entered { s with q := { s.q with actions := l } } [⟨tag, st, 0, axByte n, q, s.axMpos n, w, false⟩]) hgone
  unfold State.endActs
  rw [h.waitingActs hk, forAll_cons, actionAxis_alone h.waitsFor hw, hdone]
  rfl

/-- The entry of a completed command depends on the queues and the progress of its axis alone. -/
theorem soleDone_modAxis (s : State) (n : AxisId) {f : Axis → Axis} (hf : (f (s.ax n)).mot.mProg = (s.ax n).mot.mProg) (tag : BitVec 16)
    (q : BitVec 4) (st : Status) (w : Word) : (s.modAxis n f).soleDone n tag q st w = s.soleDone n tag q st w := by
  have hpos : (s.modAxis n f).axMpos n = s.axMpos n := by
    unfold State.axMpos
    rw [modAxis_ax_self, hf]
  unfold State.soleDone
  rw [hpos]
  rfl

/-- An ENABLE that waits for the axis alone completes (R325). -/
theorem State.SoleAction.endEnable (h : s.SoleAction n act .enable tag q) {st : Status} {w : Word} (hw : st = .ok → w = 0) :
    s.endEnable n st w = { s with
      axes := upd s.axes n fun x => { x with drv := { x.drv with enabling := false } }, q := s.soleDone n tag q st w } := by
  have hsole : State.SoleAction (s.modDrv n fun d => { d with enabling := false }) n act .enable tag q := h
  refine (hsole.endActs (ks := [.enable]) rfl fun ho _ => hw ho).trans ?_
  exact congrArg (fun r => ({ s.modDrv n (fun d => { d with enabling := false }) with q := r } : State))
    (soleDone_modAxis s n (f := fun x => { x with drv := { x.drv with enabling := false } }) rfl tag q st w)

end

/-! ### The brake delay and boost (R121, R148, R325) -/

section
variable {s : State} {n : AxisId}

theorem brakeElapsed_idle (h : (s.ax n).drv.brakeWait = false) : s.brakeElapsed n = s := if_pos (by rw [h]; rfl)

theorem brakeElapsed_disabling (h : (s.ax n).drv.brakeWait = true) (hd : (s.ax n).drv.disabling = true) :
    s.brakeElapsed n = { s with axes := upd s.axes n fun x => { x with drv := { x.drv with offPend := true } } } := by
  refine (if_neg (by rw [h]; decide)).trans ((if_pos hd).trans (congrArg (fun v => ({ s with axes := v } : State)) (upd_congr _ _ _ _ ?_)))
  change ({ s.ax n with drv := { (s.ax n).drv with brakeWait := true, offPend := true } } : Axis) = { s.ax n with drv := { (s.ax n).drv with offPend := true } }
  rw [← h]

/-- An axis whose brake has been released. -/
def Axis.brakeReleased (x : Axis) : Axis := { x with drv := { x.drv with brakeWait := false, brake := x.drv.energised } }

theorem brakeElapsed_releases (h : (s.ax n).drv.brakeWait = true) (hd : (s.ax n).drv.disabling = false) :
    s.brakeElapsed n = (s.modAxis n Axis.brakeReleased).enableReady n := by
  refine (if_neg (by rw [h]; decide)).trans ((if_neg (by rw [hd]; decide)).trans ?_)
  exact congrArg (fun v => State.enableReady { s with axes := v } n) (upd_congr _ _ _ _ rfl)

theorem brakeElapsed_noEnable (h : (s.ax n).drv.brakeWait = true) (hd : (s.ax n).drv.disabling = false) (he : (s.ax n).drv.enabling = false) :
    s.brakeElapsed n = s.modAxis n Axis.brakeReleased := by
  rw [brakeElapsed_releases h hd]
  refine if_neg ?_
  simp only [modAxis_ax_self]
  change ¬((s.ax n).drv.enabling && _ && _ && _) = true
  rw [he]
  simp

theorem brakeElapsed_enable {act : Nat} {tag : BitVec 16} {q : BitVec 4} (h : (s.ax n).drv.brakeWait = true) (hd : (s.ax n).drv.disabling = false)
    (he : (s.ax n).drv.enabling = true) (hm : (s.ax n).cfg.setpoint = false) (hr : (s.ax n).prot.retry = .none) (hs : s.SoleAction n act .enable tag q) :
    s.brakeElapsed n = { s with
      axes := upd s.axes n fun x => { x with drv := { x.drv with brakeWait := false, brake := x.drv.energised, enabling := false } }
      q := s.soleDone n tag q .ok 0 } := by
  have hsole : State.SoleAction (s.modAxis n Axis.brakeReleased) n act .enable tag q := hs
  rw [brakeElapsed_releases h hd]
  have hready : (((s.modAxis n Axis.brakeReleased).ax n).drv.enabling && !((s.modAxis n Axis.brakeReleased).ax n).cfg.setpoint
      && !((s.modAxis n Axis.brakeReleased).ax n).drv.brakeWait && decide (((s.modAxis n Axis.brakeReleased).ax n).prot.retry = .none)) = true := by
    rw [modAxis_ax_self]
    change ((s.ax n).drv.enabling && !(s.ax n).cfg.setpoint && !false && decide ((s.ax n).prot.retry = .none)) = true
    rw [he, hm, hr]
    rfl
  refine (if_pos hready).trans ((hsole.endEnable fun _ => rfl).trans ?_)
  rw [soleDone_modAxis s n (f := Axis.brakeReleased) rfl]
  exact congrArg (fun v => ({ s with axes := v, q := s.soleDone n tag q .ok 0 } : State)) (upd_upd s.axes n Axis.brakeReleased _)

theorem boostExpired_iff (s : State) (n : AxisId) : ((s.ax n).drv.sel.armed && decide (msTicks (s.ax n).cfg.tboost ≤ (s.ax n).drv.sel.boostT)) = true
    ↔ (s.ax n).drv.sel.armed = true ∧ msTicks (s.ax n).cfg.tboost ≤ (s.ax n).drv.sel.boostT := by
  rw [Bool.and_eq_true, decide_eq_true_iff]

/-! ### Standstill (R143, R146, R147, R150) -/

theorem angle_sel (s : State) (n : AxisId) (th amp : Nat) : ((s.angle n th amp).ax n).drv.sel = (s.ax n).drv.sel := by
  unfold State.angle
  rw [modDrv_ax_self]

theorem setCoils_sel (s : State) (n : AxisId) : ((s.setCoils n).ax n).drv.sel = (s.ax n).drv.sel := by
  unfold State.setCoils
  extract_lets x l sg th
  split
  · rw [modDrv_ax_self]
  · split
    · rw [angle_sel, modEnc_ax_self]
    · exact angle_sel ..

theorem setCoils_dark (h : (s.ax n).drv.energised = false) : ((s.setCoils n).ax n).drv.ia = 0 ∧ ((s.setCoils n).ax n).drv.ib = 0 := by
  rw [show s.setCoils n = s.modDrv n fun d => { d with ia := 0, ib := 0 } from if_pos (by rw [h]; rfl), modDrv_ax_self]
  exact ⟨rfl, rfl⟩

/-- The amplitude state that a frame of an energised axis selects. -/
def State.ampSelected (s : State) (n : AxisId) : AmpState :=
  (s.ax n).drv.selPrev.select { (s.ax n).cfg with laEn := (s.ax n).cfg.laEn && !((s.ax n).cfg.setpoint && (s.ax n).enc.closed) }
    (s.irunE n) (s.iminE n) (s.ax n).drv.gboost (s.ax n).drv.ghold s.len (s.movingNow n) (s.headNow n) (s.ax n).drv.headNew (s.ax n).obs.valid
    (s.ax n).obs.delta

theorem selectAmp_energised (h : (s.ax n).drv.energised = true) : ((s.selectAmp n).ax n).drv.sel.target = (s.ampSelected n).target
    ∧ ((s.selectAmp n).ax n).drv.energised = true ∧ ((s.selectAmp n).ax n).mot = { (s.ax n).mot with moving := s.movingNow n } := by
  unfold State.selectAmp
  extract_lets x mv hd la sel amp s1
  rw [if_pos h, modMot_ax_self, modDrv_ax_self]
  exact ⟨rfl, h, rfl⟩

theorem selectAmp_dark (h : (s.ax n).drv.energised = false) : ((s.selectAmp n).ax n).drv.sel.amp = 0
    ∧ ((s.selectAmp n).ax n).drv.energised = false ∧ ((s.selectAmp n).ax n).mot = { (s.ax n).mot with moving := s.movingNow n } := by
  unfold State.selectAmp
  extract_lets x mv hd la sel amp s1
  rw [if_neg (by rw [h]; decide), modMot_ax_self, modDrv_ax_self]
  exact ⟨rfl, h, rfl⟩

/-- An axis that has stood for TSTAND takes ghold as its target (R147). -/
theorem ampSelected_stands (hm : s.movingNow n = false) (ht : msTicks (s.ax n).cfg.tstand ≤ (s.ax n).drv.selPrev.idleT) :
    (s.ampSelected n).target = (s.ax n).drv.ghold := by
  unfold State.ampSelected AmpState.select
  simp only [hm, Bool.false_eq_true, if_false, if_neg (Nat.not_lt.2 ht)]

theorem selectAmp_mot (s : State) (n : AxisId) : ((s.selectAmp n).ax n).mot = { (s.ax n).mot with moving := s.movingNow n } := by
  cases h : (s.ax n).drv.energised with
  | true => exact (selectAmp_energised h).2.2
  | false => exact (selectAmp_dark h).2.2

theorem exec_standstillTimeout (s : State) (n : AxisId) : ∃ t, exec (.standstillTimeout n) s = .next t ∧ sameButAxis n s t
    ∧ (t.ax n).cfg = (s.ax n).cfg ∧ (t.ax n).prot = (s.ax n).prot
    ∧ (t.ax n).mot = { (s.ax n).mot with moving := s.movingNow n } ∧ (t.ax n).drv.enabled = (s.ax n).drv.enabled
    ∧ ((s.ax n).drv.energised = true → s.movingNow n = false → msTicks (s.ax n).cfg.tstand ≤ (s.ax n).drv.selPrev.idleT →
        (t.ax n).drv.sel.target = (s.ax n).drv.ghold)
    ∧ ((s.ax n).drv.energised = false → (t.ax n).drv.ia = 0 ∧ (t.ax n).drv.ib = 0 ∧ (t.ax n).drv.sel.amp = 0) := by
  have hev := (selectAmp_evaluates s n).trans (setCoils_evaluates (s.selectAmp n) n)
  obtain ⟨hframe, hother, hcfg, hprot, henabled, -, -⟩ := hev.moved
  refine ⟨_, rfl, ⟨?_, hother⟩, hcfg, hprot, (setCoils_mot ..).trans (selectAmp_mot s n), henabled, fun he hm ht => ?_, fun he => ?_⟩
  · have hq := hev.q
    have hsb := hev.sb
    rw [hq, hsb] at hframe
    exact hframe
  · rw [setCoils_sel, (selectAmp_energised he).1]
    exact ampSelected_stands hm ht
  · obtain ⟨hamp, hen, -⟩ := selectAmp_dark he
    obtain ⟨ha, hb⟩ := setCoils_dark (s := s.selectAmp n) hen
    exact ⟨ha, hb, by rw [setCoils_sel]; exact hamp⟩

/-! ### The settling of an encoder (R166, R234, R252) -/

theorem exec_encoderSettle_settles {b : Bool} (h : ¬((s.ax n).prot.retry = .energise ∧ (s.ax n).cfg.setpoint = true ∧ (s.ax n).enc.fallback = false
      ∧ b = false ∧ (s.ax n).enc.closed = false)) : exec (.encoderSettle n b) s = .next (s.encoderSettle n b) := by
  refine congrArg Host.Outcome.next (if_neg fun hc => h ?_)
  simpa [and_assoc] using hc

theorem encoderSettle_dark (h : (s.ax n).drv.energised = false) (b : Bool) : s.encoderSettle n b = s := if_pos (by rw [h]; rfl)

/-- The check of a MICROSTEP axis arms, with penc at the output position (R234). -/
theorem encoderSettle_arms (h : (s.ax n).drv.energised = true) (hm : (s.ax n).cfg.setpoint = false) (hc : (s.ax n).cfg.cprm ≠ 0)
    (ha : (s.ax n).enc.armed = false) (hd : (s.ax n).enc.disarmed = false) (he : s.hasEncoder n = true) :
    s.encoderSettle n true = { s with axes := upd s.axes n fun x => { x with
      mot := { x.mot with eoff := x.mot.out - (x.penc - x.mot.eoff) }, enc := { x.enc with armed := true } } } := by
  refine (if_neg (by rw [h]; decide)).trans ((if_neg (by rw [hm]; decide)).trans ((if_pos (by simp [hc, ha, hd, he])).trans ?_))
  exact (modAxis_modAxis s n _ _).trans (congrArg (fun v => ({ s with axes := v } : State)) (upd_congr _ _ _ _ rfl))

/-- An axis whose loop closes, with penc at its position (R166). -/
def Axis.loopClosed (x : Axis) : Axis := { x with
  mot := { x.mot with eoff := x.mot.pos - (x.penc - x.mot.eoff) }
  enc := { x.enc with closed := true, armed := !x.enc.disarmed, loop := {}, loopPrev := {} } }

/-- The axis is in SETPOINT mode, energised, and its loop is not closed (R166). -/
structure State.LoopOpen (s : State) (n : AxisId) : Prop where
  energised : (s.ax n).drv.energised = true
  fallback : (s.ax n).enc.fallback = false
  setpoint : (s.ax n).cfg.setpoint = true
  closed : (s.ax n).enc.closed = false

theorem encoderSettle_closes (h : s.LoopOpen n) : s.encoderSettle n true =
    if (s.ax n).prot.retry = .energise then s.modAxis n Axis.loopClosed
    else if (s.ax n).drv.enabling then (s.modAxis n Axis.loopClosed).endEnable n .ok 0 else s.modAxis n Axis.loopClosed := by
  have hclose : ((s.modMot n fun a => { a with eoff := (s.ax n).eoffFor a.pos }).modEnc n fun e =>
      { e with closed := true, armed := !e.disarmed, loop := {}, loopPrev := {} }) = s.modAxis n Axis.loopClosed :=
    (modAxis_modAxis s n _ _).trans (congrArg (fun v => ({ s with axes := v } : State)) (upd_congr _ _ _ _ rfl))
  rw [← hclose]
  exact (if_neg (by rw [h.energised]; decide)).trans ((if_pos h.setpoint).trans ((if_neg (by simp [h.closed])).trans
    ((if_neg (by simp [h.fallback])).trans (if_pos rfl))))

theorem encoderSettle_fallback (h : (s.ax n).drv.energised = true) (hf : (s.ax n).enc.fallback = true) (hm : (s.ax n).cfg.setpoint = true) :
    s.encoderSettle n true = s :=
  (if_neg (by rw [h]; decide)).trans ((if_pos hm).trans ((if_neg (by simp [hf])).trans (if_pos (by simp [hf]))))

/-- The loop has not closed in its time: an ENABLE ends with STALL (R325). -/
theorem encoderSettle_fails (h : s.LoopOpen n) (he : (s.ax n).drv.enabling = true) (hr : (s.ax n).prot.retry = .none) :
    s.encoderSettle n false = s.turnOff n .stall 0 :=
  (if_neg (by rw [h.energised]; decide)).trans ((if_pos h.setpoint).trans ((if_neg (by simp [h.closed])).trans
    ((if_neg (by simp)).trans ((if_neg (by simp)).trans (if_pos (by simp [he, hr]))))))

theorem encoderSettle_endsEnable {act : Nat} {tag : BitVec 16} {q : BitVec 4} (h : s.LoopOpen n) (he : (s.ax n).drv.enabling = true)
    (hr : (s.ax n).prot.retry ≠ .energise) (hs : s.SoleAction n act .enable tag q) : s.encoderSettle n true = { s with
      axes := upd s.axes n fun x => { x.loopClosed with drv := { x.drv with enabling := false } }, q := s.soleDone n tag q .ok 0 } := by
  have hsole : State.SoleAction (s.modAxis n Axis.loopClosed) n act .enable tag q := hs
  rw [encoderSettle_closes h, if_neg hr, if_pos he]
  refine (hsole.endEnable fun _ => rfl).trans ?_
  rw [soleDone_modAxis s n (f := Axis.loopClosed) rfl]
  exact congrArg (fun v => ({ s with axes := v, q := s.soleDone n tag q .ok 0 } : State)) (upd_upd s.axes n Axis.loopClosed _)

/-! ### A try that failed (R252, R254) -/

theorem onlyAxis_trans {t u : State} (h : s.onlyAxis t n) (k : t.onlyAxis u n) : s.onlyAxis u n := by
  obtain ⟨h1, h2, h3⟩ := h
  obtain ⟨k1, k2, k3⟩ := k
  refine ⟨?_, fun j hj => (k2 j hj).trans (h2 j hj), k3.trans h3⟩
  rw [k1, h1]
  rfl

/-- What an axis that is turned off keeps, unchanged by what an event notes of it before. -/
structure Axis.KeptForOff (x y : Axis) : Prop where
  cfg : y.cfg = x.cfg
  enc : y.enc = x.enc
  drv : y.drv = x.drv
  pos : y.mot.pos = x.mot.pos
  out : y.mot.out = x.mot.out
  master : y.mot.master = x.mot.master
  owner : y.prot.owner = x.prot.owner

/-- An axis that is turned off after such a note is turned off. -/
theorem axisOff_before {t u : State} (hu : s.onlyAxis u n) (hk : (s.ax n).KeptForOff (u.ax n)) (h : u.axisOff t n) : s.axisOff t n := by
  obtain ⟨honly, hcfg, henc, hdrv, hruns, hqueue, hstop, hjog, hheld, hvel, hpos, hout, hmaster, hpartner, hident, howner, hops⟩ := h
  exact ⟨onlyAxis_trans hu honly, hcfg.trans hk.cfg, henc.trans hk.enc, hdrv.trans (by rw [hk.drv]), hruns, hqueue, hstop, hjog, hheld, hvel,
    hpos.trans hk.pos, hout.trans hk.out, hmaster.trans hk.master, hpartner, hident, howner.trans hk.owner, hops⟩

theorem modAxis_onlyAxis (s : State) (n : AxisId) (f : Axis → Axis) : s.onlyAxis (s.modAxis n f) n :=
  ⟨rfl, fun _ hk => modAxis_ax_other _ _ _ _ hk, rfl⟩

/-- An axis that DRIVE_FAULT has latched, after the tries given (R254). -/
def Axis.latchNoted (tries : Nat) (x : Axis) : Axis := { x with prot := { x.prot with latched := true, retry := .latch, tries := tries, partner := none } }

theorem latchNoted_offNoted (x : Axis) (hp : x.prot.partner = none) (tries : Nat) : x.OffNoted (x.latchNoted tries) :=
  ⟨rfl, rfl, rfl, rfl, hp.symm, rfl, rfl⟩

/-- What a latch notes of an axis that it has turned off. -/
def State.noteLatched (u : State) (n : AxisId) (tries : Nat) : State :=
  (u.modProt n fun p => { p with latched := true, retry := .latch, tries := tries, partner := none }).shaleAxis n 23

theorem noteLatched_frame (u : State) (n : AxisId) (tries : Nat) :
    u.noteLatched n tries = { u.logs (u.noteLatched n tries) with axes := upd u.axes n (Axis.latchNoted tries) } := shale_frame ..

theorem latch_off (s : State) (n : AxisId) : s.axisOff (s.latch n) n ∧ (s.latch n).ax n = (s.ax n).off.latchNoted (s.ax n).prot.tries := by
  have hoff := turnOff_axisOff s n .driveFault (s.ax n).prot.faultWord
  have hpartner : ((s.turnOff n .driveFault (s.ax n).prot.faultWord).ax n).prot.partner = none := by
    rw [turnOff_ax]
    rfl
  have h := axisOff_noted hoff (latchNoted_offNoted _ hpartner (s.ax n).prot.tries) (noteLatched_frame _ n _)
  rw [turnOff_ax] at h
  have hl : s.latch n = (s.turnOff n .driveFault (s.ax n).prot.faultWord).noteLatched n (s.ax n).prot.tries := by
    unfold State.latch State.noteLatched
    rfl
  rw [hl]
  exact h

/-- The protection of an axis whose loop did not close in ENERGISE (R254). -/
def AxisProt.tried (leg : LegId) (p : AxisProt) : AxisProt := { p with cls := 5, firstLeg := leg.val, tries := min 255 (p.tries + 1), partner := none }

theorem failedTry_tries (s : State) (n : AxisId) (leg : LegId) : s.failedTry n leg =
    if (s.grp (groupOf n)).trnEff.toNat < min 255 ((s.ax n).prot.tries + 1) then (s.modProt n (AxisProt.tried leg)).latch n
    else (s.modProt n (AxisProt.tried leg)).retryWait n := by
  have htries : ((s.modProt n (AxisProt.tried leg)).ax n).prot.tries = min 255 ((s.ax n).prot.tries + 1) := by
    rw [modProt_ax_self]
    rfl
  rw [← htries]
  rfl

theorem legsOff_ax (s : State) (n : AxisId) : (s.legsOff n).ax n = { s.ax n with drv := { (s.ax n).drv with energised := false, offPend := false } } := by
  have hax : (s.forAll (s.drivenLegs n) fun s m => s.modLeg m Leg.turnOff).ax n = s.ax n :=
    forAll_same (fun t : State => t.ax n) (s.drivenLegs n) (fun s m => s.modLeg m Leg.turnOff) (fun _ _ _ => rfl) s
  unfold State.legsOff
  rw [modDrv_ax_self, hax]

theorem retryWait_prot (s : State) (n : AxisId) : ((s.retryWait n).ax n).prot = { (s.ax n).prot with retry := .wait, waitDone := false }
    ∧ ((s.retryWait n).ax n).drv.energised = false := by
  have hprot : (((s.reeval n).ownedAlert n).ax n).prot = (s.ax n).prot :=
    (congrArg Axis.prot (endsOn_ax (ownedAlert_endsOn (s.reeval n) n)) :).trans (reeval_evaluates s n).moved.2.2.2.1
  unfold State.retryWait
  generalize (s.reeval n).ownedAlert n = u at hprot
  simp only [modProt_ax_self, modMot_ax_self, modDrv_ax_self, legsOff_ax]
  rw [hprot]
  exact ⟨rfl, trivial⟩

theorem exec_encoderSettle_retry (h : s.LoopOpen n) (hr : (s.ax n).prot.retry = .energise) :
    exec (.encoderSettle n false) s = .next (s.failedTry n (legOf n 0)) :=
  congrArg Host.Outcome.next (if_pos (by simp [hr, h.setpoint, h.fallback, h.closed]))

/-- With the tries used up the axis latches (R252, R254). -/
theorem failedTry_latches (leg : LegId) (ht : (s.grp (groupOf n)).trnEff.toNat < min 255 ((s.ax n).prot.tries + 1)) :
    s.axisOff (s.failedTry n leg) n ∧ ((s.failedTry n leg).ax n).prot.latched = true ∧ ((s.failedTry n leg).ax n).prot.retry = .latch
      ∧ ((s.failedTry n leg).ax n).prot.tries = min 255 ((s.ax n).prot.tries + 1) ∧ ((s.failedTry n leg).ax n).prot.cls = 5 := by
  obtain ⟨hoff, hax⟩ := latch_off (s.modProt n (AxisProt.tried leg)) n
  rw [failedTry_tries, if_pos ht, hax, modProt_ax_self]
  refine ⟨axisOff_before (modAxis_onlyAxis s n _) ?_ hoff, rfl, rfl, rfl, rfl⟩
  rw [modAxis_ax_self]
  exact ⟨rfl, rfl, rfl, rfl, rfl, rfl, rfl⟩

/-- Before that it waits for the next try (R252). -/
theorem failedTry_waits (leg : LegId) (ht : min 255 ((s.ax n).prot.tries + 1) ≤ (s.grp (groupOf n)).trnEff.toNat) :
    ((s.failedTry n leg).ax n).prot.retry = .wait ∧ ((s.failedTry n leg).ax n).drv.energised = false
      ∧ ((s.failedTry n leg).ax n).prot.tries = min 255 ((s.ax n).prot.tries + 1) ∧ ((s.failedTry n leg).ax n).prot.cls = 5 := by
  obtain ⟨hprot, hdark⟩ := retryWait_prot (s.modProt n (AxisProt.tried leg)) n
  rw [failedTry_tries, if_neg (Nat.not_lt.2 ht), hprot, modProt_ax_self]
  exact ⟨rfl, hdark, rfl, rfl⟩

end

/-- Settles O49: brake, boost and standstill are one function of the axis each, and an encoder settles by cases of its loop. Under the fallback of
ENC_ERR the loop is not closed for a waiting ENABLE: the model's choice (notes/assumptions/107.md). -/
theorem brakesAmplitudesAndEncodersSettle : Obligations.BrakesAmplitudesAndEncodersSettle := by
  unfold Obligations.BrakesAmplitudesAndEncodersSettle
  refine ⟨fun s n => ⟨fun h => congrArg Host.Outcome.next (brakeElapsed_idle h), fun h hd => congrArg Host.Outcome.next (brakeElapsed_disabling h hd),
      fun h hd he => congrArg Host.Outcome.next (brakeElapsed_noEnable h hd he), fun act tag q h hd he hm hr hs =>
        congrArg Host.Outcome.next (brakeElapsed_enable h hd he hm hr hs), fun h => congrArg Host.Outcome.next (if_neg fun hc => ?_),
      fun ha ht => congrArg Host.Outcome.next (if_pos ((boostExpired_iff s n).2 ⟨ha, ht⟩)), exec_standstillTimeout s n⟩, fun s n => ?_⟩
  · obtain ⟨ha, ht⟩ := (boostExpired_iff s n).1 hc
    rcases h with h | h
    · exact absurd ha (by rw [h]; decide)
    · omega
  · refine ⟨fun h hr b => (exec_encoderSettle_settles fun hc => hr hc.1).trans (congrArg Host.Outcome.next (encoderSettle_dark h b)),
      fun h hd hm hc ha he => (exec_encoderSettle_settles fun hc' => absurd hc'.2.1 (by rw [hm]; decide)).trans
        (congrArg Host.Outcome.next (encoderSettle_arms h hm hc ha hd he)),
      fun h hf hm => (exec_encoderSettle_settles fun hc => absurd hc.2.2.1 (by rw [hf]; decide)).trans
        (congrArg Host.Outcome.next (encoderSettle_fallback h hf hm)),
      fun h hf hm hc => ?_⟩
    have hopen : s.LoopOpen n := ⟨h, hf, hm, hc⟩
    have hstood : exec (.encoderSettle n true) s = .next (s.encoderSettle n true) := exec_encoderSettle_settles fun hc' => absurd hc'.2.2.2.1 (by decide)
    refine ⟨fun he => ?_, fun act tag q he hr hs => hstood.trans (congrArg Host.Outcome.next (encoderSettle_endsEnable hopen he hr hs)),
      fun he hr => ⟨_, (exec_encoderSettle_settles fun hc' => absurd (hr.symm.trans hc'.1) (by decide)).trans
        (congrArg Host.Outcome.next (encoderSettle_fails hopen he hr)), turnOff_axisOff s n .stall 0⟩,
      fun hr ht => ⟨_, exec_encoderSettle_retry hopen hr, failedTry_latches (legOf n 0) ht⟩,
      fun hr ht => ⟨_, exec_encoderSettle_retry hopen hr, failedTry_waits (legOf n 0) ht⟩⟩
    rw [hstood, encoderSettle_closes hopen]
    by_cases hr : (s.ax n).prot.retry = .energise
    · rw [if_pos hr]
      rfl
    · rw [if_neg hr, if_neg (by rw [he.resolve_right hr]; decide)]
      rfl

end Sys2Proof.Machine
end

section
/-! PROOF. The measurements of Quartz and what the observer learns (07_quartz_calibration.md R199 to R202, R210, R215 to R219; 08_stall.md R229,
R232; notes/assumptions/20.md). -/
namespace Sys2Proof.Machine
open Sys2Proof

/-! ### The delay line of a group (R199 to R202, R210) -/

section
variable {s : State} {g : GroupId} {c : Vector Nat 16}

/-- The gain target of a leg at its group's die temperature (R210). -/
def State.gainTarget (s : State) (g : GroupId) (m : LegId) : Int := gsTargetAt (s.legTrim m).gs0 (s.legTrim m).k1 (s.legTrim m).k2 (s.grp g).temp.toInt

/-- A leg of the group is one of its sixteen. -/
theorem exists_legAt {m : LegId} (h : groupOfLeg m = g) : ∃ k, legAt g k = m := by
  obtain ⟨k, -, hk⟩ := List.mem_map.1 ((mem_groupLegs g m).2 h)
  exact ⟨k, hk⟩

/-- Effects on each of a group's legs, one after another. -/
theorem forAll_legAt_leg {f : State → Fin 16 → State} {F : LegId → Leg → Leg} (hf : ∀ s k, (f s k).legs = upd s.legs (legAt g k) (F (legAt g k)))
    (s : State) (m : LegId) : (s.forAll (List.finRange 16) f).leg m = if groupOfLeg m = g then F m (s.leg m) else s.leg m := by
  obtain ⟨hin, hout⟩ := forAll_legAt (F := fun k => F (legAt g k)) hf s
  split
  · next h =>
    obtain ⟨k, rfl⟩ := exists_legAt h
    exact hin k
  · next h => exact hout m h

/-- A leg with a gain target (R210). -/
def Leg.aimed (l : Leg) (t : Int) : Leg := { l with gsTarget := some (clampI 12288 20480 t).toNat }

theorem aimed_gsTarget (l : Leg) (t : Int) : (l.aimed t).gsTarget = some (clampI 12288 20480 t).toNat := rfl

theorem aimed_kept (l : Leg) (t : Int) : (l.aimed t).gs = l.gs ∧ (l.aimed t).en = l.en ∧ (l.aimed t).onS = l.onS := ⟨rfl, rfl, rfl⟩

/-- Every leg of a group with its gain target (R210). -/
def State.gainLegs (s : State) (g : GroupId) : State :=
  s.forAll (List.finRange 16) fun u k => u.modLeg (legAt g k) fun l => l.aimed (s.gainTarget g (legAt g k))

/-- A converter whose legs' gain targets have been judged (R210). -/
def State.gainRange (s : State) (g : GroupId) (u : State) (h : Fin 2) : State :=
  u.modAdc ⟨2 * g.val + h.val, by omega⟩ fun x => { x with
    gsRange := (adcLegs ⟨2 * g.val + h.val, by omega⟩).any fun m => s.gainTarget g m < 12288 || 20480 < s.gainTarget g m }

theorem gainTargets_eq (s : State) (g : GroupId) : s.gainTargets g = (s.gainLegs g).forAll (List.finRange 2) (s.gainRange g) := by
  have h : s.gainLegs g = s.forAll ((List.finRange 16).map (legAt g)) fun u m => u.modLeg m fun l => l.aimed (s.gainTarget g m) := by
    unfold State.gainLegs State.forAll
    rw [List.foldl_map]
  rw [h]
  unfold State.gainTargets State.gainRange Leg.aimed State.gainTarget
  rfl

theorem gainTargets_leg (s : State) (g : GroupId) (m : LegId) : (s.gainTargets g).leg m =
    if groupOfLeg m = g then (s.leg m).aimed (s.gainTarget g m) else s.leg m := by
  have hadcs : ((s.gainLegs g).forAll (List.finRange 2) (s.gainRange g)).legs = (s.gainLegs g).legs :=
    forAll_same State.legs (List.finRange 2) (s.gainRange g) (fun _ _ _ => rfl) (s.gainLegs g)
  rw [gainTargets_eq]
  exact (congrArg (fun v : Vector Leg 192 => v[m.val]) hadcs).trans
    (forAll_legAt_leg (F := fun m l => l.aimed (s.gainTarget g m)) (fun _ _ => rfl) s m)

theorem gainTargets_frame (s : State) (g : GroupId) : s.gainTargets g = { s with legs := (s.gainTargets g).legs, adcs := (s.gainTargets g).adcs } := by
  have h1 : s.gainLegs g = { s with legs := (s.gainLegs g).legs } := forAll_legs _ _ (fun _ _ _ => rfl) s
  rw [gainTargets_eq]
  refine forAll_keeps (fun u => u = { s with legs := u.legs, adcs := u.adcs }) (List.finRange 2) (s.gainRange g) (fun u h _ hu => ?_) (s.gainLegs g) (by rw [h1])
  rw [hu]
  rfl

/-- A leg whose committed pair takes up what its fine codes lose (R183, R202). -/
def Leg.refined (sign : Int) (l : Leg) : Leg :=
  { l with carryS := if l.committed then l.carryS + sign * fineLoss l.onS.toNat l.offS.toNat else l.carryS }

theorem refine_frame (s : State) (g : GroupId) (sign : Int) : s.refine g sign = { s with legs := (s.refine g sign).legs } := by
  unfold State.refine
  split
  · rfl
  · exact forAll_legs _ _ (fun _ _ _ => rfl) s

theorem refine_leg (s : State) (g : GroupId) (sign : Int) (m : LegId) : (s.refine g sign).leg m =
    if groupOfLeg m = g ∧ (s.grp g).hostDriven = false then (s.leg m).refined sign else s.leg m := by
  unfold State.refine
  cases h : (s.grp g).hostDriven with
  | true => simp
  | false =>
    rw [if_neg Bool.false_ne_true, forAll_legAt_leg (F := fun _ => Leg.refined sign) fun _ _ => rfl]
    simp

/-- Every measured count lies in range (R199). -/
def countsOk (c : Vector Nat 16) : Prop := ∀ x ∈ c.toList, 16 ≤ x ∧ x ≤ 95

theorem countsOk_iff (c : Vector Nat 16) : (c.toList.all fun k => 16 ≤ k && k ≤ 95) = true ↔ countsOk c := by
  rw [List.all_eq_true]
  unfold countsOk
  simp only [Bool.and_eq_true, decide_eq_true_iff]

/-- The table that a valid measurement gives a group (R200, R201). -/
def State.nextTaps (s : State) (g : GroupId) (sum : Nat) : List Nat :=
  if (s.grp g).fineLost && 3 ≤ (s.grp g).fineGood || !((List.finRange 16).any fun m => (s.leg (legAt g m)).en) then tapTarget sum
  else (s.grp g).taps.zipWith tapStep (tapTarget sum)

theorem delayLine_wrongFrame (h : s.frameNat % 64 ≠ 5 * g.val % 64) : s.delayLine g c = s := if_pos h

theorem delayLine_valid (hf : s.frameNat % 64 = 5 * g.val % 64) (hc : countsOk c) (hs : ((s.grp g).fineLost && decide (3 ≤ (s.grp g).fineGood)) = false) :
    s.delayLine g c = (s.gainTargets g).modGroup g fun x => { x with
      lastS := c.toList.sum, fineLost := (s.grp g).fineLost, fineGood := if (s.grp g).fineLost then x.fineGood + 1 else 0
      tapsNext := some (s.nextTaps g c.toList.sum) } := by
  have hstill : ((s.grp g).fineLost && !((s.grp g).fineLost && decide (3 ≤ (s.grp g).fineGood))) = (s.grp g).fineLost := by rw [hs]; simp
  refine (if_neg (not_not.2 hf)).trans ((if_pos ((countsOk_iff c).2 hc)).trans ((if_neg (by rw [hs]; decide)).trans ?_))
  simp only [hstill]
  rfl

theorem delayLine_clears (hf : s.frameNat % 64 = 5 * g.val % 64) (hc : countsOk c) (hs : ((s.grp g).fineLost && decide (3 ≤ (s.grp g).fineGood)) = true) :
    s.delayLine g c = (((s.gainTargets g).modGroup g fun x => { x with
      lastS := c.toList.sum, fineLost := false, fineGood := 0, tapsNext := some (tapTarget c.toList.sum) }).refine g (-1)).shale 8 g.val g.val
        (Config.shaleData 8) := by
  have hstill : ((s.grp g).fineLost && !((s.grp g).fineLost && decide (3 ≤ (s.grp g).fineGood))) = false := by rw [hs]; simp
  refine (if_neg (not_not.2 hf)).trans ((if_pos ((countsOk_iff c).2 hc)).trans ((if_pos hs).trans ?_))
  simp only [hstill]
  rw [hs]
  rfl

theorem delayLine_invalid (hf : s.frameNat % 64 = 5 * g.val % 64) (hc : ¬countsOk c) : s.delayLine g c =
    if (s.grp g).fineLost then (s.gainTargets g).modGroup g fun x => { x with lastS := c.toList.sum, fineLost := true, fineGood := 0 }
    else (((s.gainTargets g).modGroup g fun x => { x with lastS := c.toList.sum, fineLost := true, fineGood := 0 }).refine g 1).shale 8 g.val g.val
      (Config.shaleData 8) :=
  (if_neg (not_not.2 hf)).trans (if_neg fun h => hc ((countsOk_iff c).1 h))

/-- What a measurement leaves as it was: all but the group's page, its legs' gain targets and carries, its converters' ranges, and the log. -/
structure State.MeasuredOnly (s : State) (g : GroupId) (t : State) : Prop where
  frame : t = { s.logs t with groups := t.groups, legs := t.legs, adcs := t.adcs }
  groups : ∀ k, k ≠ g → t.grp k = s.grp k
  others : ∀ m, groupOfLeg m ≠ g → t.leg m = s.leg m
  legs : ∀ m, groupOfLeg m = g → (t.leg m).gs = (s.leg m).gs ∧ (t.leg m).en = (s.leg m).en ∧ (t.leg m).onS = (s.leg m).onS
    ∧ (t.leg m).gsTarget = some (clampI 12288 20480 (s.gainTarget g m)).toNat

theorem measuredOnly_gains (s : State) (g : GroupId) (f : Group → Group) : s.MeasuredOnly g ((s.gainTargets g).modGroup g f) := by
  have hframe := gainTargets_frame s g
  have hleg := gainTargets_leg s g
  generalize s.gainTargets g = u at hframe hleg
  have hgroups : u.groups = s.groups := (congrArg State.groups hframe :)
  refine ⟨?_, fun k hk => ?_, fun m hm => (hleg m).trans (if_neg hm), fun m hm => ?_⟩
  · rw [hframe]
    rfl
  · exact (upd_other u.groups g k f hk).trans (congrArg (fun v : Vector Group 12 => v[k.val]) hgroups)
  · have hm' : (u.modGroup g f).leg m = (s.leg m).aimed (s.gainTarget g m) := (hleg m).trans (if_pos hm)
    obtain ⟨hgs, hen, hon⟩ := aimed_kept (s.leg m) (s.gainTarget g m)
    rw [hm']
    exact ⟨hgs, hen, hon, aimed_gsTarget ..⟩

theorem State.MeasuredOnly.refine {t : State} (h : s.MeasuredOnly g t) (sign : Int) : s.MeasuredOnly g (t.refine g sign) := by
  have hframe := refine_frame t g sign
  have hleg := refine_leg t g sign
  generalize t.refine g sign = u at hframe hleg
  obtain ⟨hf, hg, ho, hl⟩ := h
  refine ⟨?_, fun k hk => ?_, fun m hm => ?_, fun m hm => ?_⟩
  · rw [hframe]
    exact (congrArg (fun v : State => { v with legs := u.legs }) hf).trans rfl
  · rw [hframe]
    exact hg k hk
  · rw [hleg, if_neg fun hc => hm hc.1]
    exact ho m hm
  · rw [hleg]
    split
    · exact hl m hm
    · exact hl m hm

theorem State.MeasuredOnly.shale {t : State} (h : s.MeasuredOnly g t) (cls code src : Nat) (data : BitVec 24) : s.MeasuredOnly g (t.shale cls code src data) := by
  have hframe := shale_frame t cls code src data
  generalize t.shale cls code src data = u at hframe
  obtain ⟨hf, hg, ho, hl⟩ := h
  have hdev : u.dev = { s.dev with shalePend := u.dev.shalePend, shaleDropped := u.dev.shaleDropped } := by
    rw [hframe, hf]
    rfl
  refine ⟨?_, fun k hk => ?_, fun m hm => ?_, fun m hm => ?_⟩
  · rw [hframe]
    exact (congrArg (fun v : State => { v with dev := { v.dev with shalePend := u.dev.shalePend, shaleDropped := u.dev.shaleDropped } }) hf).trans rfl
  · rw [hframe]
    exact hg k hk
  · rw [hframe]
    exact ho m hm
  · rw [hframe]
    exact hl m hm

theorem shale_grp (s : State) (cls code src : Nat) (data : BitVec 24) (k : GroupId) : (s.shale cls code src data).grp k = s.grp k := by
  rw [shale_frame]
  rfl

theorem refine_grp (s : State) (g k : GroupId) (sign : Int) : (s.refine g sign).grp k = s.grp k := by rw [refine_frame]; rfl

theorem gainTargets_grp (s : State) (g : GroupId) (f : Group → Group) : ((s.gainTargets g).modGroup g f).grp g = f (s.grp g) := by
  have hgroups : (s.gainTargets g).groups = s.groups := (congrArg State.groups (gainTargets_frame s g) :)
  exact (upd_self (s.gainTargets g).groups g f).trans (congrArg (fun v : Vector Group 12 => f v[g.val]) hgroups)

theorem gainTargets_dev (s : State) (g : GroupId) : (s.gainTargets g).dev = s.dev := (congrArg State.dev (gainTargets_frame s g) :)

theorem tapStep_near (b x : Nat) : tapStep b x ≤ b + 2 ∧ b ≤ tapStep b x + 2 := by
  unfold tapStep
  omega

theorem nextTaps_free (hs : ((s.grp g).fineLost && decide (3 ≤ (s.grp g).fineGood)) = true ∨ ∀ m, groupOfLeg m = g → (s.leg m).en = false) (sum : Nat) :
    s.nextTaps g sum = tapTarget sum := by
  refine if_pos ?_
  rcases hs with h | h
  · rw [h]
    rfl
  · have hoff : ((List.finRange 16).any fun m => (s.leg (legAt g m)).en) = false :=
      List.any_eq_false.2 fun m _ => by rw [h _ (groupOfLeg_legAt g m)]; decide
    rw [hoff]
    simp

theorem nextTaps_near (hs : ((s.grp g).fineLost && decide (3 ≤ (s.grp g).fineGood)) = false) (hon : ∃ m, groupOfLeg m = g ∧ (s.leg m).en = true)
    (sum : Nat) {k a b : Nat} (ha : (s.nextTaps g sum)[k]? = some a) (hb : (s.grp g).taps[k]? = some b) : a ≤ b + 2 ∧ b ≤ a + 2 := by
  obtain ⟨m, hm, hen⟩ := hon
  obtain ⟨j, rfl⟩ := exists_legAt hm
  have hany : ((List.finRange 16).any fun m => (s.leg (legAt g m)).en) = true := List.any_eq_true.2 ⟨j, List.mem_finRange j, hen⟩
  have hnext : s.nextTaps g sum = (s.grp g).taps.zipWith tapStep (tapTarget sum) := if_neg (by rw [hs, hany]; decide)
  rw [hnext, List.getElem?_zipWith, hb] at ha
  cases hx : (tapTarget sum)[k]? with
  | none => rw [hx] at ha; exact nomatch ha
  | some x =>
    rw [hx] at ha
    rw [← Option.some.inj ha]
    exact tapStep_near b x

/-- A measurement that does not end FINE_LOST (R199 to R202, R210). -/
theorem exec_delayLineMeasure (hf : s.frameNat % 64 = 5 * g.val % 64) (hs : (s.grp g).fineLost = false ∨ (s.grp g).fineGood < 3) :
    ∃ t, exec (.delayLineMeasure g c) s = .next t ∧ s.MeasuredOnly g t ∧ (t.grp g).lastS = c.toList.sum ∧ (t.grp g).taps = (s.grp g).taps
      ∧ (countsOk c → (t.grp g).fineLost = (s.grp g).fineLost ∧ t.dev = s.dev
          ∧ (t.grp g).fineGood = (if (s.grp g).fineLost = true then (s.grp g).fineGood + 1 else 0)
          ∧ (t.grp g).tapsNext = some (s.nextTaps g c.toList.sum))
      ∧ (¬countsOk c → (t.grp g).fineLost = true ∧ (t.grp g).fineGood = 0 ∧ (t.grp g).tapsNext = (s.grp g).tapsNext) := by
  have hsteady : ((s.grp g).fineLost && decide (3 ≤ (s.grp g).fineGood)) = false := by
    rcases hs with h | h
    · rw [h]; rfl
    · rw [decide_eq_false (by omega), Bool.and_false]
  by_cases hc : countsOk c
  · refine ⟨_, congrArg Host.Outcome.next (delayLine_valid hf hc hsteady), measuredOnly_gains .., ?_⟩
    rw [gainTargets_grp]
    exact ⟨rfl, rfl, fun _ => ⟨rfl, (modGroup_dev ..).trans (gainTargets_dev s g), rfl, rfl⟩, fun h => absurd hc h⟩
  · cases hlost : (s.grp g).fineLost with
    | true =>
      refine ⟨_, congrArg Host.Outcome.next ((delayLine_invalid hf hc).trans (if_pos hlost)), measuredOnly_gains .., ?_⟩
      rw [gainTargets_grp]
      exact ⟨rfl, rfl, fun h => absurd h hc, fun _ => ⟨rfl, rfl, rfl⟩⟩
    | false =>
      refine ⟨_, congrArg Host.Outcome.next ((delayLine_invalid hf hc).trans (if_neg (by rw [hlost]; decide))),
        ((measuredOnly_gains ..).refine 1).shale .., ?_⟩
      rw [shale_grp, refine_grp, gainTargets_grp]
      exact ⟨rfl, rfl, fun h => absurd h hc, fun _ => ⟨rfl, rfl, rfl⟩⟩

/-- The fourth valid measurement in a row ends FINE_LOST (R202). -/
theorem exec_delayLineMeasure_clears (hf : s.frameNat % 64 = 5 * g.val % 64) (hl : (s.grp g).fineLost = true) (h3 : 3 ≤ (s.grp g).fineGood)
    (hc : countsOk c) : ∃ t, exec (.delayLineMeasure g c) s = .next t ∧ (t.grp g).fineLost = false ∧ (t.grp g).fineGood = 0
      ∧ (t.grp g).tapsNext = some (tapTarget c.toList.sum) := by
  have hclears : ((s.grp g).fineLost && decide (3 ≤ (s.grp g).fineGood)) = true := by rw [hl, decide_eq_true h3]; rfl
  refine ⟨_, congrArg Host.Outcome.next (delayLine_clears hf hc hclears), ?_⟩
  rw [shale_grp, refine_grp, gainTargets_grp]
  exact ⟨rfl, rfl, rfl⟩

end

end Sys2Proof.Machine
end

section
/-! PROOF. Forced slots, the coil resistance, and the ends of what the observer measures (07_quartz_calibration.md R215 to R219; 08_stall.md R229,
R232; notes/assumptions/20.md). -/
namespace Sys2Proof.Machine
open Sys2Proof

/-! ### Forced slots (R215 to R217) -/

section
variable {s : State} {a : AdcId}

/-- A converter has been without a slot for 4,096 frames (R215). -/
def State.slotDue (s : State) (a : AdcId) : Prop :=
  (s.adc a).slotPlan = none ∧ (s.adc a).forcedPlan = none ∧ 4096 < (s.adc a).noSlot ∧ (s.grp (groupOfAdc a)).hostDriven = false

theorem slotDue_iff (s : State) (a : AdcId) : ((s.adc a).slotPlan.isSome || (s.adc a).forcedPlan.isSome || decide ((s.adc a).noSlot ≤ 4096)
    || (s.grp (groupOfAdc a)).hostDriven) = true ↔ ¬s.slotDue a := by
  unfold State.slotDue
  rw [Bool.or_eq_true, Bool.or_eq_true, Bool.or_eq_true, decide_eq_true_iff, Option.isSome_iff_ne_none, Option.isSome_iff_ne_none, not_and_or,
    not_and_or, not_and_or, Nat.not_lt, Bool.not_eq_false, or_assoc, or_assoc]

/-- The converter takes the instant of a coil in the next frame (R215); `f` is the frame of its last log entry. -/
def Adc.forcedTo (x : Adc) (c : CoilId) (f : Option Nat) : Adc :=
  { x with forcedPlan := some c, noSlot := 0, calForced := true, calStarved := false, shaleFrame := f }

/-- What runs on an axis is marked with CAL_FORCED (R216). -/
def Axis.calMarked (x : Axis) : Axis :=
  { x with mot := { x.mot with runs := x.mot.runs.map fun r => { r with seg := { r.seg with flags := { r.seg.flags with calForced := true } } } } }

/-- A forced slot may be logged: none has been in the last 1,000 frames (R216). -/
def Adc.logDue (x : Adc) (count : Nat) : Bool :=
  match x.shaleFrame with
  | none => true
  | some f => f + 1000 ≤ count

/-- The converter and the axis of a forced slot, before its log entry. -/
def State.slotForced (s : State) (a : AdcId) (c : CoilId) (f : Adc → Option Nat) : State :=
  (s.modAdc a fun x => x.forcedTo c (f x)).modAxis (axisOfCoil c) Axis.calMarked

theorem forceSlot_takes (hd : s.slotDue a) {c : CoilId} (hc : latestEarlier (s.forcedCandidates a) = some c) :
    ∃ f : Adc → Option Nat, s.forceSlot a = { s.logs (s.forceSlot a) with
      adcs := upd s.adcs a fun x => x.forcedTo c (f x), axes := upd s.axes (axisOfCoil c) Axis.calMarked } := by
  let f : Adc → Option Nat := fun x => if (s.adc a).logDue s.tb.count then some s.tb.count else x.shaleFrame
  have hforce : s.forceSlot a = if (s.adc a).logDue s.tb.count then
      (s.slotForced a c f).shale 8 (8 * (a.val % 2)) a.val (Config.shaleData 8) else s.slotForced a c f := by
    refine (if_neg fun h => (slotDue_iff s a).1 h hd).trans ?_
    rw [hc]
    rfl
  refine ⟨f, ?_⟩
  clear_value f
  by_cases hl : (s.adc a).logDue s.tb.count = true
  · rw [hforce, if_pos hl, shale_frame]
    rfl
  · rw [hforce, if_neg hl]
    rfl

/-- The converter takes the coil's instant (R215, R216). -/
theorem exec_forcedSlot (hd : s.slotDue a) {c : CoilId} (hc : latestEarlier (s.forcedCandidates a) = some c) :
    ∃ t, exec (.forcedSlot a) s = .next t
      ∧ t = { s.logs t with adcs := t.adcs, axes := t.axes } ∧ (∀ k, k ≠ a → t.adc k = s.adc k)
      ∧ (t.adc a).forcedPlan = some c ∧ (t.adc a).noSlot = 0 ∧ (t.adc a).calForced = true ∧ (t.adc a).calStarved = false
      ∧ (t.adc a).oa = (s.adc a).oa ∧ (t.adc a).ga = (s.adc a).ga ∧ (∀ k, k ≠ axisOfCoil c → t.ax k = s.ax k)
      ∧ (∀ r ∈ (t.ax (axisOfCoil c)).mot.runs, r.seg.flags.calForced = true)
      ∧ (t.ax (axisOfCoil c)).cfg = (s.ax (axisOfCoil c)).cfg ∧ (t.ax (axisOfCoil c)).drv = (s.ax (axisOfCoil c)).drv := by
  obtain ⟨f, hf⟩ := forceSlot_takes hd hc
  refine ⟨s.forceSlot a, rfl, ?_⟩
  generalize s.forceSlot a = t at hf
  have hadc : t.adc a = (s.adc a).forcedTo c (f (s.adc a)) := by
    rw [hf]
    exact upd_self ..
  have hax : t.ax (axisOfCoil c) = (s.ax (axisOfCoil c)).calMarked := by
    rw [hf]
    exact upd_self ..
  rw [hadc, hax]
  refine ⟨?_, fun k hk => ?_, rfl, rfl, rfl, rfl, rfl, rfl, fun k hk => ?_, fun r hr => ?_, rfl, rfl⟩
  · rw [hf]
    rfl
  · rw [hf]
    exact upd_other _ _ _ _ hk
  · rw [hf]
    exact upd_other _ _ _ _ hk
  · obtain ⟨r', -, rfl⟩ := List.mem_map.1 hr
    rfl

end

/-! ### The coil resistance (R218, R219) -/

section
variable {s : State} {n : AxisId}

theorem rcoilWindowEnd_open (h : (s.ax n).prot.rwin.frames ≠ 256) : s.rcoilWindowEnd n = s := if_pos h

theorem rcoilWindowEnd_weak (h : (s.ax n).prot.rwin.frames = 256) (hw : (s.ax n).prot.rwin.si < 256 * 25600) :
    s.rcoilWindowEnd n = { s with axes := upd s.axes n fun x => { x with prot := { x.prot with rwin := {} } } } :=
  (if_neg (not_not.2 h)).trans (if_pos hw)

/-- The integrators of an axis corrected for a new resistance (R218). -/
def State.fixIntegrators (s : State) (n : AxisId) (fix : Int → Coil → Coil) (ia ib : Int) : State :=
  (s.modCoil (coilA n) (fix ia)).modCoil (coilB n) (fix ib)

theorem fixIntegrators_frame (s : State) (n : AxisId) (fix : Int → Coil → Coil) (ia ib : Int) :
    s.fixIntegrators n fix ia ib = { s with coils := (s.fixIntegrators n fix ia ib).coils } := rfl

theorem fixIntegrators_other (s : State) (n : AxisId) (fix : Int → Coil → Coil) (ia ib : Int) {c : CoilId} (ha : c ≠ coilA n) (hb : c ≠ coilB n) :
    (s.fixIntegrators n fix ia ib).coil c = s.coil c := (modCoil_coil_other _ _ _ _ hb).trans (modCoil_coil_other _ _ _ _ ha)

/-- A change of the integrators alone. -/
theorem fixIntegrators_integ (s : State) (n : AxisId) {fix : Int → Coil → Coil} (hfix : ∀ i y, ∃ k : Int, fix i y = { y with integ := k }) (ia ib : Int)
    (c : CoilId) : ∃ i : Int, (s.fixIntegrators n fix ia ib).coil c = { s.coil c with integ := i } := by
  have hone (t : State) (d : CoilId) (i : Int) : ∃ k : Int, (t.modCoil d (fix i)).coil c = { t.coil c with integ := k } := by
    by_cases h : c = d
    · subst h
      rw [modCoil_coil_self]
      exact hfix i _
    · exact ⟨(t.coil c).integ, modCoil_coil_other _ _ _ _ h⟩
  obtain ⟨i, hi⟩ := hone s (coilA n) ia
  obtain ⟨k, hk⟩ := hone (s.modCoil (coilA n) (fix ia)) (coilB n) ib
  exact ⟨k, hk.trans (by rw [hi])⟩

/-- A measured resistance that is plausible (R219). -/
def rcoilPlausible (t : Int) (r : Nat) : Prop := 100 ≤ t ∧ t ≤ 100000 ∧ (r : Int) ≤ 2 * t ∧ t ≤ 2 * r

/-- RCOIL after one step toward its target (R218). -/
def rcoilStepped (t : Int) (r : Nat) : Nat := (r + limitMag (max 1 ((r / 64 : Nat) : Int)) (t - r)).toNat

/-- The integrator of a coil keeps the voltage across a change of RCOIL (R218). -/
def rcoilFix (r r' : Nat) (i : Int) (y : Coil) : Coil := { y with integ := limitMag (2 ^ 31 - 1) (y.integ + 256 * (r * i / 256000 - r' * i / 256000)) }

theorem rcoilFix_integ (r r' : Nat) (i : Int) (y : Coil) : ∃ k : Int, rcoilFix r r' i y = { y with integ := k } := ⟨_, rfl⟩

/-- The state of an axis whose RCOIL steps toward `t` (R218). -/
def State.rcoilStep (s : State) (n : AxisId) (t : Int) : State :=
  (((s.modProt n fun p => { p with rwin := {} }).fixIntegrators n (rcoilFix (s.ax n).cfg.rcoil (rcoilStepped t (s.ax n).cfg.rcoil)) (s.ax n).drv.iaUsed
    (s.ax n).drv.ibUsed).modCfg n fun c => { c with rcoil := rcoilStepped t (s.ax n).cfg.rcoil }).modProt n fun p => { p with resSuspect := false }

theorem rcoilWindowEnd_steps (h : (s.ax n).prot.rwin.frames = 256) (hw : 256 * 25600 ≤ (s.ax n).prot.rwin.si)
    (hp : rcoilPlausible ((s.ax n).prot.rwin.su * 256000 / ((s.ax n).prot.rwin.si : Int)) (s.ax n).cfg.rcoil) :
    s.rcoilWindowEnd n = s.rcoilStep n ((s.ax n).prot.rwin.su * 256000 / ((s.ax n).prot.rwin.si : Int)) := by
  unfold rcoilPlausible at hp
  unfold State.rcoilWindowEnd
  simp only []
  rw [if_neg (not_not.2 h), if_neg (Nat.not_lt.2 hw), if_pos hp]
  unfold State.rcoilStep State.fixIntegrators rcoilFix rcoilStepped
  rfl

theorem rcoilStep_frame (s : State) (n : AxisId) (t : Int) : s.rcoilStep n t = { s with
    coils := (s.rcoilStep n t).coils
    axes := upd s.axes n fun x => { x with
      cfg := { x.cfg with rcoil := rcoilStepped t (s.ax n).cfg.rcoil }, prot := { x.prot with rwin := {}, resSuspect := false } } } := by
  have haxes : (s.rcoilStep n t).axes = upd (upd (upd s.axes n fun x => { x with prot := { x.prot with rwin := {} } }) n fun x =>
      { x with cfg := { x.cfg with rcoil := rcoilStepped t (s.ax n).cfg.rcoil } }) n fun x => { x with prot := { x.prot with resSuspect := false } } := rfl
  rw [upd_upd, upd_upd] at haxes
  exact (show s.rcoilStep n t = { s with coils := (s.rcoilStep n t).coils, axes := (s.rcoilStep n t).axes } from rfl).trans (by rw [haxes])

theorem exec_rcoilWindowEnd_steps (h : (s.ax n).prot.rwin.frames = 256) (hw : 256 * 25600 ≤ (s.ax n).prot.rwin.si)
    (hp : rcoilPlausible ((s.ax n).prot.rwin.su * 256000 / ((s.ax n).prot.rwin.si : Int)) (s.ax n).cfg.rcoil) :
    ∃ t, exec (.rcoilWindowEnd n) s = .next t
      ∧ t = { s with
          coils := t.coils
          axes := upd s.axes n fun x => { x with
            cfg := { x.cfg with rcoil := rcoilStepped ((s.ax n).prot.rwin.su * 256000 / ((s.ax n).prot.rwin.si : Int)) (s.ax n).cfg.rcoil }
            prot := { x.prot with rwin := {}, resSuspect := false } } }
      ∧ (∀ c, c ≠ coilA n → c ≠ coilB n → t.coil c = s.coil c)
      ∧ ∀ c, ∃ i : Int, t.coil c = { s.coil c with integ := i } :=
  ⟨_, congrArg Host.Outcome.next (rcoilWindowEnd_steps h hw hp), rcoilStep_frame ..,
    fun _ ha hb => fixIntegrators_other (s.modProt n fun p => { p with rwin := {} }) n _ _ _ ha hb,
    fun c => fixIntegrators_integ (s.modProt n fun p => { p with rwin := {} }) n (rcoilFix_integ _ _) _ _ c⟩

/-- The state of an axis whose measured resistance is out of bounds, before its log entry (R219). -/
def State.rcoilSuspect (s : State) (n : AxisId) : State :=
  (s.modProt n fun p => { p with rwin := {} }).modProt n fun p => { p with resSuspect := true }

theorem exec_rcoilWindowEnd_suspect (h : (s.ax n).prot.rwin.frames = 256) (hw : 256 * 25600 ≤ (s.ax n).prot.rwin.si)
    (hp : ¬rcoilPlausible ((s.ax n).prot.rwin.su * 256000 / ((s.ax n).prot.rwin.si : Int)) (s.ax n).cfg.rcoil) :
    ∃ t, exec (.rcoilWindowEnd n) s = .next t
      ∧ t = { s.logs t with axes := upd s.axes n fun x => { x with prot := { x.prot with rwin := {}, resSuspect := true } } } := by
  have hend : s.rcoilWindowEnd n = (s.rcoilSuspect n).shaleAxis n 11 := by
    unfold rcoilPlausible at hp
    unfold State.rcoilWindowEnd
    simp only []
    rw [if_neg (not_not.2 h), if_neg (Nat.not_lt.2 hw), if_neg hp]
    rfl
  have haxes : s.rcoilSuspect n = { s with axes := upd s.axes n fun x => { x with prot := { x.prot with rwin := {}, resSuspect := true } } } :=
    modAxis_modAxis s n _ _
  refine ⟨_, congrArg Host.Outcome.next hend, ?_⟩
  rw [haxes]
  unfold State.shaleAxis
  rw [shale_frame]
  rfl

/-! ### The ends of what the observer measures (R229, R232) -/

theorem referenceEnd_open (h : (s.ax n).obs.refRun = false ∨ (s.ax n).obs.refLeft ≠ 0) : s.referenceEnd n = s :=
  if_neg fun hc => by
    obtain ⟨h1, h2⟩ := Bool.and_eq_true_iff.1 hc
    rcases h with h | h
    · exact absurd h1 (by rw [h]; decide)
    · exact h (of_decide_eq_true h2)

/-- The observer of an axis with its injection reference (R229). -/
def AxisObs.referenced (o : AxisObs) (ym dy : Int) : AxisObs :=
  { o with ym := ym, dy := dy, refDone := true, refRun := false, injWeak := decide (dy < ym / 16) }

theorem referenceEnd_ends (h : (s.ax n).obs.refRun = true) (h0 : (s.ax n).obs.refLeft = 0) {ym dy : Int}
    (hy : ((s.ax n).obs.refPar / 32 + (s.ax n).obs.refPerp / 32) / 2 = ym) (hd : ((s.ax n).obs.refPar / 32 - (s.ax n).obs.refPerp / 32) / 2 = dy) :
    s.referenceEnd n = if dy < ym / 16 then (s.modObs n fun o => o.referenced ym dy).shaleAxis n 8 else s.modObs n fun o => o.referenced ym dy := by
  subst hy hd
  exact if_pos (by rw [h, h0]; rfl)

theorem exec_injectionReferenceEnd (h : (s.ax n).obs.refRun = true) (h0 : (s.ax n).obs.refLeft = 0) {ym dy : Int}
    (hy : ((s.ax n).obs.refPar / 32 + (s.ax n).obs.refPerp / 32) / 2 = ym) (hd : ((s.ax n).obs.refPar / 32 - (s.ax n).obs.refPerp / 32) / 2 = dy) :
    ∃ t, exec (.injectionReferenceEnd n) s = .next t
      ∧ t = { s.logs t with axes := upd s.axes n fun x => { x with obs := x.obs.referenced ym dy } } ∧ (¬dy < ym / 16 → t.dev = s.dev) := by
  by_cases hw : dy < ym / 16
  · refine ⟨_, congrArg Host.Outcome.next ((referenceEnd_ends h h0 hy hd).trans (if_pos hw)), ?_, fun hn => absurd hw hn⟩
    unfold State.shaleAxis
    rw [shale_frame]
    rfl
  · exact ⟨_, congrArg Host.Outcome.next ((referenceEnd_ends h h0 hy hd).trans (if_neg hw)), rfl, fun _ => rfl⟩

theorem keLearned_open (h : (s.ax n).obs.keLearning = false ∨ (s.ax n).obs.keCount ≠ 256) : s.keLearned n = s :=
  if_neg fun hc => by
    obtain ⟨h1, h2⟩ := Bool.and_eq_true_iff.1 hc
    rcases h with h | h
    · exact absurd h1 (by rw [h]; decide)
    · exact h (of_decide_eq_true h2)

theorem keLearned_ends (h : (s.ax n).obs.keLearning = true) (hc : (s.ax n).obs.keCount = 256) (hf : (s.ax n).obs.keSumF ≠ 0) :
    s.keLearned n = { s with axes := upd s.axes n fun x => { x with
      cfg := { x.cfg with ke := min (2 ^ 24 - 1) ((s.ax n).obs.keSumE * 65536 / (s.ax n).obs.keSumF) }
      obs := { x.obs with keLearning := false, keSumE := 0, keSumF := 0, keCount := 0 } } } := by
  unfold State.keLearned
  simp only []
  rw [if_pos (by rw [h, hc]; rfl), if_neg hf]
  exact modAxis_modAxis s n (fun x => { x with cfg := { x.cfg with ke := min (2 ^ 24 - 1) ((s.ax n).obs.keSumE * 65536 / (s.ax n).obs.keSumF) } }) _

end

/-- Settles O51: each row is one function of its group, converter or axis, that acts where its measurement is complete. -/
theorem calibrationAndLearning : Obligations.CalibrationAndLearning := by
  unfold Obligations.CalibrationAndLearning
  refine ⟨⟨fun s g c => ⟨fun h => congrArg Host.Outcome.next (delayLine_wrongFrame h), fun hf hs => ?_,
      fun hf hl h3 hc => exec_delayLineMeasure_clears hf hl h3 hc⟩, fun s a => ⟨fun hd => congrArg Host.Outcome.next (if_pos ((slotDue_iff s a).2 hd)),
      fun hd hc => congrArg Host.Outcome.next ?_, fun c hd hc => exec_forcedSlot hd hc⟩⟩, fun s n => ?_⟩
  · obtain ⟨t, hex, honly, hsum, htaps, hok, hbad⟩ := exec_delayLineMeasure (c := c) hf hs
    have hsteady : ((s.grp g).fineLost && decide (3 ≤ (s.grp g).fineGood)) = false := by
      rcases hs with h | h
      · rw [h]; rfl
      · rw [decide_eq_false (by omega), Bool.and_false]
    refine ⟨t, hex, honly.frame, honly.groups, honly.others, honly.legs, hsum, htaps, fun hc => ?_, hbad⟩
    obtain ⟨hlost, hdev, hgood, hnext⟩ := hok hc
    refine ⟨hlost, hdev, hgood, fun hoff => hnext.trans (congrArg some (nextTaps_free (.inr hoff) _)), fun hon =>
      ⟨_, hnext, fun k a b ha hb => nextTaps_near hsteady hon _ ha hb⟩⟩
  · refine (if_neg fun h => (slotDue_iff s a).1 h hd).trans ?_
    rw [hc]
    rfl
  · exact ⟨fun h => congrArg Host.Outcome.next (rcoilWindowEnd_open h), fun h hw => congrArg Host.Outcome.next (rcoilWindowEnd_weak h hw),
      fun h hw => ⟨fun hp => exec_rcoilWindowEnd_steps h hw hp, fun hp => exec_rcoilWindowEnd_suspect h hw hp⟩,
      fun h => congrArg Host.Outcome.next (referenceEnd_open h), fun h h0 => exec_injectionReferenceEnd h h0 rfl rfl,
      fun h => congrArg Host.Outcome.next (keLearned_open h), fun h hc hf => congrArg Host.Outcome.next (keLearned_ends h hc hf)⟩

end Sys2Proof.Machine
end

section
/-! PROOF. A stall and its reaction (08_stall.md R235, R237 to R239; notes/assumptions/20.md). -/
namespace Sys2Proof.Machine
open Sys2Proof

section
variable {s : State} {n : AxisId}

/-- A stall may be logged: none has been in the last 1,000 frames (R240). -/
def AxisObs.logDue (o : AxisObs) (count : Nat) : Bool :=
  match o.shaleFrame with
  | none => true
  | some f => f + 1000 ≤ count

/-- An axis whose stall has been captured (R235, R239). -/
def Axis.stalled (c : StallCapture) (f : Option Nat) (x : Axis) : Axis :=
  { x with obs := { x.obs with stall := true, stallDone := true, capture := c, shaleFrame := f }
           mot := { x.mot with unsure := x.mot.unsure || x.enc.fallback || !x.cfg.setpoint } }

/-- The axis and the log after a stall, before the reaction to it. -/
def State.stallSeen (s : State) (n : AxisId) : State :=
  let s1 := s.modObs n fun o => { o with stall := true, stallDone := true, capture := s.stallCapture n
                                         shaleFrame := if (s.ax n).obs.logDue s.tb.count then some s.tb.count else o.shaleFrame }
  let s2 := if (s.ax n).obs.logDue s.tb.count then s1.shaleAxis n 18 else s1
  if (s.ax n).enc.fallback then s2.modMot n fun m => { m with unsure := true } else s2.setUnsure n

/-- An axis whose position a stall leaves unsure (R239). -/
def Axis.unsured (x : Axis) : Axis := { x with mot := { x.mot with unsure := x.mot.unsure || x.enc.fallback || !x.cfg.setpoint } }

theorem unsured_axes (u : State) (n : AxisId) : (if (u.ax n).enc.fallback then u.modMot n fun m => { m with unsure := true } else u.setUnsure n)
    = { u with axes := upd u.axes n Axis.unsured } := by
  cases h : (u.ax n).enc.fallback with
  | true =>
    refine congrArg (fun v => ({ u with axes := v } : State)) (upd_congr _ _ _ _ ?_)
    change ({ u.ax n with mot := { (u.ax n).mot with unsure := true } } : Axis) = (u.ax n).unsured
    unfold Axis.unsured
    rw [h, Bool.or_true, Bool.true_or]
  | false =>
    rw [if_neg Bool.false_ne_true, setUnsure_axes]
    refine congrArg (fun v => ({ u with axes := v } : State)) (upd_congr _ _ _ _ ?_)
    change ({ u.ax n with mot := { (u.ax n).mot with unsure := (u.ax n).mot.unsure || !(u.ax n).cfg.setpoint } } : Axis) = (u.ax n).unsured
    unfold Axis.unsured
    rw [h, Bool.or_false]

/-- The capture of a stall with its log entry. -/
def State.stallLogged (s : State) (n : AxisId) : State :=
  let s1 := s.modObs n fun o => { o with stall := true, stallDone := true, capture := s.stallCapture n
                                         shaleFrame := if (s.ax n).obs.logDue s.tb.count then some s.tb.count else o.shaleFrame }
  if (s.ax n).obs.logDue s.tb.count then s1.shaleAxis n 18 else s1

theorem stallLogged_frame (s : State) (n : AxisId) : ∃ f, s.stallLogged n = { s.logs (s.stallLogged n) with
    axes := upd s.axes n fun x => { x with obs := { x.obs with stall := true, stallDone := true, capture := s.stallCapture n, shaleFrame := f } } } := by
  unfold State.stallLogged
  by_cases hl : (s.ax n).obs.logDue s.tb.count = true
  · simp only [hl, if_true]
    refine ⟨some s.tb.count, ?_⟩
    unfold State.shaleAxis
    rw [shale_frame]
    rfl
  · simp only [hl, Bool.false_eq_true, if_false]
    exact ⟨(s.ax n).obs.shaleFrame, congrArg (fun v => ({ s with axes := v } : State)) (upd_congr _ _ _ _ rfl)⟩

theorem stallSeen_frame (s : State) (n : AxisId) : ∃ f, s.stallSeen n = { s.logs (s.stallSeen n) with
    axes := upd s.axes n (Axis.stalled (s.stallCapture n) f) } := by
  obtain ⟨f, hf⟩ := stallLogged_frame s n
  have hseen : s.stallSeen n = if (s.ax n).enc.fallback then (s.stallLogged n).modMot n fun m => { m with unsure := true } else (s.stallLogged n).setUnsure n := rfl
  have hax : (s.ax n).enc = ((s.stallLogged n).ax n).enc := by
    rw [hf]
    have hself := upd_self s.axes n fun x =>
      { x with obs := { x.obs with stall := true, stallDone := true, capture := s.stallCapture n, shaleFrame := f } }
    exact (congrArg Axis.enc hself :).symm
  refine ⟨f, ?_⟩
  rw [hseen, hax, unsured_axes]
  generalize s.stallLogged n = u at hf
  have haxes : upd u.axes n Axis.unsured = upd s.axes n (Axis.stalled (s.stallCapture n) f) := by
    rw [(congrArg State.axes hf :)]
    exact upd_upd ..
  rw [haxes]
  exact (congrArg (fun v : State => { v with axes := upd s.axes n (Axis.stalled (s.stallCapture n) f) }) hf).trans rfl

theorem declareStall_idle (h : ¬((s.ax n).cfg.stallN.toNat ≤ (s.ax n).obs.stallRun ∧ 0 < (s.ax n).obs.stallRun ∧ (s.ax n).obs.stallDone = false)) :
    s.declareStall n = s := if_neg (by simpa [and_assoc] using h)

theorem declareStall_due (h : (s.ax n).cfg.stallN.toNat ≤ (s.ax n).obs.stallRun ∧ 0 < (s.ax n).obs.stallRun ∧ (s.ax n).obs.stallDone = false) :
    s.declareStall n = (s.stallSeen n).stallReact n (mpos32 (s.stallCapture n).mpos) := if_pos (by simpa [and_assoc] using h)

/-! ### The reaction (R237, R238) -/

variable {u : State} {w : Word}

/-- What every reaction keeps of the axis: its settings, what was captured, and that the position is unsure. -/
structure State.ReactsOn (u t : State) (n : AxisId) : Prop where
  only : u.onlyAxis t n
  cfg : (t.ax n).cfg = (u.ax n).cfg
  obs : (t.ax n).obs = (u.ax n).obs
  unsure : (t.ax n).mot.unsure = (u.ax n).mot.unsure

theorem reactsOn_refl (u : State) (n : AxisId) : u.ReactsOn u n := ⟨⟨rfl, fun _ _ => rfl, rfl⟩, rfl, rfl, rfl⟩

theorem stallReact_none (h : (u.ax n).cfg.react.toNat = 0) : u.stallReact n w = u := by
  unfold State.stallReact
  simp only [h]

/-- The state in which a stop is asked for at the next snapshot (R237). -/
def State.stallStops (u : State) (n : AxisId) (w : Word) : State :=
  let s1 := (u.ownedAlert n).modMot n fun a => { a with runs := a.runs.map (·.decide (.stall, some w)) }
  { s1 with q := { s1.q with snapOps := s1.q.snapOps ++ [.stallStop n] } }

theorem stallReact_stop (h : (u.ax n).cfg.react.toNat = 1) : u.stallReact n w = if (u.ax n).mot.stop.isSome then u else u.stallStops n w := by
  unfold State.stallReact
  simp only [h]
  rfl

/-- The state to be turned off; what a stop in progress has decided stays STOPPED (R238). -/
def State.stallDecided (u : State) (n : AxisId) : State :=
  if (u.ax n).mot.stop.isSome then u.modMot n fun a => { a with runs := a.runs.map (·.decide (.stopped, none)) } else u

theorem stallReact_off (h : (u.ax n).cfg.react.toNat = 2) : u.stallReact n w = (u.stallDecided n).turnOff n .stall w := by
  unfold State.stallReact
  simp only [h]
  rfl

theorem ownedAlert_frame (u : State) (n : AxisId) : u.ownedAlert n = { u with sb := (u.ownedAlert n).sb } := by
  unfold State.ownedAlert
  split <;> rfl

theorem stallStops_frame (u : State) (n : AxisId) (w : Word) : u.stallStops n w = { u with
    axes := upd u.axes n fun x => { x with mot := { x.mot with runs := x.mot.runs.map (·.decide (.stall, some w)) } }
    q := { u.q with snapOps := u.q.snapOps ++ [.stallStop n] }, sb := (u.stallStops n w).sb } := by
  have h := ownedAlert_frame u n
  unfold State.stallStops
  generalize u.ownedAlert n = v at h
  rw [h]
  rfl

theorem stallStops_ax (u : State) (n : AxisId) (w : Word) : (u.stallStops n w).ax n =
    { u.ax n with mot := { (u.ax n).mot with runs := (u.ax n).mot.runs.map (·.decide (.stall, some w)) } } := by
  rw [stallStops_frame]
  exact upd_self ..

theorem stallStops_reacts (u : State) (n : AxisId) (w : Word) : u.ReactsOn (u.stallStops n w) n := by
  have hax := stallStops_ax u n w
  have hframe := stallStops_frame u n w
  generalize u.stallStops n w = t at hax hframe
  refine ⟨⟨?_, fun k hk => ?_, ?_⟩, by rw [hax], by rw [hax], by rw [hax]⟩
  · rw [hframe]
    rfl
  · rw [hframe]
    exact upd_other _ _ _ _ hk
  · rw [hframe]

theorem stallDecided_ax (u : State) (n : AxisId) : ∃ l, (u.stallDecided n) = { u with axes := upd u.axes n fun x => { x with mot := { x.mot with runs := l } } } := by
  unfold State.stallDecided
  split
  · exact ⟨(u.ax n).mot.runs.map (·.decide (.stopped, none)), congrArg (fun v => ({ u with axes := v } : State)) (upd_congr _ _ _ _ rfl)⟩
  · exact ⟨(u.ax n).mot.runs, (congrArg (fun v => ({ u with axes := v } : State)) (upd_same _ _ _ rfl)).symm⟩

theorem stallOff_reacts (u : State) (n : AxisId) (w : Word) :
    u.axisOff ((u.stallDecided n).turnOff n .stall w) n ∧ u.ReactsOn ((u.stallDecided n).turnOff n .stall w) n := by
  obtain ⟨l, hl⟩ := stallDecided_ax u n
  have hax := turnOff_ax (u.stallDecided n) n .stall w
  have hoff := turnOff_axisOff (u.stallDecided n) n .stall w
  have hset : u.stallDecided n = u.modAxis n fun x => { x with mot := { x.mot with runs := l } } := hl
  rw [hset] at hax hoff ⊢
  have h : u.axisOff _ n := axisOff_before (modAxis_onlyAxis u n _) (by rw [modAxis_ax_self]; exact ⟨rfl, rfl, rfl, rfl, rfl, rfl, rfl⟩) hoff
  rw [modAxis_ax_self] at hax
  refine ⟨h, h.1, h.2.1, ?_, ?_⟩
  · rw [hax]
    rfl
  · rw [hax]
    rfl

theorem decide_eq (r : Run) (st : Status × Option Word) : r.decide st = { r with decided := some (r.decided.getD st) } := by
  unfold Run.decide
  cases h : r.decided with
  | none => rfl
  | some d =>
    cases r
    cases h
    rfl

theorem stallReact_reacts (u : State) (n : AxisId) (w : Word) : u.ReactsOn (u.stallReact n w) n := by
  by_cases h1 : (u.ax n).cfg.react.toNat = 1
  · rw [stallReact_stop h1]
    split
    · exact reactsOn_refl u n
    · exact stallStops_reacts u n w
  · by_cases h2 : (u.ax n).cfg.react.toNat = 2
    · rw [stallReact_off h2]
      exact (stallOff_reacts u n w).2
    · have h : u.stallReact n w = u := by
        unfold State.stallReact
        split
        · next h => exact absurd h h1
        · next h => exact absurd h h2
        · rfl
      rw [h]
      exact reactsOn_refl u n

end

/-- Settles O52: a stall that is due is captured on its axis, and the reaction then stops the axis, turns it off, or does nothing. -/
theorem stallsAreCapturedAndReactedTo : Obligations.StallsAreCapturedAndReactedTo := by
  unfold Obligations.StallsAreCapturedAndReactedTo
  intro s n
  refine ⟨fun h => congrArg Host.Outcome.next (declareStall_idle h), fun h => ⟨_, congrArg Host.Outcome.next (declareStall_due h), ?_⟩⟩
  obtain ⟨f, hframe⟩ := stallSeen_frame s n
  have hax : (s.stallSeen n).ax n = (s.ax n).stalled (s.stallCapture n) f := by
    rw [hframe]
    exact upd_self ..
  generalize s.stallSeen n = u at hframe hax
  have hseen : s.onlyAxis u n := by
    refine ⟨?_, fun k hk => ?_, ?_⟩
    · rw [hframe]
      rfl
    · rw [hframe]
      exact upd_other _ _ _ _ hk
    · rw [hframe]
      rfl
  have hcap : (u.ax n).obs.capture = s.stallCapture n := by rw [hax]; rfl
  have hreact : (u.ax n).cfg.react = (s.ax n).cfg.react := by rw [hax]; rfl
  have hdrv : (u.ax n).drv = (s.ax n).drv := by rw [hax]; rfl
  obtain ⟨honly, hcfg, hobs, hunsure⟩ := stallReact_reacts u n (mpos32 (s.stallCapture n).mpos)
  refine ⟨onlyAxis_trans hseen honly, hcfg.trans (by rw [hax]; rfl), ?_⟩
  rw [hobs, hunsure, hax]
  refine ⟨rfl, rfl, rfl, rfl, rfl, rfl, rfl, rfl, rfl, rfl, fun h0 => ?_, fun h1 hstop => ?_, fun h2 => ?_⟩
  · rw [stallReact_none (by rw [hreact]; exact h0), hax]
    refine ⟨by rw [hframe]; rfl, by rw [hframe]; rfl, rfl, rfl⟩
  · have hnone : (u.ax n).mot.stop = none := by rw [hax]; exact hstop
    rw [stallReact_stop (by rw [hreact]; exact h1), hnone]
    refine ⟨?_, ?_, ?_⟩
    · exact (congrArg State.q (stallStops_frame u n _) :).trans (by rw [hframe]; rfl)
    · exact (congrArg Axis.drv (stallStops_ax u n _)).trans hdrv
    · refine (congrArg (fun x : Axis => x.mot.runs) (stallStops_ax u n _)).trans ?_
      rw [hax]
      exact List.map_congr_left fun r _ => decide_eq r _
  · rw [stallReact_off (by rw [hreact]; exact h2)]
    refine axisOff_before hseen ?_ (stallOff_reacts u n _).1
    rw [hax]
    exact ⟨rfl, rfl, rfl, rfl, rfl, rfl, rfl⟩

end Sys2Proof.Machine
end

section
/-! PROOF. Lock-outs of a group, its thermal shutdown and its link (09_power_stage.md R241 to R243; 17_power_thermal.md R445, R446;
01_architecture.md R17). -/
namespace Sys2Proof.Machine
open Sys2Proof

variable {s t u : State} {g : GroupId}

/-! ### A group goes dark -/

/-- EN of a group's legs goes low and its axes are no longer energised; nothing else changes. -/
theorem groupLegsOff_dark (s : State) (g : GroupId) :
    s.groupDark (s.groupLegsOff g) g ∧ s.groupLegsOff g = { s with legs := (s.groupLegsOff g).legs, axes := (s.groupLegsOff g).axes } := by
  refine ⟨⟨groupLegsOff_leg s g, fun n => ?_⟩, ?_⟩
  · have hlegs : (s.forAll ((List.finRange 16).map (legAt g)) fun s m => s.modLeg m Leg.turnOff).ax n = s.ax n :=
      forAll_same (fun t : State => t.ax n) _ (fun s m => s.modLeg m Leg.turnOff) (fun _ _ _ => rfl) s
    have h := forAll_modAxis (groupAxes g) (groupAxes_nodup g) (fun _ x => { x with drv := { x.drv with energised := false } })
      (s.forAll ((List.finRange 16).map (legAt g)) fun s m => s.modLeg m Leg.turnOff) n
    rw [hlegs] at h
    simp only [mem_groupAxes] at h
    exact h
  · refine forAll_keeps (fun t => t = { s with legs := t.legs, axes := t.axes }) (groupAxes g) (fun s n => s.modDrv n fun d => { d with energised := false }) ?_ _
      (forAll_keeps (fun t => t = { s with legs := t.legs, axes := t.axes }) ((List.finRange 16).map (legAt g)) (fun s m => s.modLeg m Leg.turnOff) ?_ s rfl)
    · intro t n _ h
      rw [h]
      rfl
    · intro t m _ h
      rw [h]
      rfl

/-- The EN lines of a group depend on its own legs and axes alone. -/
theorem groupDark_congr (h : s.groupDark t g) (hlegs : u.legs = t.legs) (haxes : u.axes = t.axes) : s.groupDark u g := by
  obtain ⟨hleg, hax⟩ := h
  refine ⟨fun m => ?_, fun n => ?_⟩
  · rw [← hleg m]
    exact congrArg (fun v : Vector Leg 192 => v[m.val]) hlegs
  · rw [← hax n]
    exact congrArg (fun v : Vector Axis 48 => v[n.val]) haxes

/-- The pending energising of every axis of a list is dropped, and nothing else changes. -/
theorem forAll_dropEnergise (l : List AxisId) (s : State) :
    s.forAll l State.dropEnergise = { s with q := { s.q with snapOps := (s.forAll l State.dropEnergise).q.snapOps } }
    ∧ ∀ o, o ∈ (s.forAll l State.dropEnergise).q.snapOps ↔ o ∈ s.q.snapOps ∧ ∀ n ∈ l, o ≠ .energise n := by
  induction l generalizing s with
  | nil => exact ⟨rfl, by simp⟩
  | cons a l ih =>
    obtain ⟨hframe, hops⟩ := ih (s.dropEnergise a)
    refine ⟨?_, fun o => ?_⟩
    · rw [forAll_cons]
      generalize (s.dropEnergise a).forAll l State.dropEnergise = t at hframe ⊢
      rw [hframe]
      rfl
    · rw [forAll_cons, hops]
      simp [State.dropEnergise, and_assoc]

/-! ### Lock-outs (R241 to R243) -/

/-- `t` is `s` but for who waits with a DIAGNOSE in group `g`, and for what has completed. -/
def State.diagsEnded (s t : State) (g : GroupId) : Prop :=
  t = { s with groups := upd s.groups g fun x => { x with diag := none, diagQueue := (t.grp g).diagQueue }, q := t.q, sb := t.sb }
    ∧ t.q.packets = s.q.packets ∧ t.q.snapOps = s.q.snapOps

theorem diagsEnded_grp (h : s.diagsEnded t g) : t.grp g = { s.grp g with diag := none, diagQueue := (t.grp g).diagQueue } :=
  (congrArg (State.grp · g) h.1).trans (upd_self ..)

theorem diagsEnded_refl (h : (s.grp g).diag = none) : s.diagsEnded s g := by
  refine ⟨?_, rfl, rfl⟩
  have hsame : upd s.groups g (fun x => { x with diag := none, diagQueue := (s.grp g).diagQueue }) = s.groups := by
    refine upd_same _ _ _ ?_
    change ({ s.grp g with diag := none } : Group) = s.grp g
    rw [← h]
  rw [hsame]

theorem diagsEnded_trans (h : s.diagsEnded t g) (k : t.diagsEnded u g) : s.diagsEnded u g := by
  obtain ⟨h, hp, ho⟩ := h
  obtain ⟨k, kp, ko⟩ := k
  refine ⟨?_, kp.trans hp, ko.trans ho⟩
  have hgroups : t.groups = upd s.groups g fun x => { x with diag := none, diagQueue := (t.grp g).diagQueue } := congrArg State.groups h
  have hcomp : upd t.groups g (fun x => { x with diag := none, diagQueue := (u.grp g).diagQueue })
      = upd s.groups g fun x => { x with diag := none, diagQueue := (u.grp g).diagQueue } := by
    rw [hgroups, upd_upd]
  rw [hcomp] at k
  refine k.trans ?_
  rw [h]

/-- A DIAGNOSE that is answered is no longer in its group. -/
theorem diagsEnded_actionAxis {f : Group → Group} (hf : f (s.grp g) = { s.grp g with diag := none, diagQueue := (f (s.grp g)).diagQueue })
    (act : Nat) (o : AxisOutcome) : s.diagsEnded ((s.modGroup g f).actionAxis act o 0 false) g := by
  have hframe := actionAxis_frame (s.modGroup g f) act o 0 false
  have hkept := actionAxis_kept (s.modGroup g f) act o 0 false
  generalize (s.modGroup g f).actionAxis act o 0 false = t at hframe hkept
  have hgrp : t.grp g = f (s.grp g) := (congrArg (State.grp · g) hframe).trans (modGroup_grp_self s g f)
  refine ⟨?_, hkept⟩
  have hupd : (s.modGroup g f).groups = upd s.groups g fun x => { x with diag := none, diagQueue := (t.grp g).diagQueue } := by
    refine upd_congr _ _ _ _ ?_
    rw [hgrp]
    exact hf
  rw [← hupd, hframe]
  rfl

/-- While a lock-out stands no waiting DIAGNOSE begins: each is refused (R247). -/
theorem nextDiag_locked (hlock : (s.grp g).lockout ≠ 0) (hdiag : (s.grp g).diag = none) (k : Nat) : s.diagsEnded (s.nextDiag k g) g := by
  induction k generalizing s with
  | zero => exact diagsEnded_refl hdiag
  | succ k ih =>
    have hnext (rest : List (AxisId × Nat)) (act : Nat) (o : AxisOutcome) :
        s.diagsEnded (((s.modGroup g fun x => { x with diagQueue := rest }).actionAxis act o 0 false).nextDiag k g) g := by
      have hone := diagsEnded_actionAxis (s := s) (g := g) (f := fun x => { x with diagQueue := rest }) (by rw [← hdiag]) act o
      have hgrp := diagsEnded_grp hone
      refine diagsEnded_trans hone (ih ?_ ?_)
      · rw [hgrp]
        exact hlock
      · rw [hgrp]
    unfold State.nextDiag
    split
    · exact diagsEnded_refl hdiag
    · simp only []
      split
      · exact hnext _ _ _
      · exact hnext _ _ _

/-- A lock-out ends the DIAGNOSE that runs, and each that waits (R247). -/
theorem abortDiag_locked (hlock : (s.grp g).lockout ≠ 0) : s.diagsEnded (s.abortDiag g) g := by
  unfold State.abortDiag
  split
  next h => exact diagsEnded_refl h
  next n act h =>
    have hone := diagsEnded_actionAxis (s := s) (g := g) (f := fun x => { x with diag := none }) rfl act
      ⟨n, .supply, BitVec.ofNat 32 (s.grp g).lockout.toNat, none⟩
    have hgrp := diagsEnded_grp hone
    refine diagsEnded_trans hone (nextDiag_locked ?_ ?_ 64)
    · rw [hgrp]
      exact hlock
    · rw [hgrp]

/-- A group whose lock-out `k` has risen: the supply is held, and the flag is sticky (R242). -/
def Group.locked (k : Fin 4) (x : Group) : Group :=
  { x with lockout := x.lockout ||| BitVec.ofNat 4 (2 ^ k.val), supplyHold := true, faults := x.faults ||| BitVec.ofNat 8 (2 ^ k.val) }

theorem locked_lockout (x : Group) (k : Fin 4) : (x.locked k).lockout ≠ 0 := by
  show x.lockout ||| BitVec.ofNat 4 (2 ^ k.val) ≠ 0
  generalize x.lockout = l
  revert l k
  decide

/-- A lock-out before the DIAGNOSE of its group ends. -/
def State.lockedDark (s : State) (g : GroupId) (k : Fin 4) (t : Nat) : State :=
  (((((s.modGroup g fun x => { x with lockout := x.lockout ||| BitVec.ofNat 4 (2 ^ k.val), supplyHold := true }).groupLegsOff g).grpFaultSet g
    k.val (Config.powerStageCode (16 + k.val))).forAll (groupAxes g) State.dropEnergise).waitStep3 t 1 (.supply g k))

theorem lockedDark_frame (s : State) (g : GroupId) (k : Fin 4) (at' : Nat) : ∃ u, s.lockedDark g k at' = u ∧ s.groupDark u g
    ∧ u = { s.logs u with
        axes := u.axes, legs := u.legs, groups := upd s.groups g (Group.locked k), sb := u.sb, q := { s.q with snapOps := u.q.snapOps }
        dev := { (s.logs u).dev with step3 := insertStep (8 * at' + 1) (.supply g k) s.dev.step3 } }
    ∧ ∀ n, groupOf n = g → .energise n ∉ u.q.snapOps := by
  unfold State.lockedDark State.grpFaultSet
  have hdark := groupLegsOff_dark (s.modGroup g fun x => { x with lockout := x.lockout ||| BitVec.ofNat 4 (2 ^ k.val), supplyHold := true }) g
  generalize (s.modGroup g fun x => { x with lockout := x.lockout ||| BitVec.ofNat 4 (2 ^ k.val), supplyHold := true }).groupLegsOff g = a at hdark ⊢
  obtain ⟨hdark, ha⟩ := hdark
  have hshale := shale_frame (State.noteFault (a.modGroup g fun x => { x with faults := x.faults ||| BitVec.ofNat 8 (2 ^ k.val) })) 4
    (Config.powerStageCode (16 + k.val)).toNat g.val (pageWord (4 + g.val) 2)
  generalize State.shale (State.noteFault (a.modGroup g fun x => { x with faults := x.faults ||| BitVec.ofNat 8 (2 ^ k.val) })) 4
    (Config.powerStageCode (16 + k.val)).toNat g.val (pageWord (4 + g.val) 2) = b at hshale ⊢
  have hdrop := forAll_dropEnergise (groupAxes g) b
  generalize b.forAll (groupAxes g) State.dropEnergise = c at hdrop ⊢
  obtain ⟨hc, hops⟩ := hdrop
  have hgroups : upd a.groups g (fun x => { x with faults := x.faults ||| BitVec.ofNat 8 (2 ^ k.val) }) = upd s.groups g (Group.locked k) := by
    rw [show a.groups = upd s.groups g fun x => { x with lockout := x.lockout ||| BitVec.ofNat 4 (2 ^ k.val), supplyHold := true } from
      congrArg State.groups ha]
    exact upd_upd _ _ _ _
  refine ⟨_, rfl, groupDark_congr (t := a) hdark ?_ ?_, ?_, fun n hn hmem => ?_⟩
  · show c.legs = a.legs
    rw [hc, hshale]
    rfl
  · show c.axes = a.axes
    rw [hc, hshale]
    rfl
  · rw [← hgroups, hc, hshale, ha]
    rfl
  · exact ((hops _).1 hmem).2 n ((mem_groupAxes g n).2 hn) rfl

/-- A lock-out turns its group dark, holds its supply, and waits for step 3 (R241, R242). -/
theorem lockOut_holds (s : State) (g : GroupId) (k : Fin 4) (at' : Nat) : ∃ t, s.lockOut g k at' = t ∧ s.groupDark t g
    ∧ t = { s.logs t with axes := t.axes, legs := t.legs, groups := t.groups, q := t.q, sb := t.sb
                          dev := { (s.logs t).dev with step3 := insertStep (8 * at' + 1) (.supply g k) s.dev.step3 } }
    ∧ (t.grp g).lockout = (s.grp g).lockout ||| BitVec.ofNat 4 (2 ^ k.val) ∧ (t.grp g).supplyHold = true
    ∧ (t.grp g).faults = (s.grp g).faults ||| BitVec.ofNat 8 (2 ^ k.val) ∧ (t.grp g).diag = none
    ∧ (∀ j, j ≠ g → t.grp j = s.grp j) ∧ (∀ n, groupOf n = g → .energise n ∉ t.q.snapOps) ∧ t.q.packets = s.q.packets := by
  obtain ⟨u, hu, hdark, hframe, hops⟩ := lockedDark_frame s g k at'
  have hgrp : u.grp g = (s.grp g).locked k := (congrArg (State.grp · g) hframe).trans (upd_self ..)
  have hend : u.diagsEnded (u.abortDiag g) g := abortDiag_locked (by rw [hgrp]; exact locked_lockout _ k)
  have hrun : s.lockOut g k at' = u.abortDiag g := congrArg (State.abortDiag · g) hu
  rw [hrun]
  generalize u.abortDiag g = t at hend
  have hg := diagsEnded_grp hend
  obtain ⟨ht, hpackets, hsnap⟩ := hend
  rw [hgrp] at hg
  refine ⟨t, rfl, groupDark_congr hdark ?_ ?_, ?_, ?_, ?_, ?_, ?_, fun j hj => ?_, ?_, ?_⟩
  · rw [ht]
  · rw [ht]
  · rw [ht, hframe]
    rfl
  · rw [hg]
    rfl
  · rw [hg]
    rfl
  · rw [hg]
    rfl
  · rw [hg]
  · have hother : t.grp j = u.grp j := (congrArg (State.grp · j) ht).trans (upd_other _ _ _ _ hj)
    rw [hother]
    exact (congrArg (State.grp · j) hframe).trans (upd_other _ _ _ _ hj)
  · rw [hsnap]
    exact hops
  · rw [hpackets, hframe]

theorem exec_lockOuts (s : State) (g : GroupId) (at' : Nat) (c : Instr) (k : Fin 4)
    (h : (c, k) ∈ ([(.gateSupplyLockout g false at', 0), (.gateSupplyLockout g true at', 1), (.vmLockout g false at', 2),
      (.vmLockout g true at', 3)] : List (Instr × Fin 4))) : exec c s = .next (s.lockOut g k at') := by
  simp only [List.mem_cons, List.not_mem_nil, or_false, Prod.mk.injEq] at h
  obtain ⟨rfl, rfl⟩ | ⟨rfl, rfl⟩ | ⟨rfl, rfl⟩ | ⟨rfl, rfl⟩ := h <;> rfl

/-! ### Thermal shutdown (R445) -/

/-- The legs that axis `n` drives belong to its group (R31). -/
theorem drivenLegs_group (s : State) (n : AxisId) {m : LegId} (h : m ∈ s.drivenLegs n) : groupOfLeg m = groupOf n := by
  unfold State.drivenLegs State.driven at h
  obtain ⟨k, hk, hm⟩ := List.mem_flatMap.1 h
  have hleg : axisOfLeg m = k := (mem_axisLegs k m).1 hm
  subst hleg
  have hpair : (axisOfLeg m).val / 2 = n.val / 2 := by
    split at hk
    · simp only [List.mem_cons, List.not_mem_nil, or_false] at hk
      obtain hk | hk := hk <;> simp only [hk, leadOf, partnerOf] <;> omega
    · simp only [List.mem_singleton] at hk
      rw [hk]
  ext
  simp only [axisOfLeg] at hpair
  simp only [groupOfLeg, groupOf]
  omega

/-- A brake output of axis `n`, made inactive (R445). -/
def Pin.brakeOff (n : AxisId) (x : Pin) : Pin :=
  if x.func = 13 && x.axis? = some n then { x with active := false, sink := entryInv x.entry && !x.overloaded } else x

theorem brakeOff_idle {x : Pin} {n : AxisId} (h : x.axis? ≠ some n) : x.brakeOff n = x := if_neg (by simp [h])

theorem brakeOff_brake {x : Pin} {n : AxisId} (hf : x.func = 13) (ha : x.axis? = some n) :
    x.brakeOff n = { x with active := false, sink := entryInv x.entry && !x.overloaded } := if_pos (by simp [hf, ha])

theorem brakePinsOff_frame (s : State) (n : AxisId) : s.brakePinsOff n = { s with pins := (s.brakePinsOff n).pins }
    ∧ ∀ p, (s.brakePinsOff n).pin p = (s.pin p).brakeOff n := by
  unfold State.brakePinsOff
  refine ⟨forAll_keeps (fun t => t = { s with pins := t.pins }) allPins (fun s p => s.modPin p (Pin.brakeOff n)) ?_ s rfl, fun p => ?_⟩
  · intro t p _ h
    rw [h]
    rfl
  · have h := forAll_modPin allPins (List.nodup_finRange _) (fun _ => Pin.brakeOff n) s p
    rw [if_pos (show p ∈ allPins from List.mem_finRange p)] at h
    exact h

/-- A thermal shutdown turns an axis off, with its legs at once and its brake output inactive (R445). -/
def State.heatOff (s : State) (w : Word) (n : AxisId) : State := (((s.turnOff n .thermal w).offNow n).setUnsure n).brakePinsOff n

def Axis.heatOff (x : Axis) : Axis :=
  { x.off with
    drv := { x.off.drv with energised := false, offPend := false }
    mot := { x.off.mot with unsure := x.off.mot.unsure || !x.off.cfg.setpoint } }

/-- An axis that an event turned off has its legs made high-impedance. -/
theorem offNow_turnOff (s : State) (n : AxisId) (st : Status) (w : Word) : (s.turnOff n st w).offNow n = (s.turnOff n st w).legsOff n := by
  have hdrv : ((s.turnOff n st w).ax n).drv = (s.ax n).off.drv := congrArg Axis.drv (turnOff_ax s n st w)
  unfold State.offNow
  extract_lets d
  rw [if_pos (show d.offPend = true by rw [show d = _ from hdrv]; rfl),
    if_neg (show ¬ d.disabling = true by rw [show d = _ from hdrv]; exact Bool.false_ne_true)]

theorem legsOff_axes (s : State) (n : AxisId) : s.legsOff n =
    { s with axes := upd s.axes n fun x => { x with drv := { x.drv with energised := false, offPend := false } }, legs := (s.legsOff n).legs } := by
  have h := forAll_legs (s.drivenLegs n) (fun s m => s.modLeg m Leg.turnOff) (fun _ _ _ => rfl) s
  unfold State.legsOff
  generalize s.forAll (s.drivenLegs n) (fun s m => s.modLeg m Leg.turnOff) = t at h ⊢
  rw [h]
  rfl

theorem legsOff_leg (s : State) (n : AxisId) (m : LegId) :
    (s.legsOff n).leg m = if m ∈ s.drivenLegs n then (s.leg m).turnOff else s.leg m :=
  forAll_modLeg (s.drivenLegs n) _ Leg.turnOff_turnOff s m

theorem heatOff_frame (s : State) (w : Word) (n : AxisId) :
    s.heatOff w n = { s with axes := upd s.axes n Axis.heatOff, legs := (s.heatOff w n).legs, pins := (s.heatOff w n).pins, q := (s.heatOff w n).q
                             sb := (s.heatOff w n).sb }
    ∧ (∀ m, (s.heatOff w n).leg m = (s.leg m).turnOff ∧ groupOfLeg m = groupOf n ∨ (s.heatOff w n).leg m = s.leg m)
    ∧ ∀ p, (s.heatOff w n).pin p = (s.pin p).brakeOff n := by
  unfold State.heatOff
  rw [offNow_turnOff, setUnsure_axes]
  have hoff := (turnOff_changes s n .thermal w).1
  generalize s.turnOff n .thermal w = a at hoff ⊢
  have hleg := legsOff_leg a n
  have hax := legsOff_axes a n
  generalize a.legsOff n = b at hleg hax ⊢
  have hpin := brakePinsOff_frame { b with axes := upd b.axes n fun x => { x with mot := { x.mot with unsure := x.mot.unsure || !x.cfg.setpoint } } } n
  generalize State.brakePinsOff { b with axes := upd b.axes n fun x => { x with mot := { x.mot with unsure := x.mot.unsure || !x.cfg.setpoint } } } n
    = c at hpin ⊢
  obtain ⟨hc, hpin⟩ := hpin
  have haxes : upd b.axes n (fun x => { x with mot := { x.mot with unsure := x.mot.unsure || !x.cfg.setpoint } }) = upd s.axes n Axis.heatOff := by
    rw [show b.axes = upd a.axes n fun x => { x with drv := { x.drv with energised := false, offPend := false } } from congrArg State.axes hax,
      show a.axes = upd s.axes n Axis.off from congrArg State.axes hoff, upd_upd, upd_upd]
    rfl
  have hlegs : c.legs = b.legs := (congrArg State.legs hc :)
  refine ⟨?_, fun m => ?_, fun p => ?_⟩
  · rw [haxes] at hc
    rw [hc, hax, hoff]
  · have hc' : c.leg m = b.leg m := congrArg (fun v : Vector Leg 192 => v[m.val]) hlegs
    have ha' : a.leg m = s.leg m := (congrArg (fun u => State.leg u m) hoff :)
    rw [hc', hleg m, ha']
    split
    next h => exact .inl ⟨rfl, drivenLegs_group a n h⟩
    next => exact .inr rfl
  · rw [hpin p]
    have hb : b.pin p = s.pin p := by
      rw [hax, hoff]
      rfl
    exact congrArg (Pin.brakeOff n) hb

/-! ### A group turned off as a whole -/

/-- The flag of a group has risen, and its legs are dark (R17, R445). -/
def State.groupFaulted (s : State) (g : GroupId) (f : Group → Group) (k : Nat) : State :=
  (((s.modGroup g f).groupLegsOff g).noteFault).shale 4 (Config.powerStageCode k).toNat g.val (pageWord (4 + g.val) 2)

theorem groupFaulted_frame (s : State) (g : GroupId) (f : Group → Group) (k : Nat) : s.groupDark (s.groupFaulted g f k) g
    ∧ s.groupFaulted g f k = { s.logs (s.groupFaulted g f k) with
        axes := (s.groupFaulted g f k).axes, legs := (s.groupFaulted g f k).legs, groups := upd s.groups g f, sb := (s.groupFaulted g f k).sb } := by
  unfold State.groupFaulted
  have hdark := groupLegsOff_dark (s.modGroup g f) g
  generalize (s.modGroup g f).groupLegsOff g = a at hdark ⊢
  obtain ⟨hdark, ha⟩ := hdark
  have hshale := shale_frame a.noteFault 4 (Config.powerStageCode k).toNat g.val (pageWord (4 + g.val) 2)
  generalize a.noteFault.shale 4 (Config.powerStageCode k).toNat g.val (pageWord (4 + g.val) 2) = b at hshale ⊢
  refine ⟨groupDark_congr (t := a) hdark ?_ ?_, ?_⟩
  · rw [hshale]
    rfl
  · rw [hshale]
    rfl
  · rw [hshale, ha]
    rfl

/-- Only axes of the group are live in it. -/
theorem mem_liveAxes (s : State) (g : GroupId) (n : AxisId) :
    n ∈ s.liveAxes g ↔ groupOf n = g ∧ ((s.ax n).drv.enabled || (s.ax n).drv.enabling) = true := by
  unfold State.liveAxes
  rw [List.mem_filter, mem_groupAxes]

theorem liveAxes_nodup (s : State) (g : GroupId) : (s.liveAxes g).Nodup := (groupAxes_nodup g).filter _

/-- An axis of a group that is dark: where it was live, it has been turned off; else it was off. -/
theorem dark_live {l : List AxisId} {F : Axis → Axis} (hdark : s.groupDark u g) (hl : l = u.liveAxes g)
    (hax : ∀ n, t.ax n = if n ∈ l then F (u.ax n) else u.ax n) (n : AxisId) (hn : groupOf n = g) :
    t.ax n = F { s.ax n with drv := { (s.ax n).drv with energised := false } }
    ∨ t.ax n = { s.ax n with drv := { (s.ax n).drv with energised := false } } ∧ (s.ax n).drv.enabled = false ∧ (s.ax n).drv.enabling = false := by
  have hu : u.ax n = { s.ax n with drv := { (s.ax n).drv with energised := false } } := (hdark.2 n).trans (if_pos hn)
  rw [hax n, hu, hl]
  split
  next => exact .inl rfl
  next hlive =>
    refine .inr ⟨rfl, ?_⟩
    have hoff : ((u.ax n).drv.enabled || (u.ax n).drv.enabling) ≠ true := fun h => hlive ((mem_liveAxes u g n).2 ⟨hn, h⟩)
    rw [hu] at hoff
    exact Bool.or_eq_false_iff.1 (Bool.eq_false_iff.2 hoff)

/-- Axes of other groups stand. -/
theorem dark_other {l : List AxisId} {F : Axis → Axis} (hdark : s.groupDark u g) (hl : l = u.liveAxes g)
    (hax : ∀ n, t.ax n = if n ∈ l then F (u.ax n) else u.ax n) (n : AxisId) (hn : groupOf n ≠ g) : t.ax n = s.ax n := by
  rw [hax n, hl, if_neg (fun h => hn ((mem_liveAxes u g n).1 h).1)]
  exact (hdark.2 n).trans (if_neg hn)

/-- The brake outputs of the axes turned off are inactive, and no other pin has changed. -/
theorem forAll_heatOff_pin (w : Word) (l : List AxisId) (s : State) (p : PinId) :
    (∀ n ∈ l, (s.pin p).func = 13 → (s.pin p).axis? = some n →
      (s.forAll l (State.heatOff · w)).pin p = { s.pin p with active := false, sink := entryInv (s.pin p).entry && !(s.pin p).overloaded })
    ∧ ((∀ n ∈ l, (s.pin p).axis? ≠ some n) → (s.forAll l (State.heatOff · w)).pin p = s.pin p) := by
  induction l generalizing s with
  | nil => exact ⟨fun n hn => (List.not_mem_nil hn).elim, fun _ => rfl⟩
  | cons a l ih =>
    rw [forAll_cons]
    have hpin := (heatOff_frame s w a).2.2 p
    obtain ⟨hin, hout⟩ := ih (s.heatOff w a)
    rw [hpin] at hin hout
    refine ⟨fun n hn hf ha => ?_, fun hne => ?_⟩
    · by_cases hna : n = a
      · subst hna
        rw [brakeOff_brake hf ha] at hin hout
        by_cases hl : n ∈ l
        · exact hin n hl hf ha
        · exact hout fun k hk hak => hl (Option.some.inj (hak.symm.trans ha) ▸ hk)
      · have hidle : (s.pin p).brakeOff a = s.pin p := brakeOff_idle fun h => hna (Option.some.inj (ha.symm.trans h))
        rw [hidle] at hin
        exact hin n ((List.mem_cons.1 hn).resolve_left hna) hf ha
    · have hidle : (s.pin p).brakeOff a = s.pin p := brakeOff_idle (hne a List.mem_cons_self)
      rw [hidle] at hout
      exact hout fun k hk => hne k (List.mem_cons_of_mem a hk)

/-- What turning axes of a dark group off leaves of the module. -/
theorem forAll_heatOff_frame (w : Word) (l : List AxisId) (hl : ∀ n ∈ l, groupOf n = g) (hlow : ∀ m, groupOfLeg m = g → (s.leg m).turnOff = s.leg m) :
    s.forAll l (State.heatOff · w) = { s with axes := (s.forAll l (State.heatOff · w)).axes, pins := (s.forAll l (State.heatOff · w)).pins
                                              q := (s.forAll l (State.heatOff · w)).q, sb := (s.forAll l (State.heatOff · w)).sb } := by
  refine forAll_keeps (fun t => t = { s with axes := t.axes, pins := t.pins, q := t.q, sb := t.sb }) l (State.heatOff · w) ?_ s rfl
  intro t n hn h
  obtain ⟨hframe, hleg, -⟩ := heatOff_frame t w n
  have hlegs : (t.heatOff w n).legs = t.legs := by
    refine legs_ext fun m => ?_
    obtain ⟨hoff, hm⟩ | hsame := hleg m
    · have htm : t.leg m = s.leg m := (congrArg (State.leg · m) h :)
      rw [hoff, htm]
      exact hlow m (hm.trans (hl n hn))
    · exact hsame
  rw [hlegs] at hframe
  rw [hframe, h]

/-- The thermal shutdown of a group that runs (R445). -/
theorem thermalShutdown_heats {temp : BitVec 16} (h : (s.grp g).thermSd = false) : ∃ t, s.thermalShutdown g temp = t
    ∧ t = { s.logs t with axes := t.axes, legs := t.legs, pins := t.pins, q := t.q, sb := t.sb
                          groups := upd s.groups g fun x => { x with temp := temp, thermSd := true, thermSticky := true, tlevel := 5 } }
    ∧ (∀ m, t.leg m = if groupOfLeg m = g then (s.leg m).turnOff else s.leg m)
    ∧ (∀ n, groupOf n ≠ g → t.ax n = s.ax n)
    ∧ ∀ n, groupOf n = g → (t.ax n).drv.enabled = false ∧ (t.ax n).drv.energised = false ∧ (t.ax n).drv.enabling = false
        ∧ (t.ax n).cfg = (s.ax n).cfg ∧ ((s.ax n).drv.enabled = true → (t.ax n).mot.runs = [] ∧ (t.ax n).mot.queue = []
          ∧ (t.ax n).mot.unsure = ((s.ax n).mot.unsure || !(s.ax n).cfg.setpoint))
        ∧ ∀ p, (s.pin p).func = 13 → (s.pin p).axis? = some n → (s.ax n).drv.enabled = true →
            t.pin p = { s.pin p with active := false, sink := entryInv (s.pin p).entry && !(s.pin p).overloaded } := by
  have hrun : s.thermalShutdown g temp =
      (s.groupFaulted g (fun x => { x with temp := temp, thermSd := true, thermSticky := true, tlevel := 5 }) 25).forAll
        ((s.groupFaulted g (fun x => { x with temp := temp, thermSd := true, thermSticky := true, tlevel := 5 }) 25).liveAxes g)
        (State.heatOff · (temp.signExtend 32)) := if_neg (by rw [h]; exact Bool.false_ne_true)
  rw [hrun]
  obtain ⟨hdark, hu⟩ := groupFaulted_frame s g (fun x => { x with temp := temp, thermSd := true, thermSticky := true, tlevel := 5 }) 25
  generalize s.groupFaulted g (fun x => { x with temp := temp, thermSd := true, thermSticky := true, tlevel := 5 }) 25 = u at hdark hu
  have hlow (m : LegId) (hm : groupOfLeg m = g) : (u.leg m).turnOff = u.leg m := by
    rw [hdark.1 m, if_pos hm, Leg.turnOff_turnOff]
  have hframe := forAll_heatOff_frame (temp.signExtend 32) (u.liveAxes g) (fun n hn => ((mem_liveAxes u g n).1 hn).1) hlow
  have hax := forAll_ax (liveAxes_nodup u g) (f := fun v n => v.heatOff (temp.signExtend 32) n) (F := fun _ => Axis.heatOff)
    (fun v n => congrArg State.axes (heatOff_frame v (temp.signExtend 32) n).1) u
  have hpin := forAll_heatOff_pin (temp.signExtend 32) (u.liveAxes g) u
  generalize u.forAll (u.liveAxes g) (State.heatOff · (temp.signExtend 32)) = t at hframe hax hpin
  refine ⟨t, rfl, ?_, fun m => ?_, fun n hn => dark_other (F := Axis.heatOff) hdark rfl hax n hn, fun n hn => ?_⟩
  · rw [hframe, hu]
    rfl
  · rw [← hdark.1 m]
    exact (congrArg (State.leg · m) hframe :)
  · have hbrake (p : PinId) (hf : (s.pin p).func = 13) (ha : (s.pin p).axis? = some n) (hen : (s.ax n).drv.enabled = true) :
        t.pin p = { s.pin p with active := false, sink := entryInv (s.pin p).entry && !(s.pin p).overloaded } := by
      have hup : u.pin p = s.pin p := (congrArg (State.pin · p) hu :)
      have hlive : n ∈ u.liveAxes g := by
        refine (mem_liveAxes u g n).2 ⟨hn, ?_⟩
        rw [(hdark.2 n).trans (if_pos hn)]
        exact Bool.or_eq_true_iff.2 (.inl hen)
      have hp := (hpin p).1 n hlive
      rw [hup] at hp
      exact hp hf ha
    obtain hlive | ⟨hidle, hen, hing⟩ := dark_live (F := Axis.heatOff) hdark rfl hax n hn
    · rw [hlive]
      exact ⟨rfl, rfl, rfl, rfl, fun _ => ⟨rfl, rfl, rfl⟩, hbrake⟩
    · rw [hidle]
      exact ⟨hen, rfl, hing, rfl, fun hon => (Bool.false_ne_true (hen.symm.trans hon)).elim, hbrake⟩

/-! ### The link of a group (R17) -/

/-- A configuration write that failed three times turns its group off (R17). -/
theorem linkFailure_off (s : State) (g : GroupId) : ∃ t, s.linkFailure g .configWrite = t
    ∧ t = { s.logs t with axes := t.axes, legs := t.legs, q := t.q, sb := t.sb, groups := upd s.groups g fun x => { x with link := true } }
    ∧ (∀ m, t.leg m = if groupOfLeg m = g then (s.leg m).turnOff else s.leg m)
    ∧ (∀ n, groupOf n ≠ g → t.ax n = s.ax n)
    ∧ ∀ n, groupOf n = g → (t.ax n).drv.enabled = false ∧ (t.ax n).drv.energised = false ∧ (t.ax n).cfg = (s.ax n).cfg := by
  have hrun : s.linkFailure g .configWrite = (s.groupFaulted g (fun x => { x with link := true }) 24).forAll
      ((s.groupFaulted g (fun x => { x with link := true }) 24).liveAxes g) fun v n => v.turnOff n .driveFault (v.ax n).prot.faultWord := rfl
  rw [hrun]
  obtain ⟨hdark, hu⟩ := groupFaulted_frame s g (fun x => { x with link := true }) 24
  generalize s.groupFaulted g (fun x => { x with link := true }) 24 = u at hdark hu
  have hframe := forAll_keeps (fun t => t = { u with axes := t.axes, q := t.q, sb := t.sb }) (u.liveAxes g)
    (fun v n => v.turnOff n .driveFault (v.ax n).prot.faultWord) (fun v n _ hv => by rw [(turnOff_changes v n _ _).1, hv]) u rfl
  have hax := forAll_ax (liveAxes_nodup u g) (f := fun v n => v.turnOff n .driveFault (v.ax n).prot.faultWord) (F := fun _ => Axis.off)
    (fun v n => congrArg State.axes (turnOff_changes v n .driveFault (v.ax n).prot.faultWord).1) u
  generalize u.forAll (u.liveAxes g) (fun v n => v.turnOff n .driveFault (v.ax n).prot.faultWord) = t at hframe hax
  refine ⟨t, rfl, ?_, fun m => ?_, fun n hn => dark_other (F := Axis.off) hdark rfl hax n hn, fun n hn => ?_⟩
  · rw [hframe, hu]
    rfl
  · rw [← hdark.1 m]
    exact (congrArg (State.leg · m) hframe :)
  · obtain hlive | ⟨hidle, hen, -⟩ := dark_live (F := Axis.off) hdark rfl hax n hn
    · rw [hlive]
      exact ⟨rfl, rfl, rfl⟩
    · rw [hidle]
      exact ⟨hen, rfl, rfl⟩

/-! ### The shutdown that stands, and the baseplate (R441, R446) -/

theorem exec_thermalShutdownClear (s : State) (g : GroupId) : exec (.thermalShutdownClear g) s = .next { s with
    groups := upd s.groups g fun x => { x with thermSd := x.thermSd && decide (1160 < x.temp.toInt) } } := by
  refine congrArg (fun v => Host.Outcome.next ({ s with groups := v } : State)) (upd_congr _ _ _ _ ?_)
  generalize s.groups[g.val] = x
  show (if x.thermSd && decide (x.temp.toInt ≤ 1160) then { x with thermSd := false } else x) = _
  by_cases ht : x.temp.toInt ≤ 1160
  · rw [decide_eq_true ht, decide_eq_false (show ¬ 1160 < x.temp.toInt by omega), Bool.and_true, Bool.and_false]
    split
    · rfl
    next hsd => rw [← Bool.eq_false_iff.2 hsd]
  · rw [decide_eq_false ht, decide_eq_true (show 1160 < x.temp.toInt by omega), Bool.and_true, Bool.and_false, if_neg Bool.false_ne_true]

theorem exec_baseplateReading (s : State) (v : BitVec 16) :
    (-400 ≤ v.toInt → v.toInt ≤ 1200 → exec (.baseplateReading v) s = .next { s with dev := { s.dev with tbase := v, bpErr := false } })
    ∧ (v.toInt < -400 ∨ 1200 < v.toInt → exec (.baseplateReading v) s = .next { s with dev := { s.dev with tbase := 800, bpErr := true } }) := by
  have hrow (b : Bool) (hb : (decide (v.toInt < -400) || decide (1200 < v.toInt)) = b) : exec (.baseplateReading v) s =
      .next { s with dev := { s.dev with tbase := if b then 800 else v, bpErr := b } } := by
    subst hb
    simp only [exec, execBaseplateReading]
  refine ⟨fun hlo hhi => hrow false ?_, fun h => hrow true ?_⟩
  · simp only [Bool.or_eq_false_iff, decide_eq_false_iff_not]
    omega
  · simpa using h

/-- Settles O54: an event on a whole group turns its EN lines low at once; the axes that were live end by turning each off. Log 29 lets what
runs end when a link fails, log 39 clears lock-outs only by their release, and log 120 takes of a shutdown that stands its reading alone. -/
theorem groupsAreHeldAndShutDown : Obligations.GroupsAreHeldAndShutDown := by
  refine ⟨fun s g => ⟨fun at' c k hc => ?_, rfl⟩, fun s g => ⟨fun temp h => ?_, fun temp h => ?_, exec_thermalShutdownClear s g, rfl, fun _ _ => rfl,
    ?_, exec_baseplateReading s⟩⟩
  · obtain ⟨t, ht, hrest⟩ := lockOut_holds s g k at'
    exact ⟨t, (exec_lockOuts s g at' c k hc).trans (congrArg Host.Outcome.next ht), hrest⟩
  · exact congrArg Host.Outcome.next (if_pos h)
  · obtain ⟨t, ht, hrest⟩ := thermalShutdown_heats (temp := temp) h
    exact ⟨t, congrArg Host.Outcome.next ht, hrest⟩
  · obtain ⟨t, ht, hrest⟩ := linkFailure_off s g
    exact ⟨t, congrArg Host.Outcome.next ht, hrest⟩

end Sys2Proof.Machine
end

section
/-! PROOF. Safe-off and the loss of the clock (09_power_stage.md R262 to R264; 01_architecture.md R28; 15_reset_lifecycle.md R390). -/
namespace Sys2Proof.Machine
open Sys2Proof

variable {s : State}

/-! ### The whole module goes dark -/

/-- An axis that is no longer energised. -/
def Axis.dark (x : Axis) : Axis := { x with drv := { x.drv with energised := false } }

/-- An axis that is no longer energised, with its brake inactive (R262, R390). -/
def Axis.braked (x : Axis) : Axis := { x with drv := { x.drv with energised := false, brake := false, brakeWait := false } }

/-- The EN lines of every group of a list go low. -/
theorem forAll_groupLegsOff (l : List GroupId) (s : State) :
    (∀ m, (s.forAll l State.groupLegsOff).leg m = if groupOfLeg m ∈ l then (s.leg m).turnOff else s.leg m)
    ∧ (∀ n, (s.forAll l State.groupLegsOff).ax n = if groupOf n ∈ l then (s.ax n).dark else s.ax n)
    ∧ s.forAll l State.groupLegsOff = { s with legs := (s.forAll l State.groupLegsOff).legs, axes := (s.forAll l State.groupLegsOff).axes } := by
  induction l generalizing s with
  | nil => exact ⟨fun _ => rfl, fun _ => rfl, rfl⟩
  | cons g l ih =>
    obtain ⟨⟨hleg, hax⟩, hframe⟩ := groupLegsOff_dark s g
    obtain ⟨ihleg, ihax, ihframe⟩ := ih (s.groupLegsOff g)
    rw [forAll_cons]
    refine ⟨fun m => ?_, fun n => ?_, ?_⟩
    · rw [ihleg m, hleg m]
      by_cases hg : groupOfLeg m = g <;> by_cases hl : groupOfLeg m ∈ l <;> simp [hg, hl, Leg.turnOff_turnOff]
    · rw [ihax n, hax n]
      by_cases hg : groupOf n = g <;> by_cases hl : groupOf n ∈ l <;> simp [hg, hl, Axis.dark]
    · generalize (s.groupLegsOff g).forAll l State.groupLegsOff = t at ihframe ⊢
      rw [ihframe, hframe]

/-- Every EN line goes low, and every axis is no longer energised. -/
theorem allLegsOff (s : State) : (∀ m, (s.forAll allGroups State.groupLegsOff).leg m = (s.leg m).turnOff)
    ∧ (∀ n, (s.forAll allGroups State.groupLegsOff).ax n = (s.ax n).dark)
    ∧ s.forAll allGroups State.groupLegsOff
      = { s with legs := (s.forAll allGroups State.groupLegsOff).legs, axes := (s.forAll allGroups State.groupLegsOff).axes } := by
  obtain ⟨hleg, hax, hframe⟩ := forAll_groupLegsOff allGroups s
  exact ⟨fun m => (hleg m).trans (if_pos (List.mem_finRange _)), fun n => (hax n).trans (if_pos (List.mem_finRange _)), hframe⟩

/-! ### Safe-off (R262 to R264) -/

/-- A pin with a brake on it, made inactive (R262). -/
def Pin.braked (x : Pin) : Pin :=
  if x.func = 13 then { x with active := false, sink := entryInv x.entry && !x.overloaded } else x

/-- The brake of an axis is dropped, and its pending energising with it. -/
def State.safeAxis (s : State) (n : AxisId) : State := (s.dropEnergise n).modDrv n fun d => { d with brake := false, brakeWait := false }

/-- Every brake is dropped, and every pending energising. -/
theorem forAll_safeAxis (l : List AxisId) (s : State) :
    s.forAll l State.safeAxis = { s with axes := (s.forAll l State.safeAxis).axes, q := { s.q with snapOps := (s.forAll l State.safeAxis).q.snapOps } }
    ∧ ∀ o, o ∈ (s.forAll l State.safeAxis).q.snapOps ↔ o ∈ s.q.snapOps ∧ ∀ n ∈ l, o ≠ .energise n := by
  induction l generalizing s with
  | nil => exact ⟨rfl, by simp⟩
  | cons a l ih =>
    obtain ⟨hframe, hops⟩ := ih (s.safeAxis a)
    rw [forAll_cons]
    refine ⟨?_, fun o => ?_⟩
    · generalize (s.safeAxis a).forAll l State.safeAxis = t at hframe ⊢
      rw [hframe]
      rfl
    · rw [hops]
      simp [State.safeAxis, State.dropEnergise, State.modDrv, State.modAxis, and_assoc]

/-- Every brake output goes inactive. -/
theorem forAll_brakePins (u : State) : u.forAll allPins (fun s p => s.modPin p Pin.braked)
      = { u with pins := (u.forAll allPins fun s p => s.modPin p Pin.braked).pins }
    ∧ ∀ p, (u.forAll allPins fun s p => s.modPin p Pin.braked).pin p = (u.pin p).braked := by
  refine ⟨forAll_keeps (fun t => t = { u with pins := t.pins }) allPins (fun s p => s.modPin p Pin.braked) ?_ u rfl, fun p => ?_⟩
  · intro t p _ ht
    rw [ht]
    rfl
  · exact (forAll_modPin allPins (List.nodup_finRange _) (fun _ => Pin.braked) u p).trans (if_pos (List.mem_finRange p))

/-- What a safe-off input has seen waits for step 3 (R262). -/
def State.safeWait (u : State) (a b : Bool) (at' : Nat) : State :=
  State.waitStep3 { u with dev := { u.dev with safeA := !a, safeB := !b, discNow := false
                                               bothLow := u.dev.bothLow || (u.dev.safeDisc && a && b) } } at' 0 (.safe a b)

theorem safeOff_runs (s : State) (a b : Bool) (at' : Nat) : s.safeOff a b at' =
    (((s.forAll allGroups State.groupLegsOff).forAll allAxes State.safeAxis).forAll allPins fun s p => s.modPin p Pin.braked).safeWait a b at' := by
  unfold State.safeOff State.safeAxis Pin.braked
  rfl

theorem exec_safeOff {a b : Bool} (at' : Nat) (h : a = true ∨ b = true) : ∃ t, exec (.safeOff a b at') s = .next t
    ∧ t = { s with
        legs := t.legs, axes := t.axes, pins := t.pins, q := { s.q with snapOps := t.q.snapOps }
        dev := { s.dev with safeA := !a, safeB := !b, discNow := false, bothLow := s.dev.bothLow || (s.dev.safeDisc && a && b)
                            step3 := insertStep (8 * at') (.safe a b) s.dev.step3 } }
    ∧ (∀ m, (t.leg m) = (s.leg m).turnOff)
    ∧ (∀ n, t.ax n = (s.ax n).braked)
    ∧ (∀ o, o ∈ t.q.snapOps ↔ o ∈ s.q.snapOps ∧ ∀ n, o ≠ .energise n)
    ∧ ∀ p, t.pin p = (s.pin p).braked := by
  refine ⟨s.safeOff a b at', congrArg Host.Outcome.next (if_pos (Bool.or_eq_true_iff.2 h)), ?_⟩
  rw [safeOff_runs]
  obtain ⟨hleg, hdark, hoff⟩ := allLegsOff s
  generalize s.forAll allGroups State.groupLegsOff = u at hleg hdark hoff ⊢
  obtain ⟨hframe, hops⟩ := forAll_safeAxis allAxes u
  have hax := forAll_ax (List.nodup_finRange 48) (f := State.safeAxis)
    (F := fun _ x => { x with drv := { x.drv with brake := false, brakeWait := false } }) (fun _ _ => rfl) u
  change ∀ n, (u.forAll allAxes State.safeAxis).ax n = _ at hax
  generalize u.forAll allAxes State.safeAxis = v at hframe hops hax ⊢
  obtain ⟨hpins, hpin⟩ := forAll_brakePins v
  generalize v.forAll allPins (fun s p => s.modPin p Pin.braked) = w at hpins hpin ⊢
  refine ⟨?_, fun m => ?_, fun n => ?_, fun o => ?_, fun p => ?_⟩
  · unfold State.safeWait
    rw [hpins, hframe, hoff]
    rfl
  · refine Eq.trans ?_ (hleg m)
    rw [hpins, hframe]
    rfl
  · have hv : (w.safeWait a b at').ax n = v.ax n := by
      rw [hpins]
      rfl
    rw [hv, hax n, if_pos (List.mem_finRange n), hdark n]
    rfl
  · have hv : (w.safeWait a b at').q.snapOps = v.q.snapOps := by
      rw [hpins]
      rfl
    rw [hv, hops o, hoff]
    exact and_congr_right fun _ => ⟨fun ho n => ho n (List.mem_finRange n), fun ho n _ => ho n⟩
  · have hv : v.pin p = s.pin p := by
      rw [hframe, hoff]
      rfl
    exact (hpin p).trans (congrArg Pin.braked hv)

theorem exec_safeDisc (aLow : Bool) (h : s.dev.safeA = false ∨ s.dev.safeB = false) : ∃ t, exec (.safeDisc aLow) s = .next t
    ∧ t = { s.flagged t 5 with dev := { (s.flagged t 5).dev with
        safeA := !aLow, safeB := aLow, safeDisc := true, discNow := true, bothLow := false, safeAct := true } } := by
  refine ⟨_, congrArg Host.Outcome.next (if_neg ?_), gfaultSet_flagged _ 5⟩
  rw [Bool.and_eq_true]
  rintro ⟨ha, hb⟩
  obtain h | h := h
  · exact Bool.false_ne_true (h.symm.trans ha)
  · exact Bool.false_ne_true (h.symm.trans hb)

/-! ### A lost clock (R28, R390) -/

/-- SAFE_HOLD drops the brake of an axis; that of the side-band port is announced as stopped (R353, R390). -/
def State.holdAxis (s : State) (n : AxisId) : State := (s.ownedAlert n).modDrv n fun d => { d with brake := false, brakeWait := false }

theorem holdAxis_frame (s : State) (n : AxisId) : s.holdAxis n = { s with
    axes := upd s.axes n fun x => { x with drv := { x.drv with brake := false, brakeWait := false } }
    sb := { s.sb with causes := (s.holdAxis n).sb.causes, announced := (s.holdAxis n).sb.announced } } := by
  unfold State.holdAxis State.ownedAlert
  split <;> rfl

/-- The module is in SAFE_HOLD (R390). -/
def State.inHold (s : State) : State := { s with dev := { s.dev with safeHold := true, ready := false } }

/-- SAFE_HOLD turns every EN line and every brake off, with READY 0 (R390). -/
theorem enterSafeHold_braked (s : State) : s.enterSafeHold = { s with
      legs := s.enterSafeHold.legs, axes := s.enterSafeHold.axes, dev := { s.dev with safeHold := true, ready := false }
      sb := { s.sb with causes := s.enterSafeHold.sb.causes, announced := s.enterSafeHold.sb.announced } }
    ∧ (∀ m, s.enterSafeHold.leg m = (s.leg m).turnOff) ∧ ∀ n, s.enterSafeHold.ax n = (s.ax n).braked := by
  have hrun : s.enterSafeHold = ((s.forAll allGroups State.groupLegsOff).forAll allAxes State.holdAxis).inHold := by
    unfold State.enterSafeHold State.holdAxis
    rfl
  rw [hrun]
  obtain ⟨hleg, hdark, hoff⟩ := allLegsOff s
  generalize s.forAll allGroups State.groupLegsOff = u at hleg hdark hoff ⊢
  have hax := forAll_ax (List.nodup_finRange 48) (f := State.holdAxis)
    (F := fun _ x => { x with drv := { x.drv with brake := false, brakeWait := false } }) (fun t n => congrArg State.axes (holdAxis_frame t n)) u
  change ∀ n, (u.forAll allAxes State.holdAxis).ax n = _ at hax
  have hframe := forAll_keeps (fun t => t = { u with axes := t.axes, sb := { u.sb with causes := t.sb.causes, announced := t.sb.announced } })
    allAxes State.holdAxis (fun t n _ ht => by rw [holdAxis_frame t n, ht]) u rfl
  generalize u.forAll allAxes State.holdAxis = v at hax hframe ⊢
  refine ⟨?_, fun m => ?_, fun n => ?_⟩
  · rw [hframe, hoff]
    rfl
  · refine Eq.trans ?_ (hleg m)
    rw [hframe]
    rfl
  · refine (hax n).trans ?_
    rw [if_pos (List.mem_finRange n), hdark n]
    rfl

theorem exec_clkLost (s : State) : ∃ t, exec .clkLost s = .next t
    ∧ t = { s.flagged t 0 with legs := t.legs, axes := t.axes, dev := { (s.flagged t 0).dev with safeHold := true, ready := false } }
    ∧ (∀ m, (t.leg m) = (s.leg m).turnOff) ∧ ∀ n, t.ax n = (s.ax n).braked := by
  refine ⟨(s.gfaultSet 0).enterSafeHold, rfl, ?_⟩
  have hflag := gfaultSet_flagged s 0
  generalize s.gfaultSet 0 = u at hflag ⊢
  obtain ⟨hframe, hleg, hax⟩ := enterSafeHold_braked u
  generalize u.enterSafeHold = t at hframe hleg hax ⊢
  refine ⟨?_, fun m => ?_, fun n => ?_⟩
  · rw [hframe, hflag]
    rfl
  · exact (hleg m).trans (congrArg (fun v : State => (v.leg m).turnOff) hflag :)
  · exact (hax n).trans (congrArg (fun v : State => (v.ax n).braked) hflag :)

/-- Settles O55: every leg and brake is turned off one by one over the lists of all groups, axes and pins. That SAFE_HOLD drops the brakes and
leaves the axes marked enabled is log 66; which input SAFE_DISC finds low is log 92. -/
theorem safeOffAndClockLossStopEverything : Obligations.SafeOffAndClockLossStopEverything := by
  refine fun s => ⟨fun t => rfl, fun a b at' h => ?_, fun hd hb => ?_, fun h => ?_, fun aLow ha hb => ?_,
    fun aLow h => exec_safeDisc aLow h, ?_⟩
  · obtain ⟨t, ht, hframe, hleg, hax, hops, hpin⟩ := exec_safeOff at' h
    exact ⟨t, ht, hframe, hleg, hax, hops, hpin⟩
  · refine congrArg (fun d => Host.Outcome.next ({ s with dev := d } : State)) (if_pos ?_)
    rw [hd, hb]
    rfl
  · refine congrArg (fun d => Host.Outcome.next ({ s with dev := d } : State)) (if_neg ?_)
    rw [Bool.and_eq_true]
    rintro ⟨hdisc, hlow⟩
    obtain h | h := h
    · exact Bool.false_ne_true (h.symm.trans hdisc)
    · rw [h] at hlow
      exact Bool.false_ne_true hlow
  · refine congrArg Host.Outcome.next (if_pos ?_)
    rw [ha, hb]
    rfl
  · obtain ⟨t, ht, hframe, hleg, hax⟩ := exec_clkLost s
    exact ⟨t, ht, hframe, hleg, hax⟩

end Sys2Proof.Machine
end

section
/-! PROOF. Resets and their stages (15_reset_lifecycle.md R377 to R404). -/
namespace Sys2Proof.Machine
open Sys2Proof

variable {s : State}

/-! ### The end of a stage (R381) -/

theorem stageEnd_idle {st : Stage} {f : State → State} (h : s.dev.stage ≠ st) : s.stageEnd st f = s := if_neg h
theorem stageEnd_runs {st : Stage} {f : State → State} (h : s.dev.stage = st) : s.stageEnd st f = f s := if_pos h

theorem exec_fuseSensingEnd (h : s.dev.stage = .fuseSensing) : exec .fuseSensingEnd s = .next { s with dev := { s.dev with
    fuseState := s.nvm.fuses, nrstDrive := true, stage := if s.nvm.pulse then .nvmDeferral else .optionsLoad } } :=
  congrArg Host.Outcome.next (stageEnd_runs h)

theorem exec_nvmPulseEnd_deferred (h : s.dev.stage = .nvmDeferral) : exec .nvmPulseEnd s = .next { s with
    nvm := { s.nvm with pulse := false }, dev := { s.dev with stage := .optionsLoad } } := by
  refine congrArg Host.Outcome.next ((if_neg ?_).trans (stageEnd_runs h))
  rw [h]
  exact nofun

/-! ### The options load (R387, R388, R401, R404) -/

/-- The load of a record of options, or of none (R387, R388). -/
def State.loadedWith (s : State) (r : Option (Vector Word 64)) (aBad : Bool) : State :=
  State.loadTrims { s with dev := s.dev.loaded r aBad, nvm := ({ s.nvm with lc := lifeOf s.nvm.lcWord } : Nvm).finishErasure, sb := s.sb.afterLoad r }

theorem optionsLoaded_eq (s : State) (ok : Bool) :
    s.optionsLoaded ok = s.loadedWith (if ok then s.nvm.loadRecord.1 else none) s.nvm.loadRecord.2 := rfl

/-- The load takes copy A where it passes (R387). -/
theorem loadRecord_copyA {v : Nvm} {r : Vector Word 64} (h : v.copyA = some r) (hr : optHeader r = true) : v.loadRecord = (some r, false) := by
  unfold Nvm.loadRecord
  rw [h, Option.filter_some, if_pos hr]

theorem loadTrims_leg (s : State) (m : LegId) : s.loadTrims.leg m = { s.leg m with os := (s.legTrim m).os, gs := (s.legTrim m).gs0 } := by
  unfold State.leg State.loadTrims
  simp only [Fin.getElem_fin, Vector.getElem_ofFn]

theorem loadTrims_adc (s : State) (a : AdcId) : s.loadTrims.adc a = { s.adc a with oa := (s.adcTrim a).oa, ga := (s.adcTrim a).ga } := by
  unfold State.adc State.loadTrims
  simp only [Fin.getElem_fin, Vector.getElem_ofFn]

theorem loadTrims_grp (s : State) (g : GroupId) : s.loadTrims.grp g = { s.grp g with taps := s.tapTrim g } := by
  unfold State.grp State.loadTrims
  simp only [Fin.getElem_fin, Vector.getElem_ofFn]

/-- An erasure completed keeps the life-cycle state and the fuses (R404). -/
theorem finishErasure_kept (v : Nvm) : v.finishErasure.lc = v.lc ∧ v.finishErasure.fuses = v.fuses ∧ v.finishErasure.legTrim = v.legTrim
    ∧ v.finishErasure.adcTrim = v.adcTrim ∧ v.finishErasure.tapTrim = v.tapTrim := by
  unfold Nvm.finishErasure
  split <;> exact ⟨rfl, rfl, rfl, rfl, rfl⟩

/-- The trims in force after a load: the factory's, or where none was applied the silicon's (R197, R388). -/
theorem loadedWith_trims (s : State) (r : Option (Vector Word 64)) (aBad : Bool) :
    (∀ m, (s.loadedWith r aBad).leg m = { s.leg m with
      os := (if r.isNone then ({} : LegTrim) else s.nvm.legTrim[m]).os, gs := (if r.isNone then ({} : LegTrim) else s.nvm.legTrim[m]).gs0 })
    ∧ (∀ a, (s.loadedWith r aBad).adc a = { s.adc a with
      oa := (if r.isNone then ({} : AdcTrim) else s.nvm.adcTrim[a]).oa, ga := (if r.isNone then ({} : AdcTrim) else s.nvm.adcTrim[a]).ga })
    ∧ ∀ g, (s.loadedWith r aBad).grp g = { s.grp g with taps := if r.isNone then siliconTaps else s.nvm.tapTrim[g] } := by
  obtain ⟨-, -, hleg, hadc, htap⟩ := finishErasure_kept { s.nvm with lc := lifeOf s.nvm.lcWord }
  unfold State.loadedWith
  refine ⟨fun m => ?_, fun a => ?_, fun g => ?_⟩
  · rw [loadTrims_leg]
    unfold State.legTrim
    simp only [hleg]
    rfl
  · rw [loadTrims_adc]
    unfold State.adcTrim
    simp only [hadc]
    rfl
  · rw [loadTrims_grp]
    unfold State.tapTrim
    simp only [htap]
    rfl

/-- The NVM after a load: the life-cycle state is that of its word, and an erasure under way has been completed (R401, R404). -/
theorem loadedWith_nvm (s : State) (r : Option (Vector Word 64)) (aBad : Bool) : (s.loadedWith r aBad).nvm.lc = lifeOf s.nvm.lcWord
    ∧ (s.loadedWith r aBad).nvm.fuses = s.nvm.fuses
    ∧ (s.nvm.erasing = true → (s.loadedWith r aBad).nvm.devKey = none ∧ (s.loadedWith r aBad).nvm.fwKey = none
      ∧ (s.loadedWith r aBad).nvm.passcode = 0 ∧ (s.loadedWith r aBad).nvm.markA = none ∧ (s.loadedWith r aBad).nvm.markB = none
      ∧ (s.loadedWith r aBad).nvm.floor = 0 ∧ (s.loadedWith r aBad).nvm.shale = [] ∧ (s.loadedWith r aBad).nvm.erasing = false) := by
  have hnvm : (s.loadedWith r aBad).nvm = ({ s.nvm with lc := lifeOf s.nvm.lcWord } : Nvm).finishErasure := rfl
  obtain ⟨hlc, hfuses, -⟩ := finishErasure_kept { s.nvm with lc := lifeOf s.nvm.lcWord }
  rw [hnvm]
  refine ⟨hlc, hfuses, fun he => ?_⟩
  rw [show ({ s.nvm with lc := lifeOf s.nvm.lcWord } : Nvm).finishErasure = { s.nvm with
    lc := lifeOf s.nvm.lcWord, erasing := false, devKey := none, fwKey := none, passcode := 0, markA := none, markB := none, floor := 0
    shale := [], shalePos := 0, shaleSeq := 0 } from if_pos he]
  exact ⟨rfl, rfl, rfl, rfl, rfl, rfl, rfl, rfl⟩

theorem exec_optionsLoadEnd (ok : Bool) (h : s.dev.stage = .optionsLoad) :
    exec (.optionsLoadEnd ok) s = .next (s.loadedWith (if ok then s.nvm.loadRecord.1 else none) s.nvm.loadRecord.2) :=
  congrArg Host.Outcome.next ((stageEnd_runs h).trans (optionsLoaded_eq s ok))

/-! ### The RAM wipe, and READY (R364, R381, R388) -/

/-- The module runs, its flash devices discovered (R364). -/
def State.wiped (s : State) (a b : Option Sfdp) : State :=
  State.discover { s with mp := { s.mp with chip0 := a, chip1 := b }, dev := { s.dev with stage := .running } }

theorem exec_ramWipeEnd (a b : Option Sfdp) (h : s.dev.stage = .ramWipe) : exec (.ramWipeEnd a b) s = .next (s.boot a b) :=
  congrArg Host.Outcome.next (stageEnd_runs h)

theorem boot_held {a b : Option Sfdp} (h : s.dev.defaults = true) :
    s.boot a b = { s.wiped a b with dev := { (s.wiped a b).dev with safeHold := true } } := if_pos h

theorem boot_stays {a b : Option Sfdp} (h : s.dev.defaults = false) (hs : s.dev.safeHold = true ∨ s.nvm.lc = .retired) : s.boot a b = s.wiped a b := by
  refine (if_neg ?_).trans (if_pos ?_)
  · exact fun hd => Bool.false_ne_true (h.symm.trans hd)
  · exact Bool.or_eq_true_iff.2 (hs.imp id fun hl => decide_eq_true hl)

theorem boot_ready {a b : Option Sfdp} (h : s.dev.defaults = false) (hs : s.dev.safeHold = false) (hl : s.nvm.lc ≠ .retired) :
    s.boot a b = (s.wiped a b).raiseReady := by
  refine (if_neg ?_).trans (if_neg ?_)
  · exact fun hd => Bool.false_ne_true (h.symm.trans hd)
  · rw [Bool.or_eq_true_iff]
    rintro (hd | hd)
    · exact Bool.false_ne_true (hs.symm.trans hd)
    · exact hl (of_decide_eq_true hd)

/-- READY as it rises, before its Shale entries (R379). -/
def State.risen (s : State) : State := { s with
  dev := { s.dev with ready := true, rstSrc := s.dev.sources, sources := 0, restarts := 0 }
  mp := { s.mp with boot := if s.mp.cfgErr then [] else [(s.option 13) = 1, (s.option 13) ≠ 1] } }

/-- READY and its Shale entries (R379, R387). -/
def State.risenLogged (s : State) : State :=
  let u := s.risen.shale 1 (lowestBit s.risen.dev.rstSrc) 255 (s.risen.rstCause.setWidth 24)
  if u.dev.aBad then u.shale 10 0 255 (Config.shaleData 10) else u

theorem risenLogged_frame (s : State) : s.risenLogged = s.risen.logs s.risenLogged := by
  unfold State.risenLogged
  extract_lets u
  have hu : u = s.risen.logs u := shale_frame ..
  split
  · rw [shale_frame u, hu]
    rfl
  · exact hu

theorem raiseReady_eq (s : State) : s.raiseReady =
    if s.risenLogged.sb.pendReset then (State.sbResult { s.risenLogged with sb := { s.risenLogged.sb with pendReset := false } } Status.ok.code).alert 5
    else s.risenLogged := rfl

/-- What READY changes (R361, R371, R379). -/
theorem raiseReady_frame (s : State) : s.raiseReady = { s.risen.logs s.raiseReady with sb := s.raiseReady.sb }
    ∧ (s.sb.pendReset = true → s.raiseReady.sb.result = 0 ∧ s.raiseReady.sb.pendReset = false) := by
  have hlog := risenLogged_frame s
  rw [raiseReady_eq]
  generalize s.risenLogged = u at hlog
  have hpend : u.sb.pendReset = s.sb.pendReset := by
    rw [hlog]
    rfl
  split
  next h =>
    refine ⟨?_, fun _ => ⟨rfl, rfl⟩⟩
    rw [hlog]
    rfl
  next h =>
    refine ⟨?_, fun hs => (h (hpend.trans hs)).elim⟩
    rw [hlog]
    rfl

/-- The wipe keeps all but the flash devices found, and READY what it changes (R381). -/
theorem boot_frame (s : State) (a b : Option Sfdp) : ∃ t, s.boot a b = t ∧ t.dev.stage = .running ∧ t.mp.chip0 = a ∧ t.mp.chip1 = b
    ∧ t.axes = s.axes ∧ t.legs = s.legs ∧ t.tb = s.tb ∧ t.q = s.q ∧ t.mp.dev0 = (s.wiped a b).mp.dev0 ∧ t.mp.dev1 = (s.wiped a b).mp.dev1
    ∧ (s.dev.defaults = true → t.dev.safeHold = true ∧ t.dev.ready = s.dev.ready ∧ t.nvm = s.nvm)
    ∧ (s.dev.defaults = false → s.dev.safeHold = true ∨ s.nvm.lc = .retired → t.dev.ready = s.dev.ready
        ∧ t.dev.safeHold = s.dev.safeHold ∧ t.sb = s.sb)
    ∧ (s.dev.defaults = false → s.dev.safeHold = false → s.nvm.lc ≠ .retired → t.dev.ready = true ∧ t.dev.safeHold = false
        ∧ t.dev.rstSrc = s.dev.sources ∧ t.dev.sources = 0 ∧ t.dev.restarts = 0
        ∧ (s.sb.pendReset = true → t.sb.result = 0 ∧ t.sb.pendReset = false)) := by
  refine ⟨s.boot a b, rfl, ?_⟩
  cases hd : s.dev.defaults with
  | true =>
    rw [boot_held hd]
    exact ⟨rfl, rfl, rfl, rfl, rfl, rfl, rfl, rfl, rfl, fun _ => ⟨rfl, rfl, rfl⟩, nofun, nofun⟩
  | false =>
    by_cases hs : s.dev.safeHold = true ∨ s.nvm.lc = .retired
    · rw [boot_stays hd hs]
      exact ⟨rfl, rfl, rfl, rfl, rfl, rfl, rfl, rfl, rfl, nofun, fun _ _ => ⟨rfl, rfl, rfl⟩,
        fun _ hsafe hl => (hs.elim (fun h => Bool.false_ne_true (hsafe.symm.trans h)) hl).elim⟩
    · have hsafe : s.dev.safeHold = false := Bool.eq_false_iff.2 fun h => hs (.inl h)
      rw [boot_ready hd hsafe fun hl => hs (.inr hl)]
      obtain ⟨hframe, hpend⟩ := raiseReady_frame (s.wiped a b)
      generalize (s.wiped a b).raiseReady = t at hframe hpend
      refine ⟨?_, ?_, ?_, ?_, ?_, ?_, ?_, ?_, ?_, nofun, fun _ h => (hs h).elim, fun _ _ _ => ⟨?_, ?_, ?_, ?_, ?_, hpend⟩⟩
      all_goals rw [hframe]
      case refine_11 => exact hsafe
      all_goals rfl

/-! ### The claim -/

/-- Settles O56: a source begins its reset by one lemma for all (`startReset_begun`), and each stage's end acts only in its stage. That
NVM_PULSE_END belongs to a reset is log 91, that RST_CAUSE and the restart count follow READY is log 72, and that RAM_WIPE_END brings the
devices found is log 115. -/
theorem resetsRunThroughTheirStages : Obligations.ResetsRunThroughTheirStages := by
  intro s began
  have hbegun {c : Instr} {src : Fin 7} (hc : exec c s = .next (s.startReset src)) (hsrc : src ≠ 2) : began c src :=
    ⟨_, hc, startReset_begun s hsrc⟩
  refine ⟨hbegun rfl (by decide), hbegun rfl (by decide), fun h => ?_, fun h => hbegun ?_ (by decide), fun h => ?_,
    fun hr hs => hbegun ?_ (by decide), fun h => congrArg Host.Outcome.next (stageEnd_idle h), exec_fuseSensingEnd, exec_nvmPulseEnd_deferred,
    fun h => congrArg Host.Outcome.next (if_pos h), fun ok h => congrArg Host.Outcome.next (stageEnd_idle h), fun ok h => ?_,
    fun h => congrArg Host.Outcome.next (stageEnd_idle h), fun h => congrArg Host.Outcome.next (stageEnd_runs h),
    fun a b h => congrArg Host.Outcome.next (stageEnd_idle h), fun a b h => ?_⟩
  · exact congrArg Host.Outcome.next (if_pos h)
  · exact congrArg Host.Outcome.next (if_neg (by rw [h]; exact Bool.false_ne_true))
  · refine congrArg Host.Outcome.next (if_neg ?_)
    rw [Bool.and_eq_true, decide_eq_true_iff]
    rintro ⟨hr, hs⟩
    exact h.elim (fun hne => hne hr) fun hf => Bool.false_ne_true (hf.symm.trans hs)
  · refine congrArg Host.Outcome.next (if_pos ?_)
    rw [Bool.and_eq_true, decide_eq_true_iff]
    exact ⟨hr, hs⟩
  · refine ⟨_, exec_optionsLoadEnd ok h, ?_⟩
    obtain ⟨hleg, hadc, hgrp⟩ := loadedWith_trims s (if ok then s.nvm.loadRecord.1 else none) s.nvm.loadRecord.2
    obtain ⟨hlc, hfuses, herase⟩ := loadedWith_nvm s (if ok then s.nvm.loadRecord.1 else none) s.nvm.loadRecord.2
    refine ⟨rfl, rfl, rfl, rfl, hlc, hfuses, rfl, rfl, rfl, rfl, fun g => ?_, fun m => ?_, fun a => ?_, herase, fun hok => ?_, fun r hok hr hpass => ?_⟩
    · rw [hgrp g]
    · rw [hleg m]
    · rw [hadc a]
    · subst hok
      refine ⟨rfl, rfl, rfl, fun m => ?_, fun a => ?_, fun g => ?_⟩
      · rw [hleg m]
        exact ⟨rfl, rfl⟩
      · rw [hadc a]
        exact ⟨rfl, rfl⟩
      · rw [hgrp g]
        rfl
    · subst hok
      simp only [if_pos, loadRecord_copyA hr hpass] at hleg hadc hgrp ⊢
      refine ⟨rfl, rfl, rfl, rfl, fun m => ?_, fun a => ?_, fun g => ?_⟩
      · rw [hleg m]
        exact ⟨rfl, rfl⟩
      · rw [hadc a]
        exact ⟨rfl, rfl⟩
      · rw [hgrp g]
        rfl
  · obtain ⟨t, ht, hstage, hchip0, hchip1, haxes, hlegs, htb, hq, hdev0, hdev1, hrest⟩ := boot_frame s a b
    refine ⟨t, (exec_ramWipeEnd a b h).trans (congrArg Host.Outcome.next ht), hstage, hchip0, hchip1, haxes, hlegs, htb, hq, ?_, ?_, hrest⟩
    · rw [hdev0]
      exact discover_dev0 _
    · rw [hdev1]
      exact discover_dev1 _

end Sys2Proof.Machine
end

section
/-! PROOF. The watchdog, the memory check and the parity check (15_reset_lifecycle.md R397; 16_integrity.md R405 to R421). -/
namespace Sys2Proof.Machine
open Sys2Proof

variable {s t u : State}

/-! ### What the cores run ends (R419) -/

/-- While dispatch is suspended: `t` is `s` but for completions that are staged, the marks of the banks, the memory and side-band ports, and
the free values taken; packets and the ring stand, and so do the axes (R419, R420). -/
structure State.CoresEnd (s t : State) : Prop where
  frame : t = { s with dev := { s.dev with free := t.dev.free }, nvm := t.nvm, q := t.q, sb := t.sb, mp := t.mp }
  packets : t.q.packets = s.q.packets
  ring : t.q.ring = s.q.ring

theorem State.CoresEnd.refl (s : State) : s.CoresEnd s := ⟨rfl, rfl, rfl⟩

theorem State.CoresEnd.trans (h : s.CoresEnd t) (k : t.CoresEnd u) : s.CoresEnd u := by
  refine ⟨?_, k.packets.trans h.packets, k.ring.trans h.ring⟩
  have hf := h.frame
  refine k.frame.trans ?_
  rw [hf]

theorem State.CoresEnd.suspended (h : s.CoresEnd t) (hs : s.dev.suspended = true) : t.dev.suspended = true := by
  rw [h.frame]
  exact hs

/-- A completion does not enter the ring while dispatch is suspended (R420). -/
theorem complete_staged (h : s.dev.suspended = true) (ref : CmdRef) (st : Status) (fl ax : Byte) (mp w : Word) :
    s.CoresEnd (s.complete ref st fl ax mp w) ∧ (s.complete ref st fl ax mp w).mp = s.mp := by
  cases ref with
  | host tag q =>
    show s.CoresEnd (s.pushEntry _) ∧ (s.pushEntry _).mp = s.mp
    unfold State.pushEntry
    rw [if_pos h]
    split <;> exact ⟨⟨rfl, rfl, rfl⟩, rfl⟩
  | sideband => exact ⟨⟨rfl, rfl, rfl⟩, rfl⟩
  | internal => exact ⟨.refl s, rfl⟩

/-- Completions staged one after another. -/
theorem forAll_staged {α : Type} {l : List α} {f : State → α → State} (h : s.dev.suspended = true)
    (hf : ∀ u a, u.dev.suspended = true → u.CoresEnd (f u a) ∧ (f u a).mp = u.mp) : s.CoresEnd (s.forAll l f) ∧ (s.forAll l f).mp = s.mp := by
  refine forAll_keeps (fun t => s.CoresEnd t ∧ t.mp = s.mp) l f ?_ s ⟨.refl s, rfl⟩
  rintro u a - ⟨hu, hmp⟩
  obtain ⟨hone, hone'⟩ := hf u a (hu.suspended h)
  exact ⟨hu.trans hone, hone'.trans hmp⟩

/-- A stream that ends leaves none (R331). -/
theorem endStream_staged (h : s.dev.suspended = true) : s.CoresEnd s.endStream ∧ s.endStream.mp.stream = none := by
  unfold State.endStream
  split
  next hnone => exact ⟨.refl s, hnone⟩
  next st _ =>
    extract_lets src s1 n s2
    have h1 : s.CoresEnd s1 := ⟨rfl, rfl, rfl⟩
    have h2 : s1.CoresEnd s2 ∧ s2.mp = s1.mp := forAll_staged h fun u a hu => complete_staged hu _ _ _ _ _ _
    have h3 := complete_staged (h2.1.suspended h) st.ref .flushed 0 0xFF s.m7pos (BitVec.ofNat 32 st.written)
    refine ⟨(h1.trans (h2.1.trans h3.1)).trans ⟨rfl, rfl, rfl⟩, ?_⟩
    exact congrArg MemPort.stream (h3.2.trans h2.2)

theorem flashWrite_coresEnd (s : State) (j : FlashJob) : s.CoresEnd (s.flashWrite j) := by cases j <;> exact ⟨rfl, rfl, rfl⟩

/-- An operation cut in a flash device (R380). -/
theorem cutFlash_coresEnd (s : State) : s.CoresEnd s.cutFlash := by
  have hfree : s.CoresEnd s.freeVal.2 := ⟨rfl, rfl, rfl⟩
  unfold State.cutFlash
  split
  · exact .refl s
  · extract_lets held
    split
    · exact flashWrite_coresEnd ..
    · simp only []
      split
      · exact hfree.trans (flashWrite_coresEnd ..)
      · exact hfree

theorem setMark_coresEnd (s : State) (b : Bool) (m : Option (List Byte × BitVec 32)) : s.CoresEnd (s.setMark b m) := ⟨rfl, rfl, rfl⟩

theorem endStage_staged (h : s.dev.suspended = true) (ref : CmdRef) (st : Status) (w : Word) : s.CoresEnd (s.endStage ref st w) := by
  have h1 : s.CoresEnd { s with mp := { s.mp with staging := false, running := none, jobs := s.mp.jobs.filter fun j => !j.isStage } } := ⟨rfl, rfl, rfl⟩
  exact h1.trans (complete_staged (h1.suspended h) ref st 0 0xFF s.m7pos w).1

/-- IDENTIFY_MOTOR no longer runs on an axis. -/
def Axis.unidentified (x : Axis) : Axis := { x with prot := { x.prot with ident := none } }

/-- IDENTIFY_MOTOR ends on every axis that runs it (R328, R419). -/
def State.identsEnd (s : State) : State := s.forAll allAxes fun s n => s.endIdent n .rejectState noField

theorem endIdent_coresEnd (h : s.dev.suspended = true) (n : AxisId) (st : Status) (w : Word) :
    ({ s with axes := (s.endIdent n st w).axes } : State).CoresEnd (s.endIdent n st w) := by
  have hframe := (endIdent_endsOn s n st w).1
  unfold State.endIdent at hframe ⊢
  split
  · exact ⟨rfl, rfl, rfl⟩
  next i hi =>
    have hc := (complete_staged (s := s.modProt n fun p => { p with ident := none }) h i.ref st 0 (axByte n) (s.axMpos n) w).1
    generalize (s.modProt n fun p => { p with ident := none }).complete i.ref st 0 (axByte n) (s.axMpos n) w = t at hc
    have haxes : t.axes = (s.modProt n fun p => { p with ident := none }).axes := (congrArg State.axes hc.frame :)
    rw [haxes]
    exact hc

theorem identsEnd_runs (h : s.dev.suspended = true) : ({ s with axes := s.identsEnd.axes } : State).CoresEnd s.identsEnd
    ∧ ∀ n, s.identsEnd.ax n = (s.ax n).unidentified := by
  refine ⟨?_, fun n => ?_⟩
  · refine forAll_keeps (fun t => ({ s with axes := t.axes } : State).CoresEnd t) allAxes (fun s n => s.endIdent n .rejectState noField) ?_ s (.refl s)
    intro t n _ ht
    have hone := endIdent_coresEnd (ht.suspended h) n .rejectState noField
    generalize t.endIdent n .rejectState noField = v at hone
    refine ⟨?_, hone.packets.trans ht.packets, hone.ring.trans ht.ring⟩
    refine hone.frame.trans ?_
    rw [ht.frame]
  · have hax := forAll_ax (List.nodup_finRange 48) (f := fun s n => s.endIdent n .rejectState noField) (F := fun _ => Axis.unidentified)
      (fun t n => congrArg State.axes (endIdent_endsOn t n .rejectState noField).1) s n
    exact hax.trans (if_pos (List.mem_finRange n))

/-- The stage of a bank that runs ends, its mark lost (R419). -/
def State.stageLost (s : State) : State :=
  match s.mp.jobs.find? FlashJob.isStage with
  | none => s
  | some j => (s.cutFlash.setMark s.inactiveBank none).endStage j.ref .rejectState noField

theorem stageLost_coresEnd (h : s.dev.suspended = true) : s.CoresEnd s.stageLost := by
  unfold State.stageLost
  split
  · exact .refl s
  next j _ =>
    have hcut := (cutFlash_coresEnd s).trans (setMark_coresEnd s.cutFlash s.inactiveBank none)
    exact hcut.trans (endStage_staged (hcut.suspended h) j.ref .rejectState noField)

/-- Who waits for a read of the memory port that loads a library (R331). -/
def FlashJob.reader : FlashJob → Option CmdRef
  | .library r _ _ _ _ _ => some r
  | _ => none

/-- The reads of libraries are dropped (R419). -/
def State.readersDropped (s : State) : State := { s with mp := { s.mp with jobs := s.mp.jobs.filter fun j => j.reader.isNone } }

/-- The stage of firmware, the reads of libraries and the stream end (R331, R419). -/
def State.portRunEnd (s : State) : State :=
  s.stageLost.readersDropped.endStream.forAll (s.stageLost.mp.jobs.filterMap FlashJob.reader) fun s r => s.complete r .flushed 0 0xFF s.m7pos 0

theorem endCoreRun_eq (s : State) : s.endCoreRun = s.identsEnd.portRunEnd := by
  have hdrop : (fun (j : FlashJob) => match j with
      | .library _ _ _ _ _ _ => false
      | _ => true) = fun j => j.reader.isNone := by
    funext j
    cases j <;> rfl
  unfold State.endCoreRun State.portRunEnd State.readersDropped State.identsEnd
  rw [← hdrop]
  generalize s.forAll allAxes (fun s n => s.endIdent n .rejectState noField) = t
  rfl

theorem portRunEnd_coresEnd (h : s.dev.suspended = true) : s.CoresEnd s.portRunEnd ∧ s.portRunEnd.mp.stream = none := by
  have hstage := stageLost_coresEnd h
  have hdrop : s.stageLost.CoresEnd s.stageLost.readersDropped := ⟨rfl, rfl, rfl⟩
  have hsusp := hdrop.suspended (hstage.suspended h)
  obtain ⟨hstream, hnone⟩ := endStream_staged hsusp
  obtain ⟨hdone, hmp⟩ := forAll_staged (l := s.stageLost.mp.jobs.filterMap FlashJob.reader)
    (f := fun s r => s.complete r .flushed 0 0xFF s.m7pos 0) (hstream.suspended hsusp) fun u r hu => complete_staged hu r _ _ _ _ _
  exact ⟨((hstage.trans hdrop).trans hstream).trans hdone, (congrArg MemPort.stream hmp).trans hnone⟩

/-- What only a core runs has ended: no axis identifies and no library streams (R419). -/
theorem endCoreRun_runs (h : s.dev.suspended = true) : ∃ t, s.endCoreRun = t ∧ ({ s with axes := t.axes } : State).CoresEnd t
    ∧ (∀ n, t.ax n = (s.ax n).unidentified) ∧ t.mp.stream = none := by
  obtain ⟨v, hv, hident, hax⟩ : ∃ v, s.identsEnd = v ∧ ({ s with axes := v.axes } : State).CoresEnd v ∧ ∀ n, v.ax n = (s.ax n).unidentified :=
    ⟨_, rfl, identsEnd_runs h⟩
  obtain ⟨hport, hnone⟩ := portRunEnd_coresEnd (hident.suspended h)
  refine ⟨v.portRunEnd, (endCoreRun_eq s).trans (congrArg State.portRunEnd hv), ?_⟩
  generalize v.portRunEnd = t at hport hnone
  have haxes : t.axes = v.axes := (congrArg State.axes hport.frame :)
  refine ⟨?_, fun n => ?_, hnone⟩
  · rw [haxes]
    exact hident.trans hport
  · rw [← hax n]
    exact congrArg (fun v : Vector Axis 48 => v[n.val]) haxes

/-! ### The restart (R397, R418, R419) -/

/-- Packets the cores held return untaken (R419). -/
def State.coresReturned (s : State) : State := { s with
  dev := { s.dev with suspended := true, restarts := if s.dev.restarts = 0xFF then 0xFF else s.dev.restarts + 1 }
  q := { s.q with packets := s.q.packets.map fun p => { p with core := none, verdict := none } } }

/-- What a restart leaves: `t` is `s` but for the Shale queue, what the cores return and what they end (R419). -/
theorem restart_runs (s : State) : ∃ t, s.restart = t ∧ ({ s.coresReturned.logs t with axes := t.axes } : State).CoresEnd t
    ∧ (∀ n, t.ax n = (s.ax n).unidentified) ∧ t.mp.stream = none := by
  have hshale : s.coresReturned.shale 6 0x20 255 (Config.shaleData 6) = s.coresReturned.logs (s.coresReturned.shale 6 0x20 255 (Config.shaleData 6)) :=
    shale_frame ..
  have hrun : s.restart = (s.coresReturned.shale 6 0x20 255 (Config.shaleData 6)).endCoreRun := rfl
  generalize s.coresReturned.shale 6 0x20 255 (Config.shaleData 6) = u at hshale hrun
  have hsusp : u.dev.suspended = true := by
    rw [hshale]
    rfl
  obtain ⟨t, ht, hend, hax, hnone⟩ := endCoreRun_runs hsusp
  refine ⟨t, hrun.trans ht, ?_, fun n => ?_, hnone⟩
  · have hlogs : s.coresReturned.logs t = u := by
      have hpend : t.dev.shalePend = u.dev.shalePend := (congrArg (fun v : State => v.dev.shalePend) hend.frame :)
      have hdropped : t.dev.shaleDropped = u.dev.shaleDropped := (congrArg (fun v : State => v.dev.shaleDropped) hend.frame :)
      unfold State.logs at hshale ⊢
      rw [hpend, hdropped]
      exact hshale.symm
    rw [hlogs]
    exact hend
  · rw [hax n, hshale]
    rfl

theorem exec_watchdogFirstStage (hr : s.dev.stage = .running) (hw : s.dev.wdSuspended = false) : ∃ t, exec .watchdogFirstStage s = .next t
    ∧ t.dev.suspended = true ∧ t.dev.restarts = (if s.dev.restarts = 0xFF then 0xFF else s.dev.restarts + 1)
    ∧ (∀ p ∈ t.q.packets, p.core = none ∧ p.verdict = none) ∧ t.q.packets.map (·.bytes) = s.q.packets.map (·.bytes)
    ∧ t.q.ring = s.q.ring ∧ t.mp.stream = none ∧ (∀ n, (t.ax n).prot.ident = none)
    ∧ (∀ n, (t.ax n).mot = (s.ax n).mot ∧ (t.ax n).drv = (s.ax n).drv ∧ (t.ax n).cfg = (s.ax n).cfg)
    ∧ t.legs = s.legs ∧ t.groups = s.groups ∧ t.tb = s.tb ∧ t.hp = s.hp ∧ t.pins = s.pins := by
  obtain ⟨t, ht, ⟨hframe, hpackets, hring⟩, hax, hnone⟩ := restart_runs s
  have hif : (decide (s.dev.stage = .running) && !s.dev.wdSuspended) = true := by
    rw [hw, decide_eq_true hr]
    rfl
  refine ⟨t, congrArg Host.Outcome.next ((if_pos hif).trans ht), ?_, ?_, fun p hp => ?_, ?_, hring, hnone, fun n => ?_, fun n => ?_, ?_, ?_, ?_, ?_, ?_⟩
  · rw [hframe]
    rfl
  · rw [hframe]
    rfl
  · rw [hpackets] at hp
    obtain ⟨o, -, rfl⟩ := List.mem_map.1 hp
    exact ⟨rfl, rfl⟩
  · rw [hpackets]
    exact List.map_map ..
  · rw [hax n]
    rfl
  · rw [hax n]
    exact ⟨rfl, rfl, rfl⟩
  all_goals rw [hframe]; rfl

theorem exec_dispatchResume (hs : s.dev.suspended = true) (hsw : s.mp.switching = false) (hw : s.sb.waiting = []) :
    exec .dispatchResume s = .next { s with
      dev := { s.dev with suspended := false, wdSuspended := false }
      q := ({ s.q with ring := s.q.ring ++ s.q.staged, staged := [] } : Queues).request } := by
  have hif : (s.dev.suspended && !s.mp.switching) = true := by
    rw [hs, hsw]
    rfl
  refine congrArg Host.Outcome.next ((if_pos hif).trans (sbDrain_idle (.inl ?_)))
  exact hw

end Sys2Proof.Machine
end

section
/-! PROOF. The memory check and the parity check (16_integrity.md R405 to R415). -/
namespace Sys2Proof.Machine
open Sys2Proof

variable {s : State} {w : Fin 98304}

/-! ### Memory errors (R406 to R413) -/

theorem exec_sramScrub_idle (r : SramRegion) (h : s.dev.stage ≠ .running ∨ w ∈ s.dev.sramSeen) : exec (.sramScrub r w) s = .next s := by
  refine congrArg Host.Outcome.next (if_neg ?_)
  simp only [Bool.and_eq_true, decide_eq_true_iff, Bool.not_eq_true', List.contains_eq_mem, decide_eq_false_iff_not]
  exact fun ⟨hr, hw⟩ => h.elim (fun hne => hne hr) hw

theorem exec_sramScrub (r : SramRegion) (hr : s.dev.stage = .running) (hw : w ∉ s.dev.sramSeen) : exec (.sramScrub r w) s = .next (s.scrub r w) := by
  refine congrArg Host.Outcome.next (if_pos ?_)
  simp only [Bool.and_eq_true, decide_eq_true_iff, Bool.not_eq_true', List.contains_eq_mem, decide_eq_false_iff_not]
  exact ⟨hr, hw⟩

/-- An error is counted, and logged (R407, R424). -/
theorem sramError_counted (s : State) (code : Byte) (src : Nat) (w : Fin 98304) : s.sramError code src w = { s.logs (s.sramError code src w) with
    dev := { (s.logs (s.sramError code src w)).dev with
      sramErr := (if s.dev.sramErr = 0xFFFF then 0xFFFF else s.dev.sramErr + 1)
      sramSeen := w :: s.dev.sramSeen } } := shale_frame ..

/-- The same over a state in which what the error hit is marked. -/
theorem exec_sramScrub_counted {r : SramRegion} {u : State} {code : Byte} {src : Nat} (hr : s.dev.stage = .running) (hw : w ∉ s.dev.sramSeen)
    (hrun : s.scrub r w = u.sramError code src w) : ∃ t, exec (.sramScrub r w) s = .next t ∧ t = { u.logs t with
      dev := { (u.logs t).dev with sramErr := (if u.dev.sramErr = 0xFFFF then 0xFFFF else u.dev.sramErr + 1), sramSeen := w :: u.dev.sramSeen } } :=
  ⟨_, (exec_sramScrub r hr hw).trans (congrArg Host.Outcome.next hrun), sramError_counted ..⟩

section
variable {i : Fin 4}

/-- An entry of a default table is made anew (R408). -/
theorem scrub_defaultTable (e : Fin 1024) (h : s.tables[i.val].custom = none) :
    s.scrub (.microstepTable i e) w = s.sramError (Config.integrityCode 2) 255 w := by
  show s.tableError i e.val w = _
  unfold State.tableError
  simp only [Fin.getElem_fin, h]

/-- A custom table that is stored nowhere is invalid (R410). -/
theorem scrub_lostTable (e : Fin 1024) (h : s.tables[i.val].custom.isSome = true) (hf : s.tables[i.val].faddr = none) :
    s.scrub (.microstepTable i e) w = (s.modTable i fun x => { x with invalid := true }).sramError 0x14 255 w := by
  obtain ⟨c, hc⟩ := Option.isSome_iff_exists.1 h
  show s.tableError i e.val w = _
  unfold State.tableError
  simp only [Fin.getElem_fin, hc, hf]

/-- A custom table that is stored reloads (R408, R410). -/
theorem scrub_storedTable (e : Fin 1024) (h : s.tables[i.val].custom.isSome = true) (hf : s.tables[i.val].faddr.isSome = true)
    (hv : s.tables[i.val].invalid = false) : s.scrub (.microstepTable i e) w =
      (s.modTable i fun x => { x with reloading := true, badEntries := e.val :: x.badEntries }).sramError 0x14 255 w := by
  obtain ⟨c, hc⟩ := Option.isSome_iff_exists.1 h
  obtain ⟨a, ha⟩ := Option.isSome_iff_exists.1 hf
  show s.tableError i e.val w = _
  unfold State.tableError
  simp only [Fin.getElem_fin, hc, ha]
  refine congrArg (fun v => State.sramError { s with tables := v } 0x14 255 w) (upd_congr _ _ _ _ ?_)
  rw [hv]
  rfl

end

/-- The descriptor that failed is marked, and the position is unsure (R239, R411). -/
def State.lostNoted (s : State) (n : AxisId) (k : Nat) : State := (s.freeVal.2.modMot n fun a => a.markLost k).setUnsure n

theorem lostNoted_other (s : State) (n k : AxisId) (i : Nat) (h : k ≠ n) : (s.lostNoted n i).ax k = s.ax k := by
  unfold State.lostNoted
  rw [setUnsure_axes]
  exact (upd_other _ _ _ _ h).trans (upd_other _ _ _ _ h)

theorem sramError_ax (s : State) (code : Byte) (src : Nat) (w : Fin 98304) (n : AxisId) : (s.sramError code src w).ax n = s.ax n :=
  (congrArg (fun v : State => v.ax n) (sramError_counted s code src w) :)

/-- An axis whose descriptor and profile cache have failed is turned off, and no other changes (R411). -/
theorem descriptorError_off (n : AxisId) (h : (s.ax n).mot.runs ≠ [] ∨ (s.ax n).mot.queue ≠ []) : ∃ t, s.descriptorError n true w = t
    ∧ (t.ax n).drv.enabled = false ∧ (t.ax n).mot.runs = [] ∧ (t.ax n).mot.queue = [] ∧ ∀ k, k ≠ n → t.ax k = s.ax k := by
  have hif : ¬ ((s.ax n).mot.runs.isEmpty && (s.ax n).mot.queue.isEmpty) = true := by
    rw [Bool.and_eq_true, List.isEmpty_iff, List.isEmpty_iff]
    exact fun ⟨h1, h2⟩ => h.elim (fun hne => hne h1) fun hne => hne h2
  have hrun : ∃ i, s.descriptorError n true w = ((s.sramError 0x13 n.val w).lostNoted n i).turnOff n .integrityLost 0x13 := by
    unfold State.descriptorError State.lostNoted
    generalize s.sramError 0x13 n.val w = u
    rw [if_neg hif]
    simp only [if_true]
    exact ⟨_, rfl⟩
  obtain ⟨i, hrun⟩ := hrun
  refine ⟨_, hrun, ?_⟩
  rw [turnOff_ax]
  refine ⟨rfl, rfl, rfl, fun k hk => ?_⟩
  rw [turnOff_ax_other _ _ _ _ _ hk, lostNoted_other _ _ _ _ hk, sramError_ax]

theorem scrub_firmware_restored (l : Bool) : s.scrub (.firmwareData false l) w = s.sramError 0x15 255 w := rfl

/-- A tag that nothing names is lost, with an entry of its own (R413). -/
def State.tagLeft (s : State) : State :=
  ({ s with dev := { s.dev with tagLost := true } } : State).pushEntry ⟨0, .integrityLost, 0, 0xFF, 0, s.m7pos, 0x15, false⟩

theorem tagLeft_dev (s : State) : s.tagLeft.dev = { s.dev with tagLost := true } := by
  unfold State.tagLeft
  rw [pushEntry_frame]

/-- Firmware data that both copies lost: the cores restart, and a tag that nothing names is lost (R413). -/
theorem scrub_firmware_lost (l : Bool) : ∃ t, s.scrub (.firmwareData true l) w = t ∧ t.dev.suspended = true ∧ t.dev.tagLost = (s.dev.tagLost || l) := by
  obtain ⟨t, ht, hend, -⟩ := restart_runs (s.sramError 0x15 255 w)
  have hsusp : t.dev.suspended = true := (congrArg (fun v : State => v.dev.suspended) hend.frame :)
  have hlost : t.dev.tagLost = s.dev.tagLost :=
    (congrArg (fun v : State => v.dev.tagLost) hend.frame :).trans (congrArg (fun v : State => v.dev.tagLost) (sramError_counted s 0x15 255 w) :)
  cases l with
  | false => exact ⟨t, ht, hsusp, hlost.trans (Bool.or_false _).symm⟩
  | true =>
    have hrun : s.scrub (.firmwareData true true) w = (s.sramError 0x15 255 w).restart.tagLeft := by
      show s.firmwareError true true w = _
      unfold State.firmwareError State.tagLeft
      simp only [Bool.not_true, if_true, if_neg Bool.false_ne_true]
    refine ⟨_, hrun.trans (congrArg State.tagLeft ht), ?_, ?_⟩
    · rw [tagLeft_dev]
      exact hsusp
    · rw [tagLeft_dev, Bool.or_true]

/-! ### Parity (R414, R415) -/

theorem exec_parityScrub (page : BitVec 4) (w : BitVec 8) (bad : Bool) (hr : s.dev.stage = .running) :
    exec (.parityScrub page w bad) s = .next (s.parityScrub page w bad) := congrArg Host.Outcome.next (if_pos hr)

theorem exec_parityScrub_group {page : BitVec 4} {w : BitVec 8} (bad : Bool) (hr : s.dev.stage = .running) (hp : 4 ≤ page.toNat)
    (hg : guardedGroup w.toNat = true) : ∃ t, exec (.parityScrub page w bad) s = .next t
    ∧ t = { s.logs t with dev := { s.dev with
        parPage := page, parWord := w, parValid := true
        shalePend := t.dev.shalePend, shaleDropped := t.dev.shaleDropped
        parityBad := (page.toNat, w.toNat) :: s.dev.parityBad.filter (· ≠ (page.toNat, w.toNat))
        parityPend := s.dev.parityPend ++ [(page.toNat, w.toNat, false)] } } := by
  refine ⟨s.parityGroup page w, (exec_parityScrub page w bad hr).trans (congrArg Host.Outcome.next ?_), shale_frame ..⟩
  exact (if_neg (by omega)).trans (if_pos hg)

/-- Settles O57: a restart is an invariant of what ends while dispatch is suspended, an error of a word one count over the state it marks. That
a global mismatch waits for the next boundary is log 66, and that the word index comes with the row is log 119. -/
theorem integrityChecksMarkWhatFailed : Obligations.IntegrityChecksMarkWhatFailed := by
  intro s
  refine ⟨fun h => ?_, exec_watchdogFirstStage, fun h => ?_, exec_dispatchResume, fun r w => exec_sramScrub_idle r, fun w => ?_, fun w hr hw => ?_,
    fun page w bad => ⟨fun h => congrArg Host.Outcome.next (if_neg h), exec_parityScrub_group bad, fun hr hp hg => ?_⟩⟩
  · refine congrArg Host.Outcome.next (if_neg ?_)
    rw [Bool.and_eq_true, decide_eq_true_iff, Bool.not_eq_true']
    exact fun ⟨hr, hw⟩ => h.elim (fun hne => hne hr) fun ht => Bool.false_ne_true (hw.symm.trans ht)
  · refine congrArg Host.Outcome.next (if_neg ?_)
    rw [Bool.and_eq_true, Bool.not_eq_true']
    exact fun ⟨hs, hw⟩ => h.elim (fun hf => Bool.false_ne_true (hf.symm.trans hs)) fun ht => Bool.false_ne_true (hw.symm.trans ht)
  · exact congrArg Host.Outcome.next (ite_self s)
  · refine ⟨?_, fun i e => ⟨fun hc => ?_, fun hc hf => ?_, fun hc hf hv => ?_⟩, fun tag htag => ?_, fun i hi => ?_, fun n c hruns hqueue => ?_,
      fun n h => ?_, fun l => ?_, fun l => ?_⟩
    · rintro r (⟨n, rfl⟩ | rfl)
      · exact exec_sramScrub_counted hr hw rfl
      · exact exec_sramScrub_counted hr hw rfl
    · exact exec_sramScrub_counted hr hw (scrub_defaultTable e hc)
    · exact exec_sramScrub_counted (u := s.modTable i fun x => { x with invalid := true }) hr hw (scrub_lostTable e hc hf)
    · exact exec_sramScrub_counted (u := s.modTable i fun x => { x with reloading := true, badEntries := e.val :: x.badEntries }) hr hw
        (scrub_storedTable e hc hf hv)
    · exact exec_sramScrub_counted (u := { s with q := { s.q with packets := s.q.packets.map fun p => if p.tag = tag then { p with bad := true } else p } })
        hr hw (if_pos (by simpa using htag))
    · exact exec_sramScrub_counted (u := { s with q := { s.q with ring := s.q.ring.modify i fun c => { c with bad := true } } }) hr hw (if_pos hi)
    · refine (exec_sramScrub _ hr hw).trans (congrArg Host.Outcome.next (if_pos ?_))
      rw [hruns, hqueue]
      rfl
    · obtain ⟨t, ht, hoff⟩ := descriptorError_off (w := w) n h
      exact ⟨t, (exec_sramScrub _ hr hw).trans (congrArg Host.Outcome.next ht), hoff⟩
    · exact exec_sramScrub_counted hr hw (scrub_firmware_restored l)
    · obtain ⟨t, ht, hlost⟩ := scrub_firmware_lost (s := s) (w := w) l
      exact ⟨t, (exec_sramScrub _ hr hw).trans (congrArg Host.Outcome.next ht), hlost⟩
  · exact (exec_parityScrub page w bad hr).trans (congrArg Host.Outcome.next ((if_pos hp).trans (if_pos hg)))

end Sys2Proof.Machine
end

section
/-! PROOF. The side-band port: its power states, its alerts, and what its read commands return (13_sideband.md R340 to R354). -/
namespace Sys2Proof.Machine
open Sys2Proof

variable {s : State}

/-! ### Power states and the bus (R340 to R344, R347, R353, R354) -/

theorem sbWoken_eq (s : State) : s.sbWoken = { s with sb := { s.sb with
    pecUse := s.sb.pecReq, amaskUse := s.sb.amask, hsilUse := s.sb.hsil
    power := if s.sb.power = .standby then .awake else s.sb.power } } := by
  by_cases h : s.sb.power = .standby
  · simp only [if_pos h]
    exact if_pos h
  · simp only [if_neg h]
    exact if_neg h

theorem exec_sbAwakeTimeout (s : State) : exec .sbAwakeTimeout s = .next { s with sb := { s.sb with
    power := if s.sb.power = .awake then .standby else s.sb.power } } := by
  by_cases h : s.sb.power = .awake
  · simp only [if_pos h]
    exact congrArg Host.Outcome.next (if_pos h)
  · simp only [if_neg h]
    exact congrArg Host.Outcome.next (if_neg h)

/-- The module answers from the end of the options load on (R276). -/
theorem portUp_iff (s : State) : s.portUp = true ↔ s.dev.stage = .nrstWait ∨ s.dev.stage = .ramWipe ∨ s.dev.stage = .running := by
  unfold State.portUp
  cases s.dev.stage <;> simp

theorem exec_sbVddValid (s : State) : exec .sbVddValid s = .next { s with
    sb := { s.sb with
      vdd := true, power := if s.dev.stage = .nrstWait ∨ s.dev.stage = .ramWipe ∨ s.dev.stage = .running then .active else s.sb.power }
    nvm := { s.nvm with pulse := if s.dev.stage = .running then s.dev.optWrite.isSome || s.dev.fuseSeq.isSome else s.nvm.pulse } } := by
  simp only [← portUp_iff]
  by_cases h : s.dev.stage = .running
  · simp only [if_pos h]
    exact congrArg Host.Outcome.next ((if_pos h).trans rfl)
  · simp only [if_neg h]
    exact congrArg Host.Outcome.next (if_neg h)

/-! ### Errors of a transaction (R347) -/

theorem exec_sbTransactionError_refused {e : SbError} {r : Byte} (h : s.sbWoken.sbErrorCode e = some r) :
    exec (.sbTransactionError e) s = .next (s.sbRefused r) := by
  show Host.Outcome.next _ = _
  rw [h]
  rfl

theorem exec_sbTransactionError_none {e : SbError} (h : s.sbWoken.sbErrorCode e = none) : exec (.sbTransactionError e) s = .next s.sbWoken := by
  show Host.Outcome.next _ = _
  rw [h]

theorem exec_badCommand (code : Byte) : exec (.sbTransactionError (.badCommand code)) s =
    .next (if sbForm code = none then s.sbRefused 0x83 else s.sbWoken) := by
  by_cases h : sbForm code = none
  · rw [if_pos h]
    exact exec_sbTransactionError_refused (if_pos (Option.isNone_iff_eq_none.2 h))
  · rw [if_neg h]
    exact exec_sbTransactionError_none (if_neg fun hn => h (Option.isNone_iff_eq_none.1 hn))

theorem exec_shortWrite {code : Byte} {f : SbForm} (k : Nat) (hf : sbForm code = some f) : exec (.sbTransactionError (.short code k)) s =
    .next (if f.write = true ∧ k < f.args then s.sbRefused 0x82 else s.sbWoken) := by
  have hcode : s.sbWoken.sbErrorCode (.short code k) = if f.write && k < f.args then some 0x82 else none := by
    unfold State.sbErrorCode
    simp only [hf]
  by_cases h : f.write = true ∧ k < f.args
  · rw [if_pos h]
    exact exec_sbTransactionError_refused (hcode.trans (if_pos (by simpa using h)))
  · rw [if_neg h]
    exact exec_sbTransactionError_none (hcode.trans (if_neg (by simpa using h)))

theorem exec_missingPec : exec (.sbTransactionError .missingPec) s = .next (if s.sb.pecReq = true then s.sbRefused 0x81 else s.sbWoken) := by
  have hcode : s.sbWoken.sbErrorCode .missingPec = if s.sb.pecReq then some 0x81 else none := by
    rw [sbWoken_eq]
    rfl
  by_cases h : s.sb.pecReq = true
  · rw [if_pos h]
    exact exec_sbTransactionError_refused (hcode.trans (if_pos h))
  · rw [if_neg h]
    exact exec_sbTransactionError_none (hcode.trans (if_neg h))

/-! ### Alerts (R353, R354) -/

theorem exec_alertResponse_silent (won : Bool) (h : s.sb.causes &&& s.sb.amask &&& ~~~s.sb.announced = 0) :
    exec (.alertResponse won) s = .next s.sbSettings := by
  refine congrArg Host.Outcome.next (if_neg ?_)
  show ¬ decide (s.sb.causes &&& s.sb.amask &&& ~~~s.sb.announced ≠ 0) = true
  rw [decide_eq_true_iff]
  exact fun hne => hne h

theorem exec_alertResponse_low (won : Bool) (h : s.sb.causes &&& s.sb.amask &&& ~~~s.sb.announced ≠ 0) :
    exec (.alertResponse won) s = .next { s.sbSettings with sb := { s.sbSettings.sb with
      dataOut := [s.sb.addr.setWidth 8 <<< 1], announced := if won then s.sb.causes else s.sb.announced } } :=
  congrArg Host.Outcome.next (if_pos (decide_eq_true h))

theorem exec_hostSilent_idle (h : s.sb.hsilUse = 0 ∨ s.dev.ready = false) : exec .hostSilent s = .next s := by
  refine congrArg Host.Outcome.next (if_neg ?_)
  rw [Bool.and_eq_true, decide_eq_true_iff]
  exact fun ⟨hne, hr⟩ => h.elim (fun h0 => hne h0) fun hf => Bool.false_ne_true (hf.symm.trans hr)

theorem exec_hostSilent_alert (h : s.sb.hsilUse ≠ 0) (hr : s.dev.ready = true) : exec .hostSilent s = .next { s with sb := { s.sb with
    causes := s.sb.causes ||| 8, announced := s.sb.announced &&& ~~~8 } } := by
  refine congrArg Host.Outcome.next (if_pos ?_)
  rw [hr, decide_eq_true h]
  rfl

/-! ### Read commands (R345, R346, R348 to R352) -/

/-- What a read command with its command byte and arguments returns: count, bytes and PEC (R346). -/
def SideBand.returned (b : SideBand) (code : Byte) (args l : List Byte) : List Byte :=
  (BitVec.ofNat 8 l.length :: l) ++ [crc8Smbus ((b.addr.setWidth 8 <<< 1) :: code :: args ++ ((b.addr.setWidth 8 <<< 1) ||| 1) :: BitVec.ofNat 8 l.length :: l)]

/-- The port has been woken, and returns bytes. -/
def State.sbOut (s : State) (code : Byte) (args l : List Byte) : State :=
  { s.sbWoken with sb := { s.sbWoken.sb with dataOut := s.sb.returned code args l } }

/-- Waking the port keeps all but its settings in use and its power state. -/
theorem sbWoken_addr (s : State) : s.sbWoken.sb.addr = s.sb.addr := by rw [sbWoken_eq]

theorem answer_returned (s : State) (code : Byte) (args l : List Byte) : s.sbWoken.sb.answer code args l = s.sb.returned code args l := by
  unfold SideBand.answer SideBand.head SideBand.returned
  rw [sbWoken_addr]
  simp only [List.cons_append, List.nil_append, List.append_assoc]

theorem sbReturn_out (s : State) (code : Byte) (args l : List Byte) : s.sbWoken.sbReturn code args l = s.sbOut code args l := by
  unfold State.sbReturn State.sbOut
  rw [answer_returned]

/-- A read command that may not act returns no byte (R345, R347). -/
theorem sbRead_shut {code r : Byte} {body : State → List Byte × State} (h : s.sbWoken.sbGate code = some r) (args : List Byte) :
    s.sbRead code args body = s.sbOut code args [] := by
  unfold State.sbRead
  simp only [h]
  exact sbReturn_out ..

/-- A read command that acts returns the bytes of its body, over the state the body leaves (R346). -/
theorem sbRead_open {code : Byte} {body : State → List Byte × State} (h : s.sbWoken.sbGate code = none) (args : List Byte) :
    s.sbRead code args body = { (body s.sbWoken).2 with sb := { (body s.sbWoken).2.sb with
      dataOut := s.sb.returned code args (body s.sbWoken).1 } } := by
  unfold State.sbRead
  simp only [h, answer_returned]

/-- A read command whose body changes nothing. -/
theorem sbRead_returns {code : Byte} {body : State → List Byte × State} {l : List Byte} (h : s.sbWoken.sbGate code = none) (args : List Byte)
    (hb : body s.sbWoken = (l, s.sbWoken)) : s.sbRead code args body = s.sbOut code args l := by
  rw [sbRead_open h, hb]
  rfl

/-- Neither READY nor the supply of the module is asked of a command that acts without VDD (R345). -/
theorem sbGate_vsb {code : Byte} {f : SbForm} (hf : sbForm code = some f) (hv : f.vsb = true) (hl : s.nvm.lc ≠ .retired) :
    s.sbWoken.sbGate code = none := by
  rw [sbWoken_eq]
  refine (if_neg hl).trans (if_pos ?_)
  rw [hf]
  exact hv

/-- A retired module answers no command but two (R345). -/
theorem sbGate_retired (code : Byte) (hl : s.nvm.lc = .retired) : s.sbWoken.sbGate code = some Status.rejectState.code := by
  rw [sbWoken_eq]
  exact if_pos hl

/-- The port wakes ACTIVE only where it was (R343). -/
theorem sbWoken_active (s : State) : s.sbWoken.sb.power = .active ↔ s.sb.power = .active := by
  rw [sbWoken_eq]
  cases s.sb.power <;> simp

/-- A command that needs VDD acts where the port is ACTIVE and the module READY (R345). -/
theorem sbGate_open {code : Byte} {f : SbForm} (hf : sbForm code = some f) (hv : f.vsb = false) (hl : s.nvm.lc ≠ .retired)
    (hp : s.sb.power = .active) (hr : s.dev.ready = true) : s.sbWoken.sbGate code = none := by
  have hlc : s.sbWoken.nvm.lc ≠ .retired := by
    rw [sbWoken_eq]
    exact hl
  have hready : s.sbWoken.dev.ready = true := by
    rw [sbWoken_eq]
    exact hr
  unfold State.sbGate
  rw [if_neg hlc, hf, if_neg (by simp [hv]), if_neg (fun hne => hne ((sbWoken_active s).2 hp)), if_neg (by simp [hready])]

theorem sbGate_closed {code : Byte} {f : SbForm} (hf : sbForm code = some f) (hv : f.vsb = false)
    (h : s.nvm.lc = .retired ∨ s.sb.power ≠ .active ∨ s.dev.ready = false) : ∃ r, s.sbWoken.sbGate code = some r := by
  by_cases hl : s.nvm.lc = .retired
  · exact ⟨_, sbGate_retired code hl⟩
  · have hlc : s.sbWoken.nvm.lc ≠ .retired := by
      rw [sbWoken_eq]
      exact hl
    have hready : s.sbWoken.dev.ready = s.dev.ready := by rw [sbWoken_eq]
    unfold State.sbGate
    rw [if_neg hlc, hf, if_neg (by simp [hv])]
    by_cases hp : s.sb.power = .active
    · have hr : s.dev.ready = false := (h.resolve_left hl).resolve_left (fun hne => hne hp)
      refine ⟨0x85, (if_neg fun hne => hne ((sbWoken_active s).2 hp)).trans (if_pos ?_)⟩
      rw [hready, hr]
      rfl
    · exact ⟨0x84, if_pos fun ha => hp ((sbWoken_active s).1 ha)⟩

/-! ### Each read command (R348, R349, R351, R352) -/

/-- ID_STEP in the bytes of IDENTITY (R2, R348). -/
theorem idStep_bytes (s : State) : wordBytes s.idStep = [s.dev.step.setWidth 8, 0x43, 0, 0] := by
  unfold State.idStep
  generalize s.dev.step = x
  revert x
  decide

theorem exec_identity (s : State) : exec .identity s = .next (s.sbOut 0x01 [] (wordBytes 0x00004896 ++ [s.dev.step.setWidth 8, 0x43, 0, 0] ++
    [optByte s.sbWoken.sbOptions 8, s.sb.addr.setWidth 8])) := by
  have hstep : wordBytes s.sbWoken.idStep = [s.dev.step.setWidth 8, 0x43, 0, 0] := by
    rw [idStep_bytes, sbWoken_eq]
  refine congrArg Host.Outcome.next ((sbReturn_out ..).trans ?_)
  rw [hstep, sbWoken_addr]

theorem exec_lcQuery (s : State) : exec .lcQuery s = .next (s.sbOut 0x02 [] [BitVec.ofNat 8 (lcCode s.nvm.lc),
    BitVec.ofNat 8 (sbPowerCode s.sbWoken.sb.power)]) := by
  have hlc : s.sbWoken.nvm.lc = s.nvm.lc := by rw [sbWoken_eq]
  rw [← hlc]
  exact congrArg Host.Outcome.next (sbReturn_out ..)

theorem exec_status (hl : s.nvm.lc ≠ .retired) : exec .status s = .next { s.sbOut 0x04 [] s.sbWoken.sbStatus with
    sb := { (s.sbOut 0x04 [] s.sbWoken.sbStatus).sb with regErr := 0, causes := 0, announced := 0 } } :=
  congrArg Host.Outcome.next (sbRead_open (sbGate_vsb rfl rfl hl) _)

theorem exec_shaleRead (i : BitVec 16) (hl : s.nvm.lc ≠ .retired) : exec (.shaleRead i) s =
    .next (s.sbOut 0x08 (leBytes 2 i.toNat) ((s.shaleValid[i.toNat]?.map ShaleEntry.bytes).getD (List.replicate 16 0))) := by
  refine congrArg Host.Outcome.next (sbRead_returns (sbGate_vsb rfl rfl hl) _ ?_)
  rw [show s.sbWoken.shaleValid = s.shaleValid by rw [sbWoken_eq]; rfl]

/-- The module may act on the commands that need it: it is not RETIRED, the port is ACTIVE and the module READY (R345). -/
structure State.SbActs (s : State) : Prop where
  life : s.nvm.lc ≠ .retired
  power : s.sb.power = .active
  ready : s.dev.ready = true

theorem sbActs_of_not_shut (h : ¬ (s.nvm.lc = .retired ∨ s.sb.power ≠ .active ∨ s.dev.ready = false)) : s.SbActs := by
  rw [not_or, not_or, not_not] at h
  exact ⟨h.1, h.2.1, Bool.not_eq_false _ ▸ h.2.2⟩

theorem exec_regRead (ha : s.SbActs) (p w : Byte) (hp : p.toNat < 16) : ∃ t, exec (.regRead p w) s = .next t
    ∧ t.sb.dataOut = s.sb.returned 0x10 [p, w] (wordBytes (s.sbWoken.regRead .sideband p.toNat w.toNat).1) := by
  refine ⟨_, congrArg Host.Outcome.next (sbRead_open (sbGate_open rfl rfl ha.life ha.power ha.ready) _), ?_⟩
  show s.sb.returned 0x10 [p, w] _ = _
  rw [if_pos hp]

theorem exec_regRead_noPage (ha : s.SbActs) (p w : Byte) (hp : 16 ≤ p.toNat) : ∃ t, exec (.regRead p w) s = .next t
    ∧ t.sb.dataOut = s.sb.returned 0x10 [p, w] [] := by
  refine ⟨_, congrArg Host.Outcome.next (sbRead_open (sbGate_open rfl rfl ha.life ha.power ha.ready) _), ?_⟩
  show s.sb.returned 0x10 [p, w] _ = _
  rw [if_neg (by omega)]

theorem exec_envRead_group (ha : s.SbActs) (a : Byte) (g : GroupId) (hg : a.toNat = g.val) : exec (.envRead a) s = .next (s.sbOut 0x18 [a]
    (leBytes 2 (s.grp g).temp.toNat ++ leBytes 4 (s.grp g).vm.toNat ++ leBytes 2 (s.grp g).stat.toNat)) := by
  have hlt : a.toNat < 12 := hg ▸ g.isLt
  have hidx : (⟨a.toNat, hlt⟩ : GroupId) = g := Fin.ext hg
  refine congrArg Host.Outcome.next (sbRead_returns (sbGate_open rfl rfl ha.life ha.power ha.ready) _ ((dif_pos hlt).trans ?_))
  rw [hidx, show s.sbWoken.grp g = s.grp g by rw [sbWoken_eq]; rfl]

theorem exec_envRead_module (ha : s.SbActs) : ∃ vd vs : BitVec 16, exec (.envRead 12) s = .next { s.sbOut 0x18 [12]
    (leBytes 2 s.dev.tbase.toNat ++ leBytes 2 vd.toNat ++ leBytes 2 vs.toNat ++ [0, 0]) with
      dev := { s.dev with free := s.dev.free + 1 } } := by
  have hdev : s.sbWoken.dev = s.dev := by rw [sbWoken_eq]
  refine ⟨Config.vddMillivolt s.dev.free, Config.vsbMillivolt s.dev.free,
    congrArg Host.Outcome.next ((sbRead_open (sbGate_open rfl rfl ha.life ha.power ha.ready) _).trans ?_)⟩
  simp only [show ¬ (12 : Byte).toNat < 12 by decide, dif_neg, not_false_eq_true, if_true, hdev]
  rfl

theorem exec_envRead_none (ha : s.SbActs) (a : Byte) (h : 12 < a.toNat) : exec (.envRead a) s = .next (s.sbOut 0x18 [a] []) := by
  refine congrArg Host.Outcome.next (sbRead_returns (sbGate_open rfl rfl ha.life ha.power ha.ready) _ ((dif_neg (by omega)).trans (if_neg ?_)))
  rintro rfl
  exact absurd h (by decide)

/-- The axis of a command, as the woken port sees it (R348). -/
theorem sbAxis_woken (s : State) (a : Byte) : s.sbWoken.sbAxis a = s.sbAxis a := by
  rw [sbWoken_eq]
  rfl

theorem sbAxis_some {a : Byte} {n : AxisId} (hn : axisOfByte a = some n) (hp : s.isPartner n = false) : s.sbAxis a = some n := by
  unfold State.sbAxis
  simp only [hn]
  exact if_neg (by rw [hp]; exact Bool.false_ne_true)

theorem sbAxis_none {a : Byte} (h : axisOfByte a = none ∨ ∃ n, axisOfByte a = some n ∧ s.isPartner n = true) : s.sbAxis a = none := by
  unfold State.sbAxis
  obtain h | ⟨n, hn, hp⟩ := h
  · simp only [h]
  · simp only [hn]
    exact if_pos hp

theorem exec_axisRead (ha : s.SbActs) (a : Byte) (n : AxisId) (hn : axisOfByte a = some n) (hp : s.isPartner n = false) : exec (.axisRead a) s =
    .next (s.sbOut 0x19 [a] (wordBytes (s.axStat n) ++ wordBytes (s.axOwner n) ++ wordBytes (hiWord (s.ax n).mot.out) ++ wordBytes (s.axMpos n))) := by
  refine congrArg Host.Outcome.next (sbRead_returns (sbGate_open rfl rfl ha.life ha.power ha.ready) _ ?_)
  simp only [sbAxis_woken, sbAxis_some hn hp]
  rw [sbWoken_eq]
  rfl

theorem exec_axisRead_none (ha : s.SbActs) (a : Byte) (h : axisOfByte a = none ∨ ∃ n, axisOfByte a = some n ∧ s.isPartner n = true) :
    exec (.axisRead a) s = .next (s.sbOut 0x19 [a] []) := by
  refine congrArg Host.Outcome.next (sbRead_returns (sbGate_open rfl rfl ha.life ha.power ha.ready) _ ?_)
  simp only [sbAxis_woken, sbAxis_none h]

/-- A command that needs VDD returns no byte where the module may not act (R345). -/
theorem sbRead_closed {code : Byte} {f : SbForm} (hf : sbForm code = some f) (hv : f.vsb = false)
    (h : s.nvm.lc = .retired ∨ s.sb.power ≠ .active ∨ s.dev.ready = false) (args : List Byte) (body : State → List Byte × State) :
    s.sbRead code args body = s.sbOut code args [] :=
  sbRead_shut (sbGate_closed hf hv h).choose_spec args

/-- Settles O58: every read goes through one gate, and what passes it returns its bytes with their count and PEC. That a read that may not act
returns the count 0 and keeps the result, and that a transaction error keeps the last command code, is log 68; that SB_CFG is taken up by the
next transaction is log 121. -/
theorem theSideBandPortReadsAndFollowsItsSupplies : Obligations.TheSideBandPortReadsAndFollowsItsSupplies := by
  refine ⟨fun s => ⟨rfl, sbWoken_eq s, exec_sbAwakeTimeout s, exec_sbVddValid s, rfl, rfl, exec_badCommand, fun code f k hf => exec_shortWrite k hf,
    exec_sbTransactionError_refused rfl, exec_missingPec, ?_, ⟨_, rfl, rfl, rfl, rfl, rfl, rfl, rfl, rfl, rfl⟩,
    ⟨fun h won => exec_alertResponse_silent won h, fun h won => exec_alertResponse_low won h⟩, exec_hostSilent_idle, exec_hostSilent_alert⟩,
    fun s => ⟨exec_identity s, exec_lcQuery s, fun hl => ⟨?_, fun i => ?_⟩, fun hl => ⟨exec_status hl, fun i => ⟨fun e he => ?_, fun hi => ?_⟩⟩,
      fun hshut => ⟨fun p w => ?_, fun a => ?_, fun a => ?_⟩, fun hopen => ?_⟩⟩
  · rintro e (rfl | rfl)
    · exact exec_sbTransactionError_none rfl
    · exact exec_sbTransactionError_none rfl
  · exact congrArg Host.Outcome.next (sbRead_shut (sbGate_retired _ hl) _)
  · exact congrArg Host.Outcome.next (sbRead_shut (sbGate_retired _ hl) _)
  · refine (exec_shaleRead i hl).trans ?_
    rw [he]
    rfl
  · refine (exec_shaleRead i hl).trans ?_
    rw [List.getElem?_eq_none hi]
    rfl
  · exact congrArg Host.Outcome.next (sbRead_closed rfl rfl hshut _ _)
  · exact congrArg Host.Outcome.next (sbRead_closed rfl rfl hshut _ _)
  · exact congrArg Host.Outcome.next (sbRead_closed rfl rfl hshut _ _)
  · have ha := sbActs_of_not_shut hopen
    exact ⟨exec_regRead ha, exec_regRead_noPage ha, exec_envRead_group ha, exec_envRead_module ha, exec_envRead_none ha, exec_axisRead ha,
      exec_axisRead_none ha⟩

end Sys2Proof.Machine
end

section
/-! SUPPORT. How a write command of the side-band port reaches its execution point (13_sideband.md R345 to R350). -/
namespace Sys2Proof.Machine
open Sys2Proof

variable {s : State} {code : Byte} {data : List Byte} {pec : Option Byte}

/-! ### Bytes of a transaction -/

theorem leNat_lt (l : List Byte) : leNat l < 256 ^ l.length := by
  induction l with
  | nil => exact Nat.one_pos
  | cons b l ih =>
    have hb := b.isLt
    simp only [leNat, List.length_cons, Nat.pow_succ]
    omega

/-- A number in bytes gives those bytes back. -/
theorem leBytes_leNat (l : List Byte) : leBytes l.length (leNat l) = l := by
  induction l with
  | nil => rfl
  | cons b l ih =>
    have hb := b.isLt
    have hlow : BitVec.ofNat 8 (b.toNat + 256 * leNat l) = b := by
      apply BitVec.eq_of_toNat_eq
      rw [BitVec.toNat_ofNat]
      omega
    have hdiv : (b.toNat + 256 * leNat l) / 256 = leNat l := by omega
    simp only [leNat, List.length_cons, leBytes, hlow, hdiv, ih]

/-- The bytes of a field. -/
theorem bytes_eq (d : List Byte) (i k : Nat) (h : i + k ≤ d.length) : ((List.range k).map fun j => byteAt d (i + j)) = (d.drop i).take k := by
  refine List.ext_getElem (by simp; omega) fun j h1 h2 => ?_
  have hj : j < k := by simpa using h1
  have hlt : i + j < d.length := by omega
  simp [byteAt, List.getD, List.getElem?_eq_getElem hlt]

theorem toNat_uAt (d : List Byte) (i k : Nat) : (BitVec.ofNat (8 * k) (uAt d i k)).toNat = uAt d i k := by
  rw [BitVec.toNat_ofNat]
  refine Nat.mod_eq_of_lt ?_
  have h := leNat_lt ((List.range k).map fun j => byteAt d (i + j))
  rw [List.length_map, List.length_range] at h
  rw [Nat.pow_mul]
  exact h

theorem leBytes_uAt (d : List Byte) (i k : Nat) (h : i + k ≤ d.length) : leBytes k (BitVec.ofNat (8 * k) (uAt d i k)).toNat = (d.drop i).take k := by
  rw [toNat_uAt, ← bytes_eq d i k h]
  have hl := leBytes_leNat ((List.range k).map fun j => byteAt d (i + j))
  rw [List.length_map, List.length_range] at hl
  exact hl

/-- Two fields side by side are all of the data. -/
theorem take_append_take (d : List Byte) (i k : Nat) (h : i + k = d.length) : (d.drop 0).take i ++ (d.drop i).take k = d := by
  rw [List.drop_zero, List.take_of_length_le (l := d.drop i) (by rw [List.length_drop]; omega), List.take_append_drop]

theorem take_all (d : List Byte) (k : Nat) (h : d.length = k) : (d.drop 0).take k = d := by
  rw [List.drop_zero, List.take_of_length_le (by omega)]

/-! ### The execution point of a write command (R347, R349) -/

/-- The port has been woken and keeps the code of the command (R349). -/
def State.sbKept (s : State) (code : Byte) : State :=
  { s.sbWoken with sb := { s.sbWoken.sb.replace with lastCmd := code, dataOut := [] } }

/-- `c` is the write command of the table with this code and these data (R348). -/
def SbWrites (s : State) (code : Byte) (data : List Byte) (pec : Option Byte) (c : Instr) : Prop :=
  ∃ gate body, exec c s = .next (s.sbWrite code data pec gate body)
    ∧ gate = if code = 0x20 then State.stopGate else fun u => u.sbGate code

theorem wake_writes (v : Byte) : SbWrites s 0x03 [v] pec (.wake v pec) := ⟨_, _, rfl, (if_neg (by decide)).symm⟩
theorem regWrite_writes (p w : Byte) (v : Word) : SbWrites s 0x11 ([p, w] ++ wordBytes v) pec (.regWrite p w v pec) := ⟨_, _, rfl, (if_neg (by decide)).symm⟩
theorem sbStopAll_writes (k : BitVec 16) : SbWrites s 0x20 (leBytes 2 k.toNat) pec (.sbStopAll k pec) := ⟨_, _, rfl, (if_pos rfl).symm⟩
theorem axisStop_writes (a m : Byte) : SbWrites s 0x21 [a, m] pec (.axisStop a m pec) := ⟨_, _, rfl, (if_neg (by decide)).symm⟩
theorem axisEnable_writes (a : Byte) : SbWrites s 0x22 [a] pec (.axisEnable a pec) := ⟨_, _, rfl, (if_neg (by decide)).symm⟩
theorem sbJog_writes (a d : Byte) : SbWrites s 0x23 [a, d] pec (.sbJog a d pec) := ⟨_, _, rfl, (if_neg (by decide)).symm⟩
theorem take_writes (a : Byte) : SbWrites s 0x28 [a] pec (.take a pec) := ⟨_, _, rfl, (if_neg (by decide)).symm⟩
theorem handBack_writes (a : Byte) : SbWrites s 0x29 [a] pec (.handBack a pec) := ⟨_, _, rfl, (if_neg (by decide)).symm⟩
theorem serviceEnter_writes (k : BitVec 64) : SbWrites s 0x30 (leBytes 8 k.toNat) pec (.serviceEnter k pec) := ⟨_, _, rfl, (if_neg (by decide)).symm⟩
theorem passcodeSet_writes (k l : BitVec 64) : SbWrites s 0x31 (leBytes 8 k.toNat ++ leBytes 8 l.toNat) pec (.passcodeSet k l pec) := ⟨_, _, rfl, (if_neg (by decide)).symm⟩
theorem bankSelect_writes (k : BitVec 16) (b : Byte) : SbWrites s 0x38 (leBytes 2 k.toNat ++ [b]) pec (.bankSelect k b pec) := ⟨_, _, rfl, (if_neg (by decide)).symm⟩
theorem moduleReset_writes (k : BitVec 16) : SbWrites s 0x3F (leBytes 2 k.toNat) pec (.moduleReset k pec) := ⟨_, _, rfl, (if_neg (by decide)).symm⟩

theorem sbWrites_of {c : Instr} {data' : List Byte} (h : SbWrites s code data' pec c) (hd : data' = data) : SbWrites s code data pec c := hd ▸ h

/-- Each write command of the table is one (R346, R348). -/
theorem sbRow_writes {c : Instr} {f : SbForm} (hrow : sbRow code data pec = some c) (hf : sbForm code = some f) (hw : f.write = true) :
    SbWrites s code data pec c := by
  unfold sbRow at hrow
  extract_lets b key at hrow
  split at hrow
  · exact nomatch hrow
  next hlen =>
    rw [hf, not_not] at hlen
    have hlen : data.length = f.args := (Option.some.inj hlen).symm
    have hform (k : Byte) (hk : code.toNat = k.toNat) : sbForm k = some f := (congrArg sbForm (BitVec.eq_of_toNat_eq hk)).symm.trans hf
    have hread (k : Byte) (hk : code.toNat = k.toNat) {n : Nat} {v : Bool} (hg : sbForm k = some ⟨false, n, v⟩) : SbWrites s code data pec c := by
      rw [← Option.some.inj ((hform k hk).symm.trans hg).symm] at hw
      exact nomatch hw
    have hargs (k : Byte) (hk : code.toNat = k.toNat) {n : Nat} {v : Bool} (hg : sbForm k = some ⟨true, n, v⟩) : data.length = n :=
      hlen.trans (congrArg SbForm.args (Option.some.inj ((hform k hk).symm.trans hg)))
    have hone (k : Byte) (hk : code.toNat = k.toNat) {v : Bool} (hg : sbForm k = some ⟨true, 1, v⟩) : [b 0] = data :=
      (bytes_eq data 0 1 (by rw [hargs k hk hg])).trans (take_all data 1 (hargs k hk hg))
    have htwo (k : Byte) (hk : code.toNat = k.toNat) {v : Bool} (hg : sbForm k = some ⟨true, 2, v⟩) : [b 0, b 1] = data :=
      (bytes_eq data 0 2 (by rw [hargs k hk hg])).trans (take_all data 2 (hargs k hk hg))
    have hkey (k : Byte) (hk : code.toNat = k.toNat) {v : Bool} (hg : sbForm k = some ⟨true, 2, v⟩) : leBytes 2 key.toNat = data :=
      (leBytes_uAt data 0 2 (by rw [hargs k hk hg])).trans (take_all data 2 (hargs k hk hg))
    split at hrow
    next hk => exact hread 0x01 hk rfl
    next hk => exact hread 0x02 hk rfl
    next hk =>
      obtain rfl := BitVec.eq_of_toNat_eq (y := (0x03 : Byte)) hk
      obtain rfl := Option.some.inj hrow
      exact sbWrites_of (wake_writes ..) (hone 0x03 rfl rfl)
    next hk => exact hread 0x04 hk rfl
    next hk => exact hread 0x08 hk rfl
    next hk => exact hread 0x10 hk rfl
    next hk =>
      obtain rfl := BitVec.eq_of_toNat_eq (y := (0x11 : Byte)) hk
      obtain rfl := Option.some.inj hrow
      have hn := hargs 0x11 rfl rfl
      refine sbWrites_of (regWrite_writes ..) (Eq.trans ?_ (take_append_take data 2 4 (by omega)))
      rw [← bytes_eq data 0 2 (by omega), ← leBytes_uAt data 2 4 (by omega)]
      rfl
    next hk => exact hread 0x18 hk rfl
    next hk => exact hread 0x19 hk rfl
    next hk =>
      obtain rfl := BitVec.eq_of_toNat_eq (y := (0x20 : Byte)) hk
      obtain rfl := Option.some.inj hrow
      exact sbWrites_of (sbStopAll_writes ..) (hkey 0x20 rfl rfl)
    next hk =>
      obtain rfl := BitVec.eq_of_toNat_eq (y := (0x21 : Byte)) hk
      obtain rfl := Option.some.inj hrow
      exact sbWrites_of (axisStop_writes ..) (htwo 0x21 rfl rfl)
    next hk =>
      obtain rfl := BitVec.eq_of_toNat_eq (y := (0x22 : Byte)) hk
      obtain rfl := Option.some.inj hrow
      exact sbWrites_of (axisEnable_writes ..) (hone 0x22 rfl rfl)
    next hk =>
      obtain rfl := BitVec.eq_of_toNat_eq (y := (0x23 : Byte)) hk
      obtain rfl := Option.some.inj hrow
      exact sbWrites_of (sbJog_writes ..) (htwo 0x23 rfl rfl)
    next hk =>
      obtain rfl := BitVec.eq_of_toNat_eq (y := (0x28 : Byte)) hk
      obtain rfl := Option.some.inj hrow
      exact sbWrites_of (take_writes ..) (hone 0x28 rfl rfl)
    next hk =>
      obtain rfl := BitVec.eq_of_toNat_eq (y := (0x29 : Byte)) hk
      obtain rfl := Option.some.inj hrow
      exact sbWrites_of (handBack_writes ..) (hone 0x29 rfl rfl)
    next hk =>
      obtain rfl := BitVec.eq_of_toNat_eq (y := (0x30 : Byte)) hk
      obtain rfl := Option.some.inj hrow
      have hn := hargs 0x30 rfl rfl
      exact sbWrites_of (serviceEnter_writes ..) ((leBytes_uAt data 0 8 (by omega)).trans (take_all data 8 hn))
    next hk =>
      obtain rfl := BitVec.eq_of_toNat_eq (y := (0x31 : Byte)) hk
      obtain rfl := Option.some.inj hrow
      have hn := hargs 0x31 rfl rfl
      refine sbWrites_of (passcodeSet_writes ..) (Eq.trans ?_ (take_append_take data 8 8 (by omega)))
      rw [← leBytes_uAt data 0 8 (by omega), ← leBytes_uAt data 8 8 (by omega)]
    next hk =>
      obtain rfl := BitVec.eq_of_toNat_eq (y := (0x38 : Byte)) hk
      obtain rfl := Option.some.inj hrow
      have hn := hargs 0x38 rfl rfl
      refine sbWrites_of (bankSelect_writes ..) (Eq.trans ?_ (take_append_take data 2 1 (by omega)))
      rw [← leBytes_uAt data 0 2 (by omega), ← bytes_eq data 2 1 (by omega)]
      rfl
    next hk =>
      obtain rfl := BitVec.eq_of_toNat_eq (y := (0x3F : Byte)) hk
      obtain rfl := Option.some.inj hrow
      exact sbWrites_of (moduleReset_writes ..) (hkey 0x3F rfl rfl)
    next => exact nomatch hrow

/-! ### How a write command is answered (R345, R347) -/

section
variable {gate : State → Option Byte} {body : State → State}

theorem sbWrite_discarded (h : ¬ s.pecGood code data pec) : s.sbWrite code data pec gate body = s.sbRefused 0x81 :=
  if_pos (Bool.not_eq_false _ ▸ h)

theorem sbWrite_refused {r : Byte} (h : s.pecGood code data pec) (hg : gate (s.sbKept code) = some r) :
    s.sbWrite code data pec gate body = s.sbDone code r := by
  refine (if_neg (by rw [h]; exact Bool.false_ne_true)).trans ?_
  show (match gate (s.sbKept code) with
    | some r => (s.sbKept code).sbResult r
    | none => body (s.sbKept code)) = _
  rw [hg]
  rfl

theorem sbWrite_acts (h : s.pecGood code data pec) (hg : gate (s.sbKept code) = none) : s.sbWrite code data pec gate body = body (s.sbKept code) := by
  refine (if_neg (by rw [h]; exact Bool.false_ne_true)).trans ?_
  show (match gate (s.sbKept code) with
    | some r => (s.sbKept code).sbResult r
    | none => body (s.sbKept code)) = _
  rw [hg]

end

/-- A result that is given at once (R350). -/
theorem sbKept_result (s : State) (code r : Byte) : (s.sbKept code).sbResult r = s.sbDone code r := rfl

/-- The gate sees the port as it was woken (R345). -/
theorem sbKept_gate (s : State) (c c' : Byte) : (s.sbKept c).sbGate c' = s.sbWoken.sbGate c' := rfl

end Sys2Proof.Machine
end

section
/-! PROOF. The write commands of the side-band port on the module (13_sideband.md R342, R345, R347, R352, R358, R360, R361). -/
namespace Sys2Proof.Machine
open Sys2Proof

variable {s : State} {code : Byte} {data : List Byte} {pec : Option Byte}

/-! ### The state in which a command acts -/

/-- All but the side-band port stands where a command acts. -/
theorem sbKept_frame (s : State) (code : Byte) : s.sbKept code = { s with sb := (s.sbKept code).sb } := by
  unfold State.sbKept
  rw [sbWoken_eq]

/-- The port where a command acts: woken, with the settings last written, its code, and no earlier result (R349, R350, R362). -/
theorem sbKept_sb (s : State) (code : Byte) : (s.sbKept code).sb = { s.sb with
    pecUse := s.sb.pecReq, amaskUse := s.sb.amask, hsilUse := s.sb.hsil, power := if s.sb.power = .standby then .awake else s.sb.power
    pendAct := none, pendReset := false, pendBank := false, pendWait := false, lastCmd := code, dataOut := [] } := by
  unfold State.sbKept
  rw [sbWoken_eq]
  rfl

/-- A command that has had its result leaves the module as it was, but for what it changes itself. -/
theorem sbDone_frame (s : State) (code r : Byte) : s.sbDone code r = { s with sb := { (s.sbKept code).sb with result := r } } := by
  unfold State.sbDone State.sbKept
  rw [sbWoken_eq]
  rfl

theorem sbDone_sb (s : State) (code r : Byte) : (s.sbDone code r).sb = { (s.sbKept code).sb with
    result := r, pendAct := none, pendReset := false, pendBank := false, pendWait := false } := rfl

theorem gate_acts {f : SbForm} (hf : sbForm code = some f) (hv : f.vsb = false) (hl : s.nvm.lc ≠ .retired) (hp : s.sb.power = .active)
    (hr : s.dev.ready = true) : (s.sbKept code).sbGate code = none := (sbKept_gate ..).trans (sbGate_open hf hv hl hp hr)

/-! ### Refusals (R345, R347) -/

/-- A command of any code that may not act has the code of the state (R345). -/
theorem gate_retired (c : Byte) (hl : s.nvm.lc = .retired) :
    (if c = 0x20 then State.stopGate else fun u => u.sbGate c) (s.sbKept c) = some Status.rejectState.code := by
  have hlc : (s.sbKept c).nvm.lc = .retired := by
    rw [sbKept_frame]
    exact hl
  split
  · exact if_pos hlc
  · exact if_pos hlc

theorem sbKept_power (s : State) (c : Byte) : (s.sbKept c).sb.power = .active ↔ s.sb.power = .active := sbWoken_active s

theorem gate_inactive {c : Byte} {f : SbForm} (hf : sbForm c = some f) (hv : f.vsb = false) (hl : s.nvm.lc ≠ .retired) (hp : s.sb.power ≠ .active) :
    (if c = 0x20 then State.stopGate else fun u => u.sbGate c) (s.sbKept c) = some 0x84 := by
  have hlc : (s.sbKept c).nvm.lc ≠ .retired := by
    rw [sbKept_frame]
    exact hl
  have hpow : (s.sbKept c).sb.power ≠ .active := fun h => hp ((sbKept_power s c).1 h)
  split
  · exact (if_neg hlc).trans (if_pos hpow)
  · refine (if_neg hlc).trans ((if_neg ?_).trans (if_pos hpow))
    rw [hf]
    simp [hv]

theorem gate_notReady {c : Byte} {f : SbForm} (hf : sbForm c = some f) (hv : f.vsb = false) (hl : s.nvm.lc ≠ .retired) (hp : s.sb.power = .active)
    (hr : s.dev.ready = false) (hc : c ≠ 0x20) : (if c = 0x20 then State.stopGate else fun u => u.sbGate c) (s.sbKept c) = some 0x85 := by
  have hlc : (s.sbKept c).nvm.lc ≠ .retired := by
    rw [sbKept_frame]
    exact hl
  have hready : (s.sbKept c).dev.ready = false := by
    rw [sbKept_frame]
    exact hr
  rw [if_neg hc]
  refine (if_neg hlc).trans ((if_neg ?_).trans ((if_neg fun h => h ((sbKept_power s c).2 hp)).trans (if_pos ?_)))
  · rw [hf]
    simp [hv]
  · rw [hready]
    rfl

/-- What R345 and R347 say of every write command. -/
theorem write_refusals {c : Instr} {f : SbForm} (hrow : sbRow code data pec = some c) (hf : sbForm code = some f) (hw : f.write = true) :
    (¬s.pecGood code data pec → exec c s = .next (s.sbRefused 0x81))
    ∧ (s.pecGood code data pec → s.nvm.lc = .retired → exec c s = .next (s.sbDone code Status.rejectState.code))
    ∧ (s.pecGood code data pec → s.nvm.lc ≠ .retired → f.vsb = false → s.sb.power ≠ .active → exec c s = .next (s.sbDone code 0x84))
    ∧ (s.pecGood code data pec → s.nvm.lc ≠ .retired → f.vsb = false → s.sb.power = .active → s.dev.ready = false → code ≠ 0x20 →
        exec c s = .next (s.sbDone code 0x85)) := by
  obtain ⟨gate, body, hrun, rfl⟩ := sbRow_writes (s := s) hrow hf hw
  rw [hrun]
  exact ⟨fun hbad => congrArg Host.Outcome.next (sbWrite_discarded hbad),
    fun hgood hl => congrArg Host.Outcome.next (sbWrite_refused hgood (gate_retired code hl)),
    fun hgood hl hv hp => congrArg Host.Outcome.next (sbWrite_refused hgood (gate_inactive hf hv hl hp)),
    fun hgood hl hv hp hr hc => congrArg Host.Outcome.next (sbWrite_refused hgood (gate_notReady hf hv hl hp hr hc))⟩

/-! ### WAKE and REG_WRITE (R342, R348, R352) -/

/-- The body of WAKE. -/
def State.wakeBody (s : State) (v : Byte) : State :=
  if 1 < v.toNat then s.sbResult Status.rejectParam.code
  else if v = 0 && s.sb.power = .awake then { s.sbResult Status.ok.code with sb := { (s.sbResult Status.ok.code).sb with power := .standby } }
  else s.sbResult Status.ok.code

theorem exec_wake (v : Byte) (hl : s.nvm.lc ≠ .retired) (h : s.pecGood 0x03 [v] pec) :
    exec (.wake v pec) s = .next ((s.sbKept 0x03).wakeBody v) := by
  have hrun : exec (.wake v pec) s = .next (s.sbWrite 0x03 [v] pec (fun u => u.sbGate 0x03) fun u => u.wakeBody v) := rfl
  rw [hrun, sbWrite_acts h ((sbKept_gate ..).trans (sbGate_vsb rfl rfl hl))]

theorem wakeBody_zero (s : State) : (s.sbKept 0x03).wakeBody 0 = { s.sbDone 0x03 0 with sb := { (s.sbDone 0x03 0).sb with
    power := if s.sbWoken.sb.power = .awake then .standby else s.sbWoken.sb.power } } := by
  have hpow : (s.sbKept 0x03).sb.power = s.sbWoken.sb.power := rfl
  have hres : (s.sbKept 0x03).sbResult Status.ok.code = s.sbDone 0x03 0 := rfl
  unfold State.wakeBody
  rw [if_neg (show ¬ 1 < (0 : Byte).toNat by decide), hres, hpow]
  by_cases h : s.sbWoken.sb.power = .awake
  · simp only [h, decide_true, Bool.and_self, if_true]
  · simp only [h, decide_false, Bool.and_false, if_neg Bool.false_ne_true, if_false]
    rfl

theorem wakeBody_above {v : Byte} (h : 1 < v.toNat) : s.wakeBody v = s.sbResult Status.rejectParam.code := if_pos h

theorem wakeBody_one (s : State) : s.wakeBody 1 = s.sbResult Status.ok.code := by
  unfold State.wakeBody
  rw [if_neg (show ¬ 1 < (1 : Byte).toNat by decide), show decide ((1 : Byte) = 0) = false from rfl, Bool.false_and, if_neg Bool.false_ne_true]

theorem regWrite_unlock {u : State} (hr : u.dev.ready = true) (v : Word) (tick : Nat) :
    u.regWrite .sideband 0 5 v tick = (u.setUnlock .sideband false).setUnlock .sideband (v = 0x0000C3A5) := by
  refine (if_neg ?_).trans ((if_neg (by decide)).trans (if_pos ⟨rfl, rfl⟩))
  rw [hr]
  exact Bool.false_ne_true

/-- The body of REG_WRITE. -/
def State.regWriteBody (s : State) (p w : Byte) (v : Word) : State :=
  if p.toNat < 16 then (State.regWrite s .sideband p.toNat w.toNat v 0).sbResult Status.ok.code
  else (s.regError .sideband 1).sbResult Status.rejectParam.code

theorem exec_regWrite (ha : s.sbActs) (p w : Byte) (v : Word) (h : s.pecGood 0x11 ([p, w] ++ wordBytes v) pec) :
    exec (.regWrite p w v pec) s = .next ((s.sbKept 0x11).regWriteBody p w v) := by
  obtain ⟨hl, hp, hr, -⟩ := ha
  have hrun : exec (.regWrite p w v pec) s = .next (s.sbWrite 0x11 ([p, w] ++ wordBytes v) pec (fun u => u.sbGate 0x11) fun u =>
      u.regWriteBody p w v) := rfl
  rw [hrun, sbWrite_acts h (gate_acts rfl rfl hl hp hr)]

theorem regWriteBody_unlock (hr : s.dev.ready = true) (v : Word) : (s.sbKept 0x11).regWriteBody 0 0x05 v =
    { s.sbDone 0x11 0 with sb := { (s.sbDone 0x11 0).sb with unlocked := decide (v = 0x0000C3A5) } } := by
  have hready : (s.sbKept 0x11).dev.ready = true := by
    rw [sbKept_frame]
    exact hr
  have hres : (s.sbKept 0x11).sbResult 0 = s.sbDone 0x11 0 := rfl
  unfold State.regWriteBody
  rw [if_pos (show (0 : Byte).toNat < 16 by decide), show (s.sbKept 0x11).regWrite .sideband (0 : Byte).toNat (0x05 : Byte).toNat v 0 = _ from
    regWrite_unlock hready v 0, ← hres]
  rfl

theorem regWriteBody_noPage (s : State) (p w : Byte) (v : Word) (h : 16 ≤ p.toNat) :
    (s.sbKept 0x11).regWriteBody p w v = (s.regError .sideband 1).sbDone 0x11 Status.rejectParam.code := by
  unfold State.regWriteBody
  rw [if_neg (by omega), sbKept_frame, sbKept_sb, sbDone_frame, sbKept_sb]
  rfl

/-! ### STOP_ALL (R308, R358) -/

/-- With no packet waiting none is flushed. -/
theorem flushPackets_none (h : s.q.packets = []) (seq : Nat) (covers : Packet → Bool) : s.flushPackets seq covers = s := by
  unfold State.flushPackets
  rw [h]
  show ({ s with q := { s.q with packets := [] } } : State) = s
  rw [← h]

/-- A STOP_ALL of the side-band port, where no packet waits and none streams, before what it waits for (R308). -/
theorem sbStop_starts (hq : s.q.packets = []) (hs : s.mp.stream = none) {on : List AxisId} (hon : (allAxes.filter fun n => (s.ax n).drv.enabled) = on)
    {u : State} (hu : u = State.addAction { s with sb := { s.sb with result := 0x80, pendAct := some s.q.nextAct } } .sideband 0xFF .stopAll on) :
    s.sbStop = State.addSnap (if on.isEmpty then u.finishAction ⟨s.q.nextAct, .sideband, 0xFF, .stopAll, [], [], 0, 0⟩ else u) (.stopAll s.q.nextAct) := by
  have hflush : (State.flushPackets { s with sb := { s.sb with result := 0x80, pendAct := some s.q.nextAct } } s.q.nextSeq fun _ => true).endStream
      = { s with sb := { s.sb with result := 0x80, pendAct := some s.q.nextAct } } :=
    (congrArg State.endStream (flushPackets_none (by exact hq) _ _)).trans (endStream_none (by exact hs))
  subst hon hu
  unfold State.sbStop State.startStopAll
  simp only [hflush]
  rfl

/-- While an axis is enabled STOP_ALL waits for the next boundary (R308). -/
theorem sbStop_waits (hq : s.q.packets = []) (hs : s.mp.stream = none) (hen : ∃ n, (s.ax n).drv.enabled = true) : s.sbStop = { s with
    q := { s.q with actions := s.q.actions ++ [⟨s.q.nextAct, .sideband, 0xFF, .stopAll, allAxes.filter fun n => (s.ax n).drv.enabled, [], 0, 0⟩]
                    nextAct := s.q.nextAct + 1, snapOps := s.q.snapOps ++ [.stopAll s.q.nextAct] }
    sb := { s.sb with result := 0x80, pendAct := some s.q.nextAct } } := by
  obtain ⟨n, hn⟩ := hen
  refine (sbStop_starts hq hs rfl rfl).trans (congrArg (State.addSnap · _) (if_neg ?_))
  rw [List.isEmpty_iff]
  exact List.ne_nil_of_mem (List.mem_filter.2 ⟨List.mem_finRange n, hn⟩)

/-- A STOP_ALL of the side-band port that waits for no axis has its result (R350). -/
theorem finishAction_stopAll {u : State} {act : Nat} (h : u.sb.pendAct = some act) :
    u.finishAction ⟨act, .sideband, 0xFF, .stopAll, [], [], 0, 0⟩ =
      (State.sbResult { u with q := { u.q with actions := u.q.actions.filter fun b => b.id ≠ act } } 0).alert 5 := if_pos h

/-- With no axis enabled STOP_ALL completes as it starts (R308). -/
theorem sbStop_done (hq : s.q.packets = []) (hs : s.mp.stream = none) (hfresh : s.ActionsFresh) (hoff : ∀ n, (s.ax n).drv.enabled = false) :
    s.sbStop = { s with
      q := { s.q with nextAct := s.q.nextAct + 1, snapOps := s.q.snapOps ++ [.stopAll s.q.nextAct] }
      sb := { s.sb with result := 0, pendAct := none, pendBank := false, pendWait := false
                        causes := s.sb.causes ||| 0x20, announced := s.sb.announced &&& ~~~0x20 } } := by
  have hon : (allAxes.filter fun n => (s.ax n).drv.enabled) = [] := List.filter_eq_nil_iff.2 fun n _ => by rw [hoff n]; exact Bool.false_ne_true
  have hgone : (s.q.actions ++ [(⟨s.q.nextAct, .sideband, 0xFF, .stopAll, [], [], 0, 0⟩ : Action)]).filter (fun b => b.id ≠ s.q.nextAct) = s.q.actions := by
    rw [List.filter_append, List.filter_eq_self.2 fun a ha => decide_eq_true (Nat.ne_of_lt (hfresh a ha))]
    simp
  rw [sbStop_starts hq hs hon rfl, if_pos (show List.isEmpty ([] : List AxisId) = true from rfl), finishAction_stopAll rfl]
  refine congrArg (fun l => ({ s with
    q := { s.q with actions := l, nextAct := s.q.nextAct + 1, snapOps := s.q.snapOps ++ [.stopAll s.q.nextAct] }
    sb := { s.sb with result := 0, pendAct := none, pendBank := false, pendWait := false
                      causes := s.sb.causes ||| 0x20, announced := s.sb.announced &&& ~~~0x20 } } : State)) hgone

/-- A command whose turn has come acts at once (R295, R297, R359). -/
theorem sbDispatch_acts {c : Instr} {act : State → State} (hd : s.dispatching = true) (hfree : s.sbFree c) : s.sbDispatch c act = act s := by
  obtain ⟨-, hw, ⟨k, hk⟩, hpackets⟩ := hfree
  have hany : (List.finRange 4).any s.coreFree = true := List.any_eq_true.2 ⟨k, List.mem_finRange k, hk⟩
  have hpre : s.preempt = s := if_pos hany
  have hturn : s.sbTurn s.q.nextSeq c = true := by
    unfold State.sbTurn
    rw [hd, hany, Bool.true_and, Bool.true_and, List.all_eq_true]
    intro p hp
    by_cases hq : p.queue = 0 ∧ p.seq < s.q.nextSeq
    · obtain ⟨hcore, hmeets⟩ := hpackets p hp hq.1 hq.2
      simp [hcore, hmeets]
    · have hnot : (decide (p.queue = 0) && decide (p.seq < s.q.nextSeq)) = false := by simpa using hq
      rw [hnot]
      rfl
  unfold State.sbDispatch
  rw [if_pos hd, hpre]
  refine if_pos ?_
  rw [hw, hturn]
  rfl

/-- The gate of STOP_ALL asks for a clock, and not for READY (R345). -/
theorem stopGate_kept (hl : s.nvm.lc ≠ .retired) (hp : s.sb.power = .active) :
    State.stopGate (s.sbKept 0x20) = if s.framing then none else some 0x85 := by
  have hlc : (s.sbKept 0x20).nvm.lc ≠ .retired := by
    rw [sbKept_frame]
    exact hl
  have hframing : (s.sbKept 0x20).framing = s.framing := by
    rw [sbKept_frame]
    rfl
  refine (if_neg hlc).trans ((if_neg fun h => h ((sbKept_power s 0x20).2 hp)).trans ?_)
  rw [hframing]

/-- The body of SB_STOP_ALL. -/
def State.stopAllBody (s : State) (key : BitVec 16) (pec : Option Byte) : State :=
  if key ≠ 0xC3A5 then s.sbResult Status.rejectKey.code
  else if s.dispatching then s.sbDispatch (.sbStopAll key pec) State.sbStop
  else s.sbStop

theorem stopAllBody_badKey {k : BitVec 16} (hk : k ≠ 0xC3A5) : s.stopAllBody k pec = s.sbResult Status.rejectKey.code := if_pos hk

theorem exec_sbStopAll (k : BitVec 16) (hl : s.nvm.lc ≠ .retired) (hp : s.sb.power = .active) (hgood : s.pecGood 0x20 (leBytes 2 k.toNat) pec) :
    exec (.sbStopAll k pec) s = .next (if s.framing then (s.sbKept 0x20).stopAllBody k pec else s.sbDone 0x20 0x85) := by
  have hrun : exec (.sbStopAll k pec) s = .next (s.sbWrite 0x20 (leBytes 2 k.toNat) pec State.stopGate fun u => u.stopAllBody k pec) := rfl
  have hgate := stopGate_kept hl hp
  rw [hrun]
  split
  next hf =>
    rw [if_pos hf] at hgate
    rw [sbWrite_acts hgood hgate]
  next hf =>
    rw [if_neg hf] at hgate
    rw [sbWrite_refused hgood hgate]

/-- SB_STOP_ALL acts at once where no packet and no command waits, and while dispatch is suspended (R308, R420). -/
theorem stopAllBody_acts (hr : s.framing = true) (hq : s.q.packets = []) (hw : s.dev.suspended = true ∨ s.dev.safeHold = true ∨ s.sb.waiting = []) :
    s.stopAllBody 0xC3A5 pec = s.sbStop := by
  unfold State.stopAllBody
  rw [if_neg (fun h => h rfl)]
  split
  next hd =>
    refine sbDispatch_acts hd ⟨?_, ?_, ⟨0, ?_⟩, ?_⟩
    · exact of_decide_eq_true (Bool.and_eq_true_iff.1 hr).1
    · unfold State.dispatching at hd
      simp only [Bool.and_eq_true, Bool.not_eq_true'] at hd
      obtain ⟨⟨-, hsusp⟩, hhold⟩ := hd
      exact (hw.resolve_left (by rw [hsusp]; exact Bool.false_ne_true)).resolve_left (by rw [hhold]; exact Bool.false_ne_true)
    · unfold State.coreFree
      rw [hq]
      rfl
    · rw [hq]
      exact nofun
  next => rfl

section
variable (hl : s.nvm.lc ≠ .retired) (hp : s.sb.power = .active) (hr : s.framing = true) (hq : s.q.packets = []) (hs : s.mp.stream = none)
  (hgood : s.pecGood 0x20 [0xA5, 0xC3] pec) (hw : s.dev.suspended = true ∨ s.dev.safeHold = true ∨ s.sb.waiting = [])
include hl hp hr hq hgood hw

theorem exec_sbStopAll_acts : exec (.sbStopAll 0xC3A5 pec) s = .next (s.sbKept 0x20).sbStop := by
  have hwait : (s.sbKept 0x20).sb.waiting = s.sb.waiting := by rw [sbKept_sb]
  have hacts : (s.sbKept 0x20).stopAllBody 0xC3A5 pec = (s.sbKept 0x20).sbStop := by
    refine stopAllBody_acts ?_ ?_ ?_
    · rw [sbKept_frame]
      exact hr
    · rw [sbKept_frame]
      exact hq
    · rw [hwait, sbKept_frame]
      exact hw
  refine (exec_sbStopAll 0xC3A5 hl hp hgood).trans ?_
  rw [if_pos hr, hacts]

include hs

theorem exec_sbStopAll_waits (hen : ∃ n, (s.ax n).drv.enabled = true) : exec (.sbStopAll 0xC3A5 pec) s = .next { s with
    q := { s.q with actions := s.q.actions ++ [⟨s.q.nextAct, .sideband, 0xFF, .stopAll, allAxes.filter fun n => (s.ax n).drv.enabled, [], 0, 0⟩]
                    nextAct := s.q.nextAct + 1, snapOps := s.q.snapOps ++ [.stopAll s.q.nextAct] }
    sb := { (s.sbDone 0x20 0x80).sb with pendAct := some s.q.nextAct } } := by
  have hsb := sbDone_sb s 0x20 0x80
  have hkept := sbKept_sb s 0x20
  have hframe := sbKept_frame s 0x20
  refine (exec_sbStopAll_acts hl hp hr hq hgood hw).trans (congrArg Host.Outcome.next ?_)
  rw [hsb]
  generalize s.sbKept 0x20 = u at hkept hframe
  rw [sbStop_waits (by rw [hframe]; exact hq) (by rw [hframe]; exact hs) (by rw [hframe]; exact hen), hkept, hframe]
  rfl

theorem exec_sbStopAll_done (hfresh : s.ActionsFresh) (hoff : ∀ n, (s.ax n).drv.enabled = false) : exec (.sbStopAll 0xC3A5 pec) s = .next { s with
    q := { s.q with nextAct := s.q.nextAct + 1, snapOps := s.q.snapOps ++ [.stopAll s.q.nextAct] }
    sb := { (s.sbDone 0x20 0).sb with causes := s.sb.causes ||| 0x20, announced := s.sb.announced &&& ~~~0x20 } } := by
  have hsb := sbDone_sb s 0x20 0
  have hkept := sbKept_sb s 0x20
  have hframe := sbKept_frame s 0x20
  refine (exec_sbStopAll_acts hl hp hr hq hgood hw).trans (congrArg Host.Outcome.next ?_)
  rw [hsb]
  generalize s.sbKept 0x20 = u at hkept hframe
  rw [sbStop_done (by rw [hframe]; exact hq) (by rw [hframe]; exact hs) (by rw [hframe]; exact hfresh) (by rw [hframe]; exact hoff), hkept, hframe]

end

end Sys2Proof.Machine
end

section
/-! PROOF. The commands of the side-band port that a key or a passcode guards (13_sideband.md R360, R361). -/
namespace Sys2Proof.Machine
open Sys2Proof

variable {s : State} {code : Byte} {data : List Byte} {pec : Option Byte}

/-! ### What a device reset leaves of the side-band port (R380, R396) -/

theorem resetCore_sb (s : State) (src : Fin 7) : (s.resetCore src).sb = { s.sb.afterReset with
    causes := (s.resetCore src).sb.causes, announced := (s.resetCore src).sb.announced } := by
  have hsb := congrArg State.sb (cuts_cutsOnly s).frame
  have hrun : (s.resetCore src).sb = s.cutNvm.cutFlash.sb.afterReset := rfl
  generalize s.cutNvm.cutFlash = t at hsb hrun
  rw [hrun, hsb]
  rfl

/-- A reset keeps the result and the last code of the port, and what waits for READY (R361). -/
theorem startReset_sb (s : State) (src : Fin 7) : (s.startReset src).sb.pendReset = s.sb.pendReset
    ∧ (s.startReset src).sb.result = s.sb.result ∧ (s.startReset src).sb.lastCmd = s.sb.lastCmd := by
  unfold State.startReset
  split
  · rw [resetCore_sb]
    exact ⟨rfl, rfl, rfl⟩
  · rw [resetCore_sb]
    exact ⟨rfl, rfl, rfl⟩

theorem transition_sb (s : State) (l : LifeCycle) : (s.transition l).sb.pendReset = s.sb.pendReset := by
  unfold State.transition
  extract_lets s1
  exact (startReset_sb _ 2).1

/-- A reset that begins where the port alone differs begins as well (R380). -/
theorem resetBegun_sb {t : State} {b : SideBand} {src : Fin 7} (h : State.ResetBegun { s with sb := b } t src) (hp : b.power = s.sb.power)
    (ha : b.addr = s.sb.addr) (hreq : b.pecReq = s.sb.pecReq) (hmask : b.amask = s.sb.amask) : s.ResetBegun t src := by
  unfold State.ResetBegun at h ⊢
  rw [← hp, ← ha, ← hreq, ← hmask]
  exact h

/-! ### MODULE_RESET (R361, R377) -/

/-- The body of MODULE_RESET. -/
def State.moduleResetBody (s : State) (key : BitVec 16) : State :=
  if key = 0xC3A5 then s.awaitReset.startReset 4 else s.sbResult Status.rejectKey.code

theorem moduleResetBody_badKey {k : BitVec 16} (hk : k ≠ 0xC3A5) : s.moduleResetBody k = s.sbResult Status.rejectKey.code := if_neg hk

theorem exec_moduleReset (ha : s.sbActs) (k : BitVec 16) (h : s.pecGood 0x3F (leBytes 2 k.toNat) pec) :
    exec (.moduleReset k pec) s = .next ((s.sbKept 0x3F).moduleResetBody k) := by
  obtain ⟨hl, hp, hr, -⟩ := ha
  have hrun : exec (.moduleReset k pec) s = .next (s.sbWrite 0x3F (leBytes 2 k.toNat) pec (fun u => u.sbGate 0x3F) fun u => u.moduleResetBody k) := rfl
  rw [hrun, sbWrite_acts h (gate_acts rfl rfl hl hp hr)]

/-- A port that was ACTIVE keeps its power state, its address and its settings (R342, R362). -/
theorem resetBegun_kept {t : State} {c : Byte} {src : Fin 7} (hp : s.sb.power = .active) (h : (s.sbKept c).awaitReset.ResetBegun t src) :
    s.ResetBegun t src := by
  have hframe : (s.sbKept c).awaitReset = { s with sb := (s.sbKept c).awaitReset.sb } := by
    unfold State.awaitReset
    rw [sbKept_frame]
  rw [hframe] at h
  have hsb : (s.sbKept c).awaitReset.sb = { (s.sbKept c).sb with result := 0x80, pendReset := true } := rfl
  refine resetBegun_sb h ?_ ?_ ?_ ?_ <;> rw [hsb, sbKept_sb]
  rw [hp]
  rfl

theorem moduleReset_begins (hp : s.sb.power = .active) : ∃ t, (s.sbKept 0x3F).moduleResetBody 0xC3A5 = t ∧ s.ResetBegun t 4 ∧ t.sb.pendReset = true
    ∧ t.sb.result = 0x80 ∧ t.sb.lastCmd = 0x3F := by
  refine ⟨_, if_pos rfl, resetBegun_kept hp (startReset_begun _ (by decide)).1, ?_⟩
  obtain ⟨hpend, hresult, hcode⟩ := startReset_sb (s.sbKept 0x3F).awaitReset 4
  exact ⟨hpend, hresult, hcode⟩

/-! ### Passcodes (R360, R401) -/

/-- The body of SERVICE_ENTER. -/
def State.serviceBody (s : State) (passcode : BitVec 64) : State :=
  s.passcodeGuard (s.nvm.lc ≠ .field || s.anyEnabled) passcode fun s => s.awaitReset.transition .service

theorem exec_serviceEnter (ha : s.sbActs) (k : BitVec 64) (h : s.pecGood 0x30 (leBytes 8 k.toNat) pec) :
    exec (.serviceEnter k pec) s = .next ((s.sbKept 0x30).serviceBody k) := by
  obtain ⟨hl, hp, hr, -⟩ := ha
  have hrun : exec (.serviceEnter k pec) s = .next (s.sbWrite 0x30 (leBytes 8 k.toNat) pec (fun u => u.sbGate 0x30) fun u => u.serviceBody k) := rfl
  rw [hrun, sbWrite_acts h (gate_acts rfl rfl hl hp hr)]

section
variable {bad : Bool} {k : BitVec 64} {act : State → State}

theorem passcodeGuard_lockedOut (h : s.sb.lockedOut = true) : s.passcodeGuard bad k act = s.sbResult 0x86 := if_pos h

theorem passcodeGuard_bad (h : s.sb.lockedOut = false) (hb : bad = true) : s.passcodeGuard bad k act = s.sbResult Status.rejectState.code :=
  (if_neg (by rw [h]; exact Bool.false_ne_true)).trans (if_pos hb)

theorem passcodeGuard_passes (h : s.sb.lockedOut = false) (hb : bad = false) (hk : k = s.nvm.passcode) : s.passcodeGuard bad k act = act s :=
  (if_neg (by rw [h]; exact Bool.false_ne_true)).trans ((if_neg (by rw [hb]; exact Bool.false_ne_true)).trans (if_pos hk))

theorem passcodeGuard_wrong (h : s.sb.lockedOut = false) (hb : bad = false) (hk : k ≠ s.nvm.passcode) : s.passcodeGuard bad k act = s.wrongPasscode :=
  (if_neg (by rw [h]; exact Bool.false_ne_true)).trans ((if_neg (by rw [hb]; exact Bool.false_ne_true)).trans (if_neg hk))

end

/-- The first wrong passcode is logged, with the time it came (R360). -/
theorem wrongPasscode_first (h : s.sb.wrongPass = []) (hl : s.sb.lockedOut = false) : s.wrongPasscode = { (s.sbResult Status.rejectKey.code).logs s.wrongPasscode with
    sb := { (s.sbResult Status.rejectKey.code).sb with wrongPass := [s.tb.tick] } } := by
  have hrun : s.wrongPasscode = (State.shale { s with sb := { s.sb with wrongPass := [s.tb.tick], lockedOut := false } } 9 2 255 1).sbResult
      Status.rejectKey.code := by
    unfold State.wrongPasscode
    rw [h]
    simp only [List.filter_nil, List.length_singleton, show ¬ 3 ≤ 1 by decide, decide_false, Bool.or_false, if_false, hl]
  have hshale := shale_frame { s with sb := { s.sb with wrongPass := [s.tb.tick], lockedOut := false } } 9 2 255 1
  rw [hrun]
  generalize State.shale { s with sb := { s.sb with wrongPass := [s.tb.tick], lockedOut := false } } 9 2 255 1 = u at hshale
  rw [hshale, ← hl]
  rfl

/-- What a passcode command asks of the module, where it acts. -/
theorem sbKept_nvm (s : State) (c : Byte) : (s.sbKept c).nvm = s.nvm := by rw [sbKept_frame]

theorem sbKept_lockedOut (s : State) (c : Byte) : (s.sbKept c).sb.lockedOut = s.sb.lockedOut := by rw [sbKept_sb]

theorem sbKept_notService (s : State) (c : Byte) : (decide ((s.sbKept c).nvm.lc ≠ .field) || (s.sbKept c).anyEnabled) =
    (decide (s.nvm.lc ≠ .field) || s.anyEnabled) := by
  have hany : (s.sbKept c).anyEnabled = s.anyEnabled := by
    rw [sbKept_frame]
    rfl
  rw [sbKept_nvm, hany]

/-- SERVICE_ENTER by the state of the lock-out, of the module and of the passcode (R360). -/
theorem serviceBody_answers (hp : s.sb.power = .active) (k : BitVec 64) :
    (s.sb.lockedOut = true → (s.sbKept 0x30).serviceBody k = s.sbDone 0x30 0x86)
    ∧ (s.sb.lockedOut = false → s.nvm.lc ≠ .field ∨ s.anyEnabled = true → (s.sbKept 0x30).serviceBody k = s.sbDone 0x30 Status.rejectState.code)
    ∧ (s.sb.lockedOut = false → s.nvm.lc = .field → s.anyEnabled = false → k = s.nvm.passcode →
        ∃ t, (s.sbKept 0x30).serviceBody k = t ∧ s.ResetBegun t 2 ∧ t.nvm.lc = .service ∧ t.sb.pendReset = true)
    ∧ (s.sb.lockedOut = false → s.nvm.lc = .field → s.anyEnabled = false → k ≠ s.nvm.passcode → s.sb.wrongPass = [] →
        ∃ t, (s.sbKept 0x30).serviceBody k = t ∧ t = { (s.sbDone 0x30 Status.rejectKey.code).logs t with
          sb := { (s.sbDone 0x30 Status.rejectKey.code).sb with wrongPass := [s.tb.tick] } }) := by
  have hlock := sbKept_lockedOut s 0x30
  have hbad := sbKept_notService s 0x30
  have hpass : (s.sbKept 0x30).nvm.passcode = s.nvm.passcode := by rw [sbKept_nvm]
  have hgood (hl : s.nvm.lc = .field) (ho : s.anyEnabled = false) : (decide (s.nvm.lc ≠ .field) || s.anyEnabled) = false := by
    rw [ho, decide_eq_false (not_not.2 hl)]
    rfl
  have hbody : (s.sbKept 0x30).serviceBody k = (s.sbKept 0x30).passcodeGuard ((s.sbKept 0x30).nvm.lc ≠ .field || (s.sbKept 0x30).anyEnabled) k
    fun s => s.awaitReset.transition .service := rfl
  rw [hbody]
  refine ⟨fun h => ?_, fun h hs => ?_, fun h hl ho hk => ⟨_, passcodeGuard_passes (hlock.trans h) (hbad.trans (hgood hl ho)) (hk.trans hpass.symm), ?_⟩,
    fun h hl ho hk hw => ⟨_, passcodeGuard_wrong (hlock.trans h) (hbad.trans (hgood hl ho)) (fun he => hk (he.trans hpass)), ?_⟩⟩
  · rw [passcodeGuard_lockedOut (hlock.trans h), sbKept_result]
  · rw [passcodeGuard_bad (hlock.trans h) (hbad.trans (Bool.or_eq_true_iff.2 (hs.imp decide_eq_true id))), sbKept_result]
  · obtain ⟨hbegun, hlc, -⟩ := transition_begun (s.sbKept 0x30).awaitReset .service
    exact ⟨resetBegun_kept hp hbegun, hlc, transition_sb ..⟩
  · have hfirst := wrongPasscode_first (s := s.sbKept 0x30) (by rw [sbKept_sb]; exact hw) (hlock.trans h)
    rw [show (s.sbKept 0x30).tb = s.tb by rw [sbKept_frame], sbKept_result] at hfirst
    exact hfirst

/-- The body of PASSCODE_SET. -/
def State.passcodeBody (s : State) (old new : BitVec 64) : State :=
  s.passcodeGuard (s.nvm.lc ≠ .manufacture && s.nvm.lc ≠ .service) old fun s =>
    State.sbResult { s with nvm := { s.nvm with passcode := new } } Status.ok.code

theorem exec_passcodeSet (ha : s.sbActs) (new : BitVec 64) (h : s.pecGood 0x31 (leBytes 8 s.nvm.passcode.toNat ++ leBytes 8 new.toNat) pec)
    (hlock : s.sb.lockedOut = false) (hlc : s.nvm.lc = .manufacture ∨ s.nvm.lc = .service) :
    exec (.passcodeSet s.nvm.passcode new pec) s = .next { s.sbDone 0x31 0 with nvm := { s.nvm with passcode := new } } := by
  obtain ⟨hl, hp, hr, -⟩ := ha
  have hrun : exec (.passcodeSet s.nvm.passcode new pec) s = .next (s.sbWrite 0x31 (leBytes 8 s.nvm.passcode.toNat ++ leBytes 8 new.toNat) pec
      (fun u => u.sbGate 0x31) fun u => u.passcodeBody s.nvm.passcode new) := rfl
  rw [hrun, sbWrite_acts h (gate_acts rfl rfl hl hp hr)]
  have hbad : (decide ((s.sbKept 0x31).nvm.lc ≠ .manufacture) && decide ((s.sbKept 0x31).nvm.lc ≠ .service)) = false := by
    rw [sbKept_nvm]
    obtain h | h := hlc <;> rw [h] <;> rfl
  have hres : (s.sbKept 0x31).sbResult 0 = s.sbDone 0x31 0 := rfl
  unfold State.passcodeBody
  rw [passcodeGuard_passes ((sbKept_lockedOut s 0x31).trans hlock) hbad (by rw [sbKept_nvm]), sbKept_nvm, ← hres]
  rfl

/-! ### BANK_SELECT (R361) -/

/-- The body of BANK_SELECT. -/
def State.bankBody (s : State) (key : BitVec 16) (bank : Byte) : State :=
  if key ≠ 0xC3A5 then s.sbResult Status.rejectKey.code
  else if 1 < bank.toNat then s.sbResult Status.rejectParam.code
  else if (s.mark (bank = 1)).isNone then s.sbResult Status.rejectState.code
  else State.writeBootBank { s with sb := { s.sb with result := 0x80, pendBank := true } } (bank = 1)

theorem bankBody_badKey {k : BitVec 16} (hk : k ≠ 0xC3A5) (b : Byte) : s.bankBody k b = s.sbResult Status.rejectKey.code := if_pos hk

theorem exec_bankSelect (ha : s.sbActs) (k : BitVec 16) (b : Byte) (h : s.pecGood 0x38 (leBytes 2 k.toNat ++ [b]) pec) :
    exec (.bankSelect k b pec) s = .next ((s.sbKept 0x38).bankBody k b) := by
  obtain ⟨hl, hp, hr, -⟩ := ha
  have hrun : exec (.bankSelect k b pec) s = .next (s.sbWrite 0x38 (leBytes 2 k.toNat ++ [b]) pec (fun u => u.sbGate 0x38) fun u => u.bankBody k b) := rfl
  rw [hrun, sbWrite_acts h (gate_acts rfl rfl hl hp hr)]

/-- A verified bank begins an option write (R361, R389). -/
theorem bankBody_writes (b : Bool) (hm : (s.mark b).isSome = true) : ∃ t, (s.sbKept 0x38).bankBody 0xC3A5 (if b then 1 else 0) = t
    ∧ t.dev.optWrite.isSome = true ∧ t.sb.pendBank = true ∧ t.sb.result = 0x80 ∧ t.axes = s.axes ∧ t.legs = s.legs
    ∧ t.nvm.copyA = s.nvm.copyA ∧ t.nvm.copyB = s.nvm.copyB ∧ t.q = s.q ∧ t.tb = s.tb := by
  have hbank : decide ((if b then 1 else 0 : Byte) = 1) = b := by cases b <;> rfl
  have hlow : ¬ 1 < (if b then 1 else 0 : Byte).toNat := by cases b <;> decide
  have hmark : (s.sbKept 0x38).mark (decide ((if b then 1 else 0 : Byte) = 1)) = s.mark b := by
    rw [hbank, sbKept_frame]
    rfl
  have hnone : ¬ ((s.sbKept 0x38).mark (decide ((if b then 1 else 0 : Byte) = 1))).isNone = true := by
    rw [hmark, Option.isNone_iff_eq_none]
    intro hn
    rw [hn] at hm
    exact nomatch hm
  refine ⟨_, (if_neg fun h => h rfl).trans ((if_neg hlow).trans (if_neg hnone)), ?_⟩
  generalize decide ((if b then 1 else 0 : Byte) = 1) = x
  have hframe := sbKept_frame s 0x38
  generalize s.sbKept 0x38 = u at hframe
  refine ⟨rfl, rfl, rfl, ?_, ?_, ?_, ?_, ?_, ?_⟩ <;> rw [hframe] <;> rfl

/-! ### The claim -/

/-- The key of a command, as its bytes stand in the transaction (R348). -/
theorem key_bytes : leBytes 2 (0xC3A5 : BitVec 16).toNat = [0xA5, 0xC3] := rfl

/-- Settles O59: every write command of the table passes one gate, and acts in a state that differs in the port alone. That WAKE above 1 and
pages above 15 are REJECT_PARAM, that MODULE_RESET asks for READY, and that STOP_ALL needs a running frame, is log 70; that STOP_ALL acts in
its row while dispatch is suspended is log 117. -/
theorem sideBandModuleCommands : Obligations.SideBandModuleCommands := by
  refine fun s pec => ⟨fun code data c f hrow hf hw => write_refusals hrow hf hw, fun v hl h => ⟨fun hv => ?_, fun hv => ?_, fun hv => ?_⟩, rfl,
    fun hl hp hr hq hs hgood hw => ⟨fun hen => ?_, fun hfresh hoff => ?_⟩, fun ha => ⟨fun v h => ?_, fun p w v hpage h => ?_,
    fun k hk => ⟨fun h => ?_, fun h => ?_, fun b h => ?_⟩, fun h => ?_, fun k h => ?_, fun new h hlock hlc => exec_passcodeSet ha new h hlock hlc,
    fun b h hm => ?_⟩⟩
  · exact (exec_wake v hl h).trans (congrArg Host.Outcome.next ((wakeBody_above hv).trans (sbKept_result ..)))
  · subst hv
    exact (exec_wake 1 hl h).trans (congrArg Host.Outcome.next ((wakeBody_one _).trans (sbKept_result ..)))
  · subst hv
    exact (exec_wake 0 hl h).trans (congrArg Host.Outcome.next (wakeBody_zero s))
  · exact exec_sbStopAll_waits hl hp hr hq hs hgood hw hen
  · exact exec_sbStopAll_done hl hp hr hq hs hgood hw hfresh hoff
  · exact (exec_regWrite ha 0 0x05 v h).trans (congrArg Host.Outcome.next (regWriteBody_unlock ha.2.2.1 v))
  · exact (exec_regWrite ha p w v h).trans (congrArg Host.Outcome.next (regWriteBody_noPage s p w v hpage))
  · refine (exec_sbStopAll k ha.1 ha.2.1 h).trans ?_
    rw [stopAllBody_badKey hk, sbKept_result]
    split <;> rfl
  · exact (exec_moduleReset ha k h).trans (congrArg Host.Outcome.next ((moduleResetBody_badKey hk).trans (sbKept_result ..)))
  · exact (exec_bankSelect ha k b h).trans (congrArg Host.Outcome.next ((bankBody_badKey hk b).trans (sbKept_result ..)))
  · obtain ⟨t, ht, hbegun⟩ := moduleReset_begins ha.2.1
    exact ⟨t, (exec_moduleReset ha 0xC3A5 (key_bytes.symm ▸ h)).trans (congrArg Host.Outcome.next ht), hbegun⟩
  · rw [exec_serviceEnter ha k h]
    obtain ⟨hlocked, hbad, henter, hwrong⟩ := serviceBody_answers ha.2.1 k
    refine ⟨fun hl => congrArg Host.Outcome.next (hlocked hl), fun hl hs => congrArg Host.Outcome.next (hbad hl hs), fun hl hlc ho hk => ?_,
      fun hl hlc ho hk hw => ?_⟩
    · obtain ⟨t, ht, hbegun⟩ := henter hl hlc ho hk
      exact ⟨t, congrArg Host.Outcome.next ht, hbegun⟩
    · obtain ⟨t, ht, hframe⟩ := hwrong hl hlc ho hk hw
      exact ⟨t, congrArg Host.Outcome.next ht, hframe⟩
  · obtain ⟨t, ht, hwrites⟩ := bankBody_writes b hm
    exact ⟨t, (exec_bankSelect ha 0xC3A5 (if b then 1 else 0) (key_bytes.symm ▸ h)).trans (congrArg Host.Outcome.next ht), hwrites⟩

end Sys2Proof.Machine
end

section
/-! PROOF. The commands of the side-band port on one axis (13_sideband.md R348, R350, R355 to R359; 16_integrity.md R420). -/
namespace Sys2Proof.Machine
open Sys2Proof

variable {s : State} {code : Byte} {data : List Byte} {pec : Option Byte} {a : Byte} {n : AxisId} {c : Instr} {act : State → State}

/-! ### A command takes its turn as a packet of Q0 (R295, R359, R420) -/

/-- `c` is the command on an axis with this code and these data, acting by `act` (R348). -/
def SbCommands (code : Byte) (data : List Byte) (pec : Option Byte) (c : Instr) (act : State → State) : Prop :=
  (∃ f, sbForm code = some f ∧ f.vsb = false) ∧ ∀ s, exec c s = .next (s.sbCommand code data pec c act)

theorem axisStop_commands (a m : Byte) : SbCommands 0x21 [a, m] pec (.axisStop a m pec) fun s => s.axisStopAct a m := ⟨⟨_, rfl, rfl⟩, fun _ => rfl⟩
theorem axisEnable_commands (a : Byte) : SbCommands 0x22 [a] pec (.axisEnable a pec) fun s => s.axisEnableAct a := ⟨⟨_, rfl, rfl⟩, fun _ => rfl⟩
theorem sbJog_commands (a d : Byte) : SbCommands 0x23 [a, d] pec (.sbJog a d pec) fun s => s.sbJogAct a d := ⟨⟨_, rfl, rfl⟩, fun _ => rfl⟩
theorem take_commands (a : Byte) : SbCommands 0x28 [a] pec (.take a pec) fun s => s.takeAct a := ⟨⟨_, rfl, rfl⟩, fun _ => rfl⟩
theorem handBack_commands (a : Byte) : SbCommands 0x29 [a] pec (.handBack a pec) fun s => s.handBackAct a := ⟨⟨_, rfl, rfl⟩, fun _ => rfl⟩

/-- The command reaches the arbiter where the port may act (R345, R359). -/
theorem exec_sbCommand (h : SbCommands code data pec c act) (hl : s.nvm.lc ≠ .retired) (hp : s.sb.power = .active) (hr : s.dev.ready = true)
    (hgood : s.pecGood code data pec) : exec c s = .next ((s.sbKept code).sbDispatch c act) := by
  obtain ⟨⟨f, hf, hv⟩, hrun⟩ := h
  rw [hrun s]
  unfold State.sbCommand
  rw [sbWrite_acts hgood (gate_acts hf hv hl hp hr)]

/-- What decides over a turn does not change as the port wakes. -/
theorem sbKept_free (h : s.sbFree c) (code : Byte) : (s.sbKept code).sbFree c := by
  have hw : (s.sbKept code).sb.waiting = s.sb.waiting := by rw [sbKept_sb]
  unfold State.sbFree
  rw [hw, sbKept_frame]
  exact h

/-- A command whose turn has come acts (R359). -/
theorem exec_sbCommand_acts (h : SbCommands code data pec c act) (ha : s.sbActs) (hgood : s.pecGood code data pec) (hfree : s.sbFree c) :
    exec c s = .next (act (s.sbKept code)) := by
  obtain ⟨hl, hp, hr, hsusp, hhold⟩ := ha
  have hd : (s.sbKept code).dispatching = true := by
    rw [sbKept_frame]
    unfold State.dispatching
    rw [show s.dev.stage = .running from hfree.1, hsusp, hhold]
    rfl
  rw [exec_sbCommand h hl hp hr hgood, sbDispatch_acts hd (sbKept_free hfree code)]

/-- A command that waits for its turn: its place is kept, and its result is PENDING (R350, R359). -/
def State.sbWaits (s : State) (code : Byte) (c : Instr) : State := { s.sbDone code 0x80 with
  q := { s.q with nextSeq := s.q.nextSeq + 1 }
  sb := { (s.sbDone code 0x80).sb with waiting := s.sb.waiting ++ [(s.q.nextSeq, c)], pendWait := true } }

/-- Nothing is taken back from a core while dispatch is suspended, or while a core is free (R296, R418). -/
theorem preempt_idle {u : State} (h : u.dispatching = false ∨ ∃ k, u.coreFree k = true) : (if u.dispatching then u.preempt else u) = u := by
  split
  next hd =>
    obtain ⟨k, hk⟩ := h.resolve_left (by rw [hd]; exact fun h => Bool.false_ne_true h.symm)
    exact if_pos (List.any_eq_true.2 ⟨k, List.mem_finRange k, hk⟩)
  next => rfl

/-- A command whose turn has not come waits. -/
theorem exec_sbCommand_waits (h : SbCommands code data pec c act) (hl : s.nvm.lc ≠ .retired) (hp : s.sb.power = .active) (hr : s.dev.ready = true)
    (hgood : s.pecGood code data pec) (hpre : s.dispatching = false ∨ ∃ k, s.coreFree k = true) (hturn : s.sbTurn s.q.nextSeq c = false) :
    exec c s = .next (s.sbWaits code c) := by
  have hframe := sbKept_frame s code
  have hkept := sbKept_sb s code
  have hdone := sbDone_sb s code 0x80
  have hdoneFrame := sbDone_frame s code 0x80
  rw [exec_sbCommand h hl hp hr hgood]
  unfold State.sbWaits
  rw [hdone, hdoneFrame]
  generalize s.sbKept code = u at hframe hkept
  have hpre' : u.dispatching = false ∨ ∃ k, u.coreFree k = true := by
    rw [hframe]
    exact hpre
  have hturn' : u.sbTurn u.q.nextSeq c = false := by
    rw [hframe]
    exact hturn
  unfold State.sbDispatch
  simp only [preempt_idle hpre', hturn', Bool.and_false, Bool.false_eq_true, if_false]
  rw [hkept, hframe]

/-- Every command of the table on an axis is one (R346, R348). -/
theorem sbRow_commands (hrow : sbRow code data pec = some c) (hcode : code ∈ ([0x21, 0x22, 0x23, 0x28, 0x29] : List Byte)) :
    ∃ act, SbCommands code data pec c act := by
  have hlen : (sbForm code).map (·.args) = some data.length := by
    by_contra hne
    unfold sbRow at hrow
    rw [if_pos hne] at hrow
    exact nomatch hrow
  have hone (hn : data.length = 1) : [byteAt data 0] = data := (bytes_eq data 0 1 (by omega)).trans (take_all data 1 hn)
  have htwo (hn : data.length = 2) : [byteAt data 0, byteAt data 1] = data := (bytes_eq data 0 2 (by omega)).trans (take_all data 2 hn)
  have hsame {c' : Instr} {d : List Byte} {act : State → State} (hc : sbRow code data pec = some c') (h : SbCommands code d pec c' act)
      (hd : d = data) : ∃ act, SbCommands code data pec c act := by
    obtain rfl := Option.some.inj (hrow.symm.trans hc)
    exact ⟨act, hd ▸ h⟩
  have hfixed {k : Nat} (hform : (sbForm code).map (·.args) = some k) : data.length = k := Option.some.inj (hlen.symm.trans hform)
  simp only [List.mem_cons, List.not_mem_nil, or_false] at hcode
  obtain rfl | rfl | rfl | rfl | rfl := hcode
  · exact hsame (if_neg (not_not.2 hlen)) (axisStop_commands ..) (htwo (hfixed rfl))
  · exact hsame (if_neg (not_not.2 hlen)) (axisEnable_commands ..) (hone (hfixed rfl))
  · exact hsame (if_neg (not_not.2 hlen)) (sbJog_commands ..) (htwo (hfixed rfl))
  · exact hsame (if_neg (not_not.2 hlen)) (take_commands ..) (hone (hfixed rfl))
  · exact hsame (if_neg (not_not.2 hlen)) (handBack_commands ..) (hone (hfixed rfl))

/-! ### Commands on one axis (R348) -/

theorem sbKept_axis (s : State) (code a : Byte) : (s.sbKept code).sbAxis a = s.sbAxis a := by
  rw [sbKept_frame]
  rfl

section
variable {checks : AxisId → List (Bool × Status)} {on : State → AxisId → State}

theorem sbOnAxis_none (h : s.sbAxis a = none) : (s.sbKept code).sbOnAxis a checks on = s.sbDone code Status.rejectAxis.code := by
  unfold State.sbOnAxis
  simp only [sbKept_axis, h, sbKept_result]

theorem sbOnAxis_refused {r : Bool × Status} (h : s.sbAxis a = some n) (hr : (checks n).find? (fun c => c.1) = some r) :
    (s.sbKept code).sbOnAxis a checks on = s.sbDone code r.2.code := by
  unfold State.sbOnAxis
  simp only [sbKept_axis, h, hr, sbKept_result]

theorem sbOnAxis_acts (h : s.sbAxis a = some n) (hr : (checks n).find? (fun c => c.1) = none) :
    (s.sbKept code).sbOnAxis a checks on = on (s.sbKept code) n := by
  unfold State.sbOnAxis
  simp only [sbKept_axis, h, hr]

end

/-- An action over time begins (R350, R359). -/
theorem sbPending_awaits (s : State) (code : Byte) (n : AxisId) (kind : ActKind) : (s.sbKept code).sbPending n kind = s.sbAwaits code n kind [] := by
  have hframe := sbKept_frame s code
  have hkept := sbKept_sb s code
  have hdone := sbDone_sb s code 0x80
  have hdoneFrame := sbDone_frame s code 0x80
  unfold State.sbAwaits
  rw [hdone, hdoneFrame]
  generalize s.sbKept code = u at hframe hkept
  unfold State.sbPending
  rw [hframe, hkept, List.append_nil]
  rfl

theorem sbAwaits_addSnap (s : State) (code : Byte) (n : AxisId) (kind : ActKind) (o : SnapOp) :
    (s.sbAwaits code n kind []).addSnap o = s.sbAwaits code n kind [o] := by
  unfold State.sbAwaits State.addSnap
  simp only [List.append_nil]

/-! ### AXIS_STOP and TAKE (R355, R358) -/

section
variable (ha : s.sbActs) (hn : s.sbAxis a = some n)
include ha hn

theorem exec_axisStop_stop (hgood : s.pecGood 0x21 [a, 0] pec) (hfree : s.sbFree (.axisStop a 0 pec)) :
    exec (.axisStop a 0 pec) s = .next (s.sbAwaits 0x21 n .stop [.stop n false false s.q.nextAct]) := by
  have hact : (s.sbKept 0x21).q.nextAct = s.q.nextAct := by rw [sbKept_frame]
  rw [exec_sbCommand_acts (axisStop_commands a 0) ha hgood hfree]
  unfold State.axisStopAct
  rw [sbOnAxis_acts hn rfl]
  show Host.Outcome.next (State.addSnap ((s.sbKept 0x21).sbPending n .stop) (.stop n false false (s.sbKept 0x21).q.nextAct)) = _
  rw [sbPending_awaits, sbAwaits_addSnap, hact]

theorem exec_axisStop_quick (hgood : s.pecGood 0x21 [a, 1] pec) (hfree : s.sbFree (.axisStop a 1 pec)) :
    exec (.axisStop a 1 pec) s = .next (s.sbAwaits 0x21 n .quickstop [.stop n true false s.q.nextAct]) := by
  have hact : (s.sbKept 0x21).q.nextAct = s.q.nextAct := by rw [sbKept_frame]
  rw [exec_sbCommand_acts (axisStop_commands a 1) ha hgood hfree]
  unfold State.axisStopAct
  rw [sbOnAxis_acts hn rfl]
  show Host.Outcome.next (State.addSnap ((s.sbKept 0x21).sbPending n .quickstop) (.stop n true false (s.sbKept 0x21).q.nextAct)) = _
  rw [sbPending_awaits, sbAwaits_addSnap, hact]

theorem exec_axisStop_disable (hgood : s.pecGood 0x21 [a, 2] pec) (hfree : s.sbFree (.axisStop a 2 pec)) (hen : (s.ax n).drv.enabled = true)
    (hdis : s.disablingNow n = false) (hs : s.mp.stream = none) :
    exec (.axisStop a 2 pec) s = .next (s.sbAwaits 0x21 n .disable [.disable n s.q.nextAct]) := by
  have hact : (s.sbKept 0x21).q.nextAct = s.q.nextAct := by rw [sbKept_frame]
  have hstream : (s.sbKept 0x21).mp.stream = none := by
    rw [sbKept_frame]
    exact hs
  rw [exec_sbCommand_acts (axisStop_commands a 2) ha hgood hfree]
  unfold State.axisStopAct
  rw [sbOnAxis_acts hn rfl]
  show Host.Outcome.next (State.startDisable (((s.sbKept 0x21).endStreamOn [n]).sbPending n .disable) n (s.sbKept 0x21).q.nextAct) = _
  rw [endStreamOn_none hstream, sbPending_awaits, hact, ← sbAwaits_addSnap]
  have hdis' : (s.sbAwaits 0x21 n .disable []).disablingNow n = s.disablingNow n := by
    unfold State.sbAwaits
    rw [sbDone_frame, List.append_nil]
    rfl
  have hen' : ((s.sbAwaits 0x21 n .disable []).ax n).drv.enabled = true := by
    unfold State.sbAwaits
    rw [sbDone_frame]
    exact hen
  refine congrArg Host.Outcome.next ((if_neg ?_).trans (if_pos hen'))
  rw [hdis', hdis]
  exact Bool.false_ne_true

theorem exec_axisStop_noMode (m : Byte) (hm : 2 < m.toNat) (hgood : s.pecGood 0x21 [a, m] pec) (hfree : s.sbFree (.axisStop a m pec)) :
    exec (.axisStop a m pec) s = .next (s.sbDone 0x21 Status.rejectParam.code) := by
  rw [exec_sbCommand_acts (axisStop_commands a m) ha hgood hfree]
  unfold State.axisStopAct
  rw [sbOnAxis_refused (r := (true, .rejectParam)) hn (by simp [hm])]

theorem exec_take_owned (hgood : s.pecGood 0x28 [a] pec) (hfree : s.sbFree (.take a pec)) (ho : (s.ax n).prot.owner = .sideband) :
    exec (.take a pec) s = .next (s.sbDone 0x28 0) := by
  have hown : ((s.sbKept 0x28).ax n).prot.owner = .sideband := by
    rw [sbKept_frame]
    exact ho
  rw [exec_sbCommand_acts (take_commands a) ha hgood hfree]
  unfold State.takeAct
  rw [sbOnAxis_acts hn rfl, if_pos hown, sbKept_result]
  rfl

theorem exec_take (hgood : s.pecGood 0x28 [a] pec) (hfree : s.sbFree (.take a pec)) (ho : (s.ax n).prot.owner ≠ .sideband) :
    exec (.take a pec) s = .next (s.sbAwaits 0x28 n .take [.take n s.q.nextAct]) := by
  have hown : ((s.sbKept 0x28).ax n).prot.owner ≠ .sideband := by
    rw [sbKept_frame]
    exact ho
  have hact : (s.sbKept 0x28).q.nextAct = s.q.nextAct := by rw [sbKept_frame]
  rw [exec_sbCommand_acts (take_commands a) ha hgood hfree]
  unfold State.takeAct
  rw [sbOnAxis_acts hn rfl, if_neg hown, sbPending_awaits, sbAwaits_addSnap, hact]

end

end Sys2Proof.Machine
end

section
/-! PROOF. ENABLE, jogs and the handing back of an axis from the side-band port (13_sideband.md R348, R355 to R359). -/
namespace Sys2Proof.Machine
open Sys2Proof

variable {s : State} {code : Byte} {pec : Option Byte} {a : Byte} {n : AxisId}

/-! ### Whose axis it is (R348) -/

theorem notOwned_host {u : State} (h : (u.ax n).prot.owner ≠ .sideband) : u.notOwned n = (true, .rejectOwner) := by
  unfold State.notOwned
  rw [decide_eq_true h]

theorem notOwned_sideband {u : State} (h : (u.ax n).prot.owner = .sideband) : u.notOwned n = (false, .rejectOwner) := by
  unfold State.notOwned
  rw [decide_eq_false (not_not.2 h)]

theorem sbKept_ax (s : State) (code : Byte) (n : AxisId) : (s.sbKept code).ax n = s.ax n := by
  rw [sbKept_frame]
  rfl

/-- A direction that R357 does not define. -/
def badDirection (d : Byte) : Bool := d ≠ 0x01 && d ≠ 0xFF && d ≠ 0x00

/-- The body of SB_JOG on an axis of the port. -/
def State.jogOn (s : State) (d : Byte) (n : AxisId) : State :=
  let s1 := s.dropJogWait n .stopped 0
  if d = 0 then (s1.sbJogStop n).sbResult Status.ok.code
  else if s1.jogging n (d = 0x01) then s1.sbResult Status.ok.code
  else
    let s2 := if (s1.ax n).mot.jog.isSome then s1.sbJogStop n else s1
    let s3 := s2.sbPending n .sbJog
    { s3 with sb := { s3.sb with jogWait := s3.sb.jogWait ++ [(n, decide (d = 0x01))] } }

theorem sbJogAct_on (s : State) (a d : Byte) : s.sbJogAct a d =
    s.sbOnAxis a (fun n => [(badDirection d, .rejectParam), s.notOwned n, (d ≠ 0 && !(s.ax n).drv.enabled, .rejectState)]) fun s n => s.jogOn d n := rfl

section
variable (ha : s.sbActs) (hn : s.sbAxis a = some n)
include ha hn

theorem exec_handBack_notOwned (ho : (s.ax n).prot.owner ≠ .sideband) (hgood : s.pecGood 0x29 [a] pec) (hfree : s.sbFree (.handBack a pec)) :
    exec (.handBack a pec) s = .next (s.sbDone 0x29 Status.rejectOwner.code) := by
  rw [exec_sbCommand_acts (handBack_commands a) ha hgood hfree]
  unfold State.handBackAct
  rw [sbOnAxis_refused (r := (true, .rejectOwner)) hn]
  rw [notOwned_host (by rw [sbKept_ax]; exact ho)]
  rfl

theorem exec_axisEnable_notOwned (ho : (s.ax n).prot.owner ≠ .sideband) (hgood : s.pecGood 0x22 [a] pec) (hfree : s.sbFree (.axisEnable a pec)) :
    exec (.axisEnable a pec) s = .next (s.sbDone 0x22 Status.rejectOwner.code) := by
  rw [exec_sbCommand_acts (axisEnable_commands a) ha hgood hfree]
  unfold State.axisEnableAct
  rw [sbOnAxis_refused (r := (true, .rejectOwner)) hn]
  rw [notOwned_host (by rw [sbKept_ax]; exact ho)]
  rfl

theorem exec_sbJog_notOwned (ho : (s.ax n).prot.owner ≠ .sideband) (hgood : s.pecGood 0x23 [a, 1] pec) (hfree : s.sbFree (.sbJog a 1 pec)) :
    exec (.sbJog a 1 pec) s = .next (s.sbDone 0x23 Status.rejectOwner.code) := by
  rw [exec_sbCommand_acts (sbJog_commands a 1) ha hgood hfree, sbJogAct_on]
  rw [sbOnAxis_refused (r := (true, .rejectOwner)) hn]
  rw [notOwned_host (by rw [sbKept_ax]; exact ho)]
  rfl

/-! ### An axis of the port's own (R355 to R358) -/

/-- The jog of an axis that waits is given up (R357). -/
def State.jogDropped (s : State) (n : AxisId) : State := { s with sb := { s.sb with jogWait := s.sb.jogWait.filter fun j => j.1 ≠ n } }

omit ha hn in
/-- With no action waiting nothing else ends with the jog. -/
theorem dropJogWait_dropped {u : State} (h : u.q.actions = []) (n : AxisId) (st : Status) (w : Word) : u.dropJogWait n st w = u.jogDropped n :=
  endActs_noActions (s := u.jogDropped n) h n _ _ _ _

omit ha hn in
theorem sbKept_noActions (h : s.q.actions = []) (code : Byte) : (s.sbKept code).q.actions = [] := by
  rw [sbKept_frame]
  exact h

omit ha hn in
/-- An action that begins where a jog was given up. -/
theorem sbPending_dropped (s : State) (code : Byte) (n : AxisId) (kind : ActKind) : ((s.sbKept code).jogDropped n).sbPending n kind =
    { s.sbAwaits code n kind [] with sb := { (s.sbAwaits code n kind []).sb with jogWait := s.sb.jogWait.filter fun j => j.1 ≠ n } } := by
  have hwait : (s.sbAwaits code n kind []).sb.jogWait = s.sb.jogWait := by
    show (s.sbKept code).sb.jogWait = _
    rw [sbKept_sb]
  rw [← hwait, ← sbPending_awaits]
  rfl

theorem exec_handBack (hq : s.q.actions = []) (ho : (s.ax n).prot.owner = .sideband) (hgood : s.pecGood 0x29 [a] pec)
    (hfree : s.sbFree (.handBack a pec)) : exec (.handBack a pec) s = .next { s.sbAwaits 0x29 n .handBack [.handBack n s.q.nextAct] with
      sb := { (s.sbAwaits 0x29 n .handBack []).sb with
        jogs := s.sb.jogs.filter (· ≠ n), jogWait := s.sb.jogWait.filter fun j => j.1 ≠ n } } := by
  have hact : (s.sbKept 0x29).q.nextAct = s.q.nextAct := by rw [sbKept_frame]
  have hjogs : (s.sbAwaits 0x29 n .handBack []).sb.jogs = s.sb.jogs := by
    show (s.sbKept 0x29).sb.jogs = _
    rw [sbKept_sb]
  rw [exec_sbCommand_acts (handBack_commands a) ha hgood hfree]
  unfold State.handBackAct
  rw [sbOnAxis_acts hn (by rw [notOwned_sideband (by rw [sbKept_ax]; exact ho)]; rfl)]
  have hrun : (State.sbPending ((s.sbKept 0x29).dropJogWait n .stopped 0) n .handBack) = { s.sbAwaits 0x29 n .handBack [] with
      sb := { (s.sbAwaits 0x29 n .handBack []).sb with jogWait := s.sb.jogWait.filter fun j => j.1 ≠ n } } := by
    rw [dropJogWait_dropped (sbKept_noActions hq 0x29), sbPending_dropped]
  simp only [hrun, hact]
  rw [← hjogs, ← sbAwaits_addSnap]
  rfl

theorem exec_axisEnable (ho : (s.ax n).prot.owner = .sideband) (hgood : s.pecGood 0x22 [a] pec)
    (hfree : s.sbFree (.axisEnable a pec)) (hpass : passes (s.enableChecks n)) (hoff : (s.ax n).drv.enabled = false)
    (hing : (s.ax n).drv.enabling = false) : exec (.axisEnable a pec) s = .next { s.sbAwaits 0x22 n .enable [.energise n] with
      axes := upd s.axes n fun x => { x with drv := { x.drv with enabling := true } } } := by
  have hact : (s.sbKept 0x22).q.nextAct = s.q.nextAct := by rw [sbKept_frame]
  have hax : (s.sbAwaits 0x22 n .enable []).ax n = s.ax n := by
    unfold State.sbAwaits
    rw [sbDone_frame]
    rfl
  have haxes : (s.sbAwaits 0x22 n .enable []).axes = s.axes := by
    unfold State.sbAwaits
    rw [sbDone_frame]
  have hchecks : firstFailure ((s.sbAwaits 0x22 n .enable []).enableChecks n) = none := by
    rw [← hpass]
    unfold State.sbAwaits
    rw [sbDone_frame, List.append_nil]
    rfl
  rw [exec_sbCommand_acts (axisEnable_commands a) ha hgood hfree]
  unfold State.axisEnableAct
  rw [sbOnAxis_acts hn (by rw [notOwned_sideband (by rw [sbKept_ax]; exact ho)]; rfl), sbPending_awaits, hact, ← sbAwaits_addSnap, ← haxes]
  unfold State.startEnable
  rw [hchecks]
  refine congrArg Host.Outcome.next ((if_neg ?_).trans (if_neg ?_))
  · rw [hax, hing]
    exact Bool.false_ne_true
  · rw [hax, hoff]
    exact Bool.false_ne_true

theorem exec_sbJog (hq : s.q.actions = []) (ho : (s.ax n).prot.owner = .sideband) (d : Byte) (pos : Bool)
    (hd : (d = 0x01 ∧ pos = true) ∨ (d = 0xFF ∧ pos = false)) (hgood : s.pecGood 0x23 [a, d] pec) (hfree : s.sbFree (.sbJog a d pec))
    (hen : (s.ax n).drv.enabled = true) (hjogs : s.sb.jogs = []) (hjog : (s.ax n).mot.jog = none) :
    exec (.sbJog a d pec) s = .next { s.sbAwaits 0x23 n .sbJog [] with
      sb := { (s.sbAwaits 0x23 n .sbJog []).sb with jogWait := (s.sb.jogWait.filter fun j => j.1 ≠ n) ++ [(n, pos)] } } := by
  have hbad : badDirection d = false := by obtain ⟨rfl, -⟩ | ⟨rfl, -⟩ := hd <;> rfl
  have hdir : decide (d = 0x01) = pos := by obtain ⟨rfl, rfl⟩ | ⟨rfl, rfl⟩ := hd <;> rfl
  have hne : d ≠ 0 := by obtain ⟨rfl, -⟩ | ⟨rfl, -⟩ := hd <;> decide
  have hnone : ((s.sbKept 0x23).jogDropped n).sb.jogs = [] := (congrArg SideBand.jogs (sbKept_sb s 0x23) :).trans hjogs
  have hrun : (s.sbKept 0x23).jogOn d n = { State.sbPending ((s.sbKept 0x23).jogDropped n) n .sbJog with
      sb := { (State.sbPending ((s.sbKept 0x23).jogDropped n) n .sbJog).sb with
        jogWait := (State.sbPending ((s.sbKept 0x23).jogDropped n) n .sbJog).sb.jogWait ++ [(n, pos)] } } := by
    have hrest : ((s.sbKept 0x23).jogDropped n).jogging n pos = false := by
      unfold State.jogging
      rw [hnone]
      rfl
    have hidle : ((((s.sbKept 0x23).jogDropped n).ax n).mot.jog.isSome) = false := by
      show (((s.sbKept 0x23).ax n).mot.jog.isSome) = false
      rw [sbKept_ax, hjog]
      rfl
    unfold State.jogOn
    simp only [dropJogWait_dropped (sbKept_noActions hq 0x23), hdir, hrest, hidle, if_neg hne, Bool.false_eq_true, if_false]
  rw [exec_sbCommand_acts (sbJog_commands a d) ha hgood hfree, sbJogAct_on, sbOnAxis_acts hn, hrun, sbPending_dropped]
  rw [notOwned_sideband (by rw [sbKept_ax]; exact ho), sbKept_ax, hbad, hen, Bool.not_true, Bool.and_false]
  rfl

theorem exec_sbJog_stop (hq : s.q.actions = []) (ho : (s.ax n).prot.owner = .sideband) (hgood : s.pecGood 0x23 [a, 0] pec)
    (hfree : s.sbFree (.sbJog a 0 pec)) : exec (.sbJog a 0 pec) s = .next { s.sbDone 0x23 0 with
      q := { s.q with snapOps := s.q.snapOps ++ [.handBack n s.q.nextAct] }
      sb := { (s.sbDone 0x23 0).sb with
        jogs := s.sb.jogs.filter (· ≠ n), jogWait := s.sb.jogWait.filter fun j => j.1 ≠ n } } := by
  have hrun : (s.sbKept 0x23).jogOn 0 n = (((s.sbKept 0x23).jogDropped n).sbJogStop n).sbResult 0 := by
    unfold State.jogOn
    simp only [dropJogWait_dropped (sbKept_noActions hq 0x23), if_true]
    rfl
  rw [exec_sbCommand_acts (sbJog_commands a 0) ha hgood hfree, sbJogAct_on, sbOnAxis_acts hn, hrun]
  · have hframe := sbKept_frame s 0x23
    have hkept := sbKept_sb s 0x23
    rw [sbDone_frame]
    generalize s.sbKept 0x23 = u at hframe hkept
    unfold State.jogDropped State.sbJogStop
    rw [hframe, hkept]
    rfl
  · rw [notOwned_sideband (by rw [sbKept_ax]; exact ho)]
    rfl

end

/-! ### A jog that is not renewed (R353, R357) -/

theorem exec_sbJogExpiry (h : s.sb.jogs.contains n = true) : exec (.sbJogExpiry n) s = .next { s with
    q := { s.q with snapOps := s.q.snapOps ++ [.handBack n s.q.nextAct] }
    sb := { s.sb with jogs := s.sb.jogs.filter (· ≠ n), causes := s.sb.causes ||| 4, announced := s.sb.announced &&& ~~~4 } } :=
  congrArg Host.Outcome.next (if_pos h)

/-! ### Commands whose turn has not come (R359, R420) -/

theorem dispatching_suspended (s : State) : { s with dev := { s.dev with suspended := true } }.dispatching = false := by
  unfold State.dispatching
  simp

theorem sbTurn_suspended (s : State) (seq : Nat) (c : Instr) :
    { s with dev := { s.dev with suspended := true } }.sbTurn seq c = false := by
  unfold State.sbTurn
  rw [dispatching_suspended, Bool.false_and, Bool.false_and]

/-- A packet of Q0 that no core has taken goes before every later command. -/
theorem sbTurn_queued {p : Packet} {seq : Nat} {c : Instr} (hmem : p ∈ s.q.packets) (hq : p.queue = 0) (hseq : p.seq < seq)
    (hcore : p.core = none) : s.sbTurn seq c = false := by
  refine Bool.and_eq_false_iff.2 (.inr (List.all_eq_false.2 ⟨p, hmem, ?_⟩))
  simp [hq, hseq, hcore]

theorem pecGood_suspended (s : State) (code : Byte) (data : List Byte) (pec : Option Byte) :
    { s with dev := { s.dev with suspended := true } }.pecGood code data pec ↔ s.pecGood code data pec := by
  simp only [State.pecGood, sbWoken_eq]

/-- Settles O60: a command acts in the state of the woken port where its turn has come, and else keeps its place. That SB_JOG with direction 0
completes OK at once is log 37; that commands wait while dispatch is suspended is log 69, and that turns of Q0 are taken in the row log 117. -/
theorem sideBandAxisCommands : Obligations.SideBandAxisCommands := by
  refine fun s pec ha => ⟨fun a n hn hpart => ?_, fun a hnone => ?_, fun c code data hrow hcode hgood => ?_, fun n => ⟨fun h => ?_, exec_sbJogExpiry⟩⟩
  · have hax := sbAxis_some hn hpart
    exact ⟨exec_axisStop_stop ha hax, exec_axisStop_quick ha hax, exec_axisStop_disable ha hax, exec_axisStop_noMode ha hax,
      fun hgood hfree => ⟨exec_take_owned ha hax hgood hfree, exec_take ha hax hgood hfree⟩,
      fun ho => ⟨exec_handBack_notOwned ha hax ho, exec_axisEnable_notOwned ha hax ho, exec_sbJog_notOwned ha hax ho⟩,
      fun ho hq => ⟨exec_handBack ha hax hq ho, exec_axisEnable ha hax ho, fun d pos hd => exec_sbJog ha hax hq ho d pos hd, exec_sbJog_stop ha hax hq ho⟩⟩
  · have hax := sbAxis_none hnone
    refine ⟨fun hgood hfree => ?_, fun hgood hfree => ?_, fun hgood hfree => ?_, fun m hgood hfree => ?_⟩
    · exact (exec_sbCommand_acts (take_commands a) ha hgood hfree).trans (congrArg Host.Outcome.next (sbOnAxis_none hax))
    · exact (exec_sbCommand_acts (handBack_commands a) ha hgood hfree).trans (congrArg Host.Outcome.next (sbOnAxis_none hax))
    · exact (exec_sbCommand_acts (axisEnable_commands a) ha hgood hfree).trans (congrArg Host.Outcome.next (sbOnAxis_none hax))
    · exact (exec_sbCommand_acts (axisStop_commands a m) ha hgood hfree).trans (congrArg Host.Outcome.next (sbOnAxis_none hax))
  · obtain ⟨hl, hp, hr, -⟩ := ha
    obtain ⟨act, hact⟩ := sbRow_commands hrow hcode
    refine ⟨exec_sbCommand_waits hact hl hp hr ?_ (.inl ?_) ?_, fun p hmem hq hseq hcore hfree => exec_sbCommand_waits hact hl hp hr hgood (.inr hfree) ?_⟩
    · exact (pecGood_suspended s code data pec).2 hgood
    · exact dispatching_suspended s
    · exact sbTurn_suspended s _ c
    · exact sbTurn_queued hmem hq hseq hcore
  · exact congrArg Host.Outcome.next (if_neg (by rw [h]; exact Bool.false_ne_true))

end Sys2Proof.Machine
end

section
/-! PROOF. Host frames and the register words they carry (10_host_port.md R267 to R279, R286). -/
namespace Sys2Proof.Machine
open Sys2Proof

variable {s : State} {f : HostFrame} {op : FrameOp} {ta turns : Nat}

/-! ### The three ways a frame goes (R267, R272, R286) -/

theorem hostFrame_body (hup : s.portUp = true) (hop : f.op = op) (hl : f.lanes ≠ 3) (he : 8 ≤ f.edges) (body : State → State) :
    s.hostFrame op f body = body (s.latchStatus op f) := by
  unfold State.hostFrame
  have hrow : (f.edges = 0 || !s.portUp || f.op ≠ op) = false := by
    simp [hup, hop, show f.edges ≠ 0 by omega]
  have hcode : (f.lanes = 3 && 2 ≤ f.edges) = false := by rw [decide_eq_false hl, Bool.false_and]
  simp only [hrow, hcode, if_neg (show ¬ f.edges < 8 by omega), Bool.false_eq_true, if_false]

theorem hostFrame_other (hop : f.op ≠ op) (body : State → State) : s.hostFrame op f body = s :=
  if_pos (by simp [hop])

/-- What a frame leaves that ends before its status: the error with its cause (R286). -/
def State.frameCut (s : State) (code : BitVec 4) : State := { s with hp := { s.hp with
  statusOut := none, lanesOut := [], dataOut := [], frameErr := true, pushRej := false, frameErrS := true, fcause := code } }

theorem hostFrame_cut (hup : s.portUp = true) (hop : f.op = op) {code : BitVec 4}
    (hcut : (f.lanes = 3 ∧ 2 ≤ f.edges ∧ code = 1) ∨ (f.lanes ≠ 3 ∧ 1 ≤ f.edges ∧ f.edges < 8 ∧ code = 2)) (body : State → State) :
    s.hostFrame op f body = s.frameCut code := by
  unfold State.hostFrame
  have hpos : f.edges ≠ 0 := by omega
  have hrow : (f.edges = 0 || !s.portUp || f.op ≠ op) = false := by
    simp [hup, hop, hpos]
  rw [hrow]
  rcases hcut with ⟨hl, he, rfl⟩ | ⟨hl, -, he, rfl⟩
  · have hcode : (f.lanes = 3 && 2 ≤ f.edges) = true := by simp [hl, he]
    simp only [hcode, Bool.false_eq_true, if_false, if_true]
    rfl
  · have hcode : (f.lanes = 3 && 2 ≤ f.edges) = false := by rw [decide_eq_false hl, Bool.false_and]
    simp only [hcode, if_pos he, Bool.false_eq_true, if_false]
    rfl

/-! ### Lanes, edges and bytes (R268 to R270) -/

theorem lanes_width (h : f.lanes ≠ 3) : frameWidth f = 2 ∨ frameWidth f = 4 ∨ frameWidth f = 8 := by
  unfold frameWidth
  have hcode : ∀ l : BitVec 2, l ≠ 3 → l = 0 ∨ l = 1 ∨ l = 2 := by decide
  rcases hcode f.lanes h with h | h | h <;> rw [h] <;> decide

theorem length_flatMap_const {α β : Type} {g : α → List β} {k : Nat} (h : ∀ a, (g a).length = k) (l : List α) :
    (l.flatMap g).length = k * l.length := by
  rw [List.length_flatMap, List.map_congr_left (fun a _ => h a), List.map_const', List.sum_replicate, smul_eq_mul, Nat.mul_comm]

theorem length_wordBytes (w : Word) : (wordBytes w).length = 4 := rfl

/-- A byte takes as many edges as the width goes into 8. -/
theorem length_lanesOut (l : List Byte) : (lanesOut f l).length = 8 / frameWidth f * l.length :=
  length_flatMap_const (fun _ => (List.length_map _).trans List.length_range) l

theorem lanesOut_append (l m : List Byte) : lanesOut f (l ++ m) = lanesOut f l ++ lanesOut f m := List.flatMap_append

/-- The lanes of a status word that the frame drives whole. -/
theorem lanesOut_status (h : f.lanes ≠ 3) (hhead : frameHead f ta 1 ≤ f.edges) (w : BitVec 16) :
    (lanesOut f (leBytes 2 w.toNat)).take (f.edges - (8 + ta)) = lanesOut f (leBytes 2 w.toNat) := by
  refine List.take_of_length_le ?_
  rw [length_lanesOut, show (leBytes 2 w.toNat).length = 2 from rfl]
  unfold frameHead at hhead
  rcases lanes_width h with hw | hw | hw <;> rw [hw] at hhead ⊢ <;> omega

/-- Where the data phase carries as many bits as some bytes have, they are driven whole. -/
theorem driveData_whole (h : f.lanes ≠ 3) {l : List Byte} (hbits : dataBits f ta 1 = 8 * l.length) (u : State) :
    u.driveData f ta l = { u with hp := { u.hp with dataOut := l, lanesOut := u.hp.lanesOut ++ lanesOut f l } } := by
  unfold dataBits at hbits
  have hbytes : l.length ≤ (f.edges - frameHead f ta 1) * frameWidth f / 8 := by omega
  have hedges : (lanesOut f l).length ≤ f.edges - frameHead f ta 1 := by
    rw [length_lanesOut]
    rcases lanes_width h with hw | hw | hw <;> rw [hw] at hbits ⊢ <;> omega
  unfold State.driveData
  dsimp only
  rw [List.take_of_length_le hbytes, List.take_of_length_le hedges]

/-- A frame that ends with its status carries no data. -/
theorem driveData_nothing (hend : f.edges = frameHead f ta 1) {u : State} (hout : u.hp.dataOut = []) (l : List Byte) :
    u.driveData f ta l = u := by
  unfold State.driveData
  dsimp only
  rw [hend, Nat.sub_self, Nat.zero_mul, Nat.zero_div, List.take_zero, List.take_zero, List.append_nil, ← hout]

/-- A frame that ends with its status has no data phase, whatever the turnarounds. -/
theorem dataBits_none (h : f.edges = frameHead f ta 1) (hturns : 1 ≤ turns) : dataBits f ta turns = 0 := by
  unfold dataBits
  have hle : f.edges ≤ frameHead f ta turns := by
    rw [h]
    unfold frameHead
    have := Nat.mul_le_mul_right ta hturns
    omega
  rw [Nat.sub_eq_zero_of_le hle, Nat.zero_mul]

/-- A frame without a fault of its length sets no error. -/
theorem frameError_none {l : List (Nat × Bool)} (h : ∀ c ∈ l, c.2 = false) (u : State) : u.frameError (cause l) = u := by
  have hnone : l.find? (fun c => c.2) = none := List.find?_eq_none.2 fun c hc => by rw [h c hc]; exact Bool.false_ne_true
  unfold cause
  rw [hnone]
  rfl

/-! ### Reading words (R278) -/

theorem regRead_plain {port : Port} {page w : Nat} (hw : w ≤ 0xFF) (hpair : pairLo page w = none) (hlc : s.nvm.lc ≠ .retired) :
    s.regRead port page w = (s.readWord port page w, s) := by
  unfold State.regRead
  rw [if_neg (by omega), if_neg (fun h => hlc h.1), hpair]

theorem readWords_plain {page : Nat} (hlc : s.nvm.lc ≠ .retired) (k w : Nat) (hw : w + k ≤ 256)
    (hpair : ∀ i < k, pairLo page (w + i) = none) :
    State.readWords page k w s = ((List.range k).map fun i => s.readWord .host page (w + i), s) := by
  induction k generalizing w with
  | zero => rfl
  | succ k ih =>
    unfold State.readWords
    rw [regRead_plain (by omega) (show pairLo page w = none from hpair 0 (by omega)) hlc]
    dsimp only
    rw [ih (w + 1) (by omega) fun i hi => by rw [Nat.add_right_comm]; exact hpair (i + 1) (by omega)]
    dsimp only
    rw [List.range_succ_eq_map, List.map_cons, List.map_map]
    exact congrArg (fun l => (s.readWord .host page w :: l, s)) (List.map_congr_left fun i _ => by
      rw [Function.comp_apply, Nat.add_right_comm, Nat.add_assoc])

/-- The words that a read asks for: those outside the pairs, as they read once the status is latched. -/
def State.wordsOut (s : State) (f : HostFrame) (k : Nat) : List Byte :=
  (List.range k).flatMap fun i => wordBytes ((s.latchStatus .read f).readWord .host f.pq.toNat (f.addr.toNat + i))

theorem exec_registerReadFrame (hup : s.portUp = true) (hl : f.lanes ≠ 3) (he : 8 ≤ f.edges) {k : Nat} (hop : f.op = .read)
    (hbits : dataBits f s.hp.ta.toNat 1 = 32 * k) (hhead : frameHead f s.hp.ta.toNat 1 ≤ f.edges) (hk : f.addr.toNat + k ≤ 256)
    (hpair : ∀ i < k, pairLo f.pq.toNat (f.addr.toNat + i) = none) (hlc : s.nvm.lc ≠ .retired) :
    exec (.registerReadFrame f) s = .next { s with hp := { s.hp with
      statusOut := some (s.statusWord .read f), frameErr := false, pushRej := false, regErr := 0, dataOut := s.wordsOut f k
      lanesOut := lanesOut f (leBytes 2 (s.statusWord .read f).toNat ++ s.wordsOut f k) } } := by
  have hlatch : s.latchStatus .read f = { s with hp := { s.hp with
      statusOut := some (s.statusWord .read f), lanesOut := lanesOut f (leBytes 2 (s.statusWord .read f).toNat), dataOut := []
      frameErr := false, pushRej := false, regErr := 0 } } := by
    unfold State.latchStatus
    have hdriven : (false || decide (f.edges < frameHead f s.hp.ta.toNat 1)) = false := by simp [hhead]
    simp only [reduceCtorEq, decide_false, Bool.false_and, hdriven, Bool.false_eq_true, if_false, lanesOut_status hl hhead]
  have hwords : State.readWords f.pq.toNat ((dataBits f s.hp.ta.toNat 1 + 31) / 32) f.addr.toNat (s.latchStatus .read f)
      = ((List.range k).map fun i => (s.latchStatus .read f).readWord .host f.pq.toNat (f.addr.toNat + i), s.latchStatus .read f) := by
    rw [hbits, show (32 * k + 31) / 32 = k by omega]
    exact readWords_plain (s := s.latchStatus .read f) hlc k f.addr.toNat hk hpair
  have hbytes : ((List.range k).map fun i => (s.latchStatus .read f).readWord .host f.pq.toNat (f.addr.toNat + i)).flatMap wordBytes
      = s.wordsOut f k := List.flatMap_map ..
  have hlength : dataBits f s.hp.ta.toNat 1 = 8 * (s.wordsOut f k).length := by
    rw [hbits, State.wordsOut, length_flatMap_const (fun _ => length_wordBytes _), List.length_range]
    omega
  have hrun : exec (.registerReadFrame f) s = .next (s.readFrame f) := rfl
  rw [hrun, State.readFrame, hostFrame_body hup hop hl he]
  dsimp only
  rw [hwords]
  dsimp only
  rw [hbytes, driveData_whole hl hlength, frameError_none, hlatch, lanesOut_append]
  intro c hc
  rw [List.mem_singleton.1 hc, hbits]
  exact decide_eq_false (by omega)

/-! ### Writing words (R279) -/

theorem exec_registerWrite (hup : s.portUp = true) (hl : f.lanes ≠ 3) (he : 8 ≤ f.edges) {k : Nat} (hop : f.op = .write)
    (hbits : dataBits f s.hp.ta.toNat 2 = 32 * k) : exec (.registerWrite f) s = .next ((List.range k).foldl
      (fun u i => u.regWrite .host f.pq.toNat (f.addr.toNat + i) (wordAt (frameData f s.hp.ta.toNat) (4 * i)) (f.ticks.getD i 0))
      (s.latchStatus .write f)) := by
  have hrun : exec (.registerWrite f) s = .next (s.writeFrame f) := rfl
  rw [hrun, State.writeFrame, hostFrame_body hup hop hl he]
  dsimp only
  rw [frameError_none, hbits, Nat.mul_div_cancel_left k (by omega)]
  · rfl
  · intro c hc
    rw [hbits] at hc
    rcases List.mem_cons.1 hc with rfl | hc
    · exact decide_eq_false (by omega)
    · rw [List.mem_singleton.1 hc]
      exact decide_eq_false (by omega)

/-! ### Frames that end with their status (R275) -/

theorem exec_packetPush_status (hup : s.portUp = true) (hl : f.lanes ≠ 3) (he : 8 ≤ f.edges)
    (hend : f.edges = frameHead f s.hp.ta.toNat 1) (hop : f.op = .push) : exec (.packetPush f) s = .next (s.latchStatus .push f) := by
  have hrun : exec (.packetPush f) s = .next (s.pushFrame f) := rfl
  rw [hrun, State.pushFrame, hostFrame_body hup hop hl he]
  exact congrArg Host.Outcome.next (if_pos (dataBits_none hend (by omega)))

/-- No entry removed leaves the ring and the live tags as they are. -/
theorem removeEntries_zero (u : State) : u.removeEntries 0 = { u with q := u.q.request } := by
  unfold State.removeEntries
  simp only [List.take_zero, List.map_nil, List.drop_zero, List.contains_nil, Bool.not_false, List.filter_true]

theorem exec_completionPull_status (hup : s.portUp = true) (hl : f.lanes ≠ 3) (he : 8 ≤ f.edges)
    (hend : f.edges = frameHead f s.hp.ta.toNat 1) (hop : f.op = .pull) :
    exec (.completionPull f) s = .next { s.latchStatus .pull f with q := s.q.request } := by
  have hbits := dataBits_none hend (Nat.le_refl 1)
  have hrun : exec (.completionPull f) s = .next (s.pullFrame f) := rfl
  rw [hrun, State.pullFrame, hostFrame_body hup hop hl he]
  dsimp only
  rw [hbits, Nat.zero_div, Nat.min_zero, removeEntries_zero, frameError_none]
  · exact congrArg Host.Outcome.next (driveData_nothing hend rfl _)
  · simp

/-! ### The rows of the host port -/

/-- The four rows are frames of their operations: what each adds follows the latched status. -/
theorem exec_hostFrame {c : Instr} (hrow : (c, op) ∈ [(Instr.registerReadFrame f, FrameOp.read), (.registerWrite f, .write),
    (.packetPush f, .push), (.completionPull f, .pull)]) : ∃ body, exec c s = .next (s.hostFrame op f body) := by
  have hread : ∃ body, s.readFrame f = s.hostFrame .read f body := by unfold State.readFrame; exact ⟨_, rfl⟩
  have hwrite : ∃ body, s.writeFrame f = s.hostFrame .write f body := by unfold State.writeFrame; exact ⟨_, rfl⟩
  have hpush : ∃ body, s.pushFrame f = s.hostFrame .push f body := by unfold State.pushFrame; exact ⟨_, rfl⟩
  have hpull : ∃ body, s.pullFrame f = s.hostFrame .pull f body := by unfold State.pullFrame; exact ⟨_, rfl⟩
  simp only [List.mem_cons, Prod.mk.injEq, List.not_mem_nil, or_false] at hrow
  rcases hrow with ⟨rfl, rfl⟩ | ⟨rfl, rfl⟩ | ⟨rfl, rfl⟩ | ⟨rfl, rfl⟩
  · exact hread.imp fun _ h => congrArg Host.Outcome.next h
  · exact hwrite.imp fun _ h => congrArg Host.Outcome.next h
  · exact hpush.imp fun _ h => congrArg Host.Outcome.next h
  · exact hpull.imp fun _ h => congrArg Host.Outcome.next h

/-- Settles O38: what a frame does follows from where it ends. That the reports of the status word are consumed once the header of 8 edges is
in, that what was driven is recorded, and what a cut frame has done are log 23: an error in the header ends the PUSH_REJ report too (R273). -/
theorem registerFramesReadAndWrite : Obligations.RegisterFramesReadAndWrite := by
  refine ⟨fun s f hup hl he => ⟨fun k hop hbits hhead hk hpair hlc => exec_registerReadFrame hup hl he hop hbits hhead hk hpair hlc,
    fun hend => ⟨fun hop => ?_, exec_packetPush_status hup hl he hend, exec_completionPull_status hup hl he hend⟩⟩,
    fun s f hup => ⟨fun k hop hl he => exec_registerWrite hup hl he hop, fun c o hmem => ?_⟩⟩
  · exact exec_registerWrite (k := 0) hup hl he hop (dataBits_none hend (by omega))
  · obtain ⟨body, hrun⟩ := exec_hostFrame (s := s) hmem
    exact ⟨fun hop => hrun.trans (congrArg Host.Outcome.next (hostFrame_other hop body)),
      fun code hop hcut => hrun.trans (congrArg Host.Outcome.next (hostFrame_cut hup hop hcut body))⟩

end Sys2Proof.Machine
end
